-- ==== Sys2Proof/Word.lean ====
section
/-! DEFINITION. The word types of the manual (00_scope R7, R8): a word is 32 bits, bit 0 is the least
significant; and the sparse map every indexed family of registers and every memory is held in. -/

namespace Sys2Proof

/-- A word is 32 bits (R8). -/
abbrev Word := BitVec 32

/-- A byte of the store, of cluster memory or of a dictionary value. -/
abbrev Byte := BitVec 8

/-- A family indexed by number: the listed (number, value) pairs in rising order; an unlisted number holds the
family's reset value, which the operations of Machine/Mem.lean take as an argument. -/
abbrev SMap (α : Type) := List (Nat × α)

/-- A word with the poison tag it travels with (R129, R291). -/
structure PWord where
  w : Word
  poison : Bool
  deriving DecidableEq, Repr

end Sys2Proof
end

