-- ==== Sys2Proof/Syntax.lean ====
section
/-! DEFINITION. The commands of the block: one constructor per row of spec/opcode_table.json, with the operands the
row's rules name, and the data those operands are made of. Element numbers are plain numbers (WellFormed bounds
them); register values and addresses are bit vectors. -/

namespace Sys2Proof

/-- Who makes a register access (R70, R103, R446): the binding being loaded, or one of the two management cores. -/
inductive Writer where
  | binding | coreA | coreB
  deriving DecidableEq, Repr

/-- A management core (R445). -/
inductive MCore where
  | a | b
  deriving DecidableEq, Repr

/-- What happens to an engine operation besides its own effect: nothing; a bank conflict drops its access of line `line` of the
words it reads from, or writes to, a slot (R112); crossbar parity fails on the read, or on the write, of such a line (R350); a
residue or range mismatch of an engine without replay (Table 3.12). The upset is physical, and the bank cycles of an
operation's lines are the binder's to know, so both are inputs. -/
inductive Hap where
  | clean
  | bankConflict (slot line : Nat)
  | xbarRead (slot line : Nat)
  | xbarWrite (slot line : Nat)
  | residue
  deriving DecidableEq, Repr

/-- What a checker names in a mismatch (R96, R100, R149): a matrix core, by core row and logical slot; the index stream of a
sparse tile; a reduction lane. -/
inductive Mis where
  | core (row slot : Nat)
  | index
  | lane (n : Nat)
  deriving DecidableEq, Repr

/-- The LO/HI register pairs of R104: PART_CYCLE of a cluster, CTX_BYTES of a local context, COMMITTED and APPLIED of
a stack and partition (R267), the epochs and PEER_COMMITTED of a port (R327). -/
inductive LoReg where
  | partCycle (c : Nat)
  | ctxBytes (c k : Nat)
  | committed (stack p : Nat)
  | applied (stack p : Nat)
  | localEpoch (port : Nat)
  | partnerEpoch (port : Nat)
  | peerCommitted (port : Nat)
  deriving DecidableEq, Repr

/-- The read-and-clear event counters of R105. -/
inductive RcReg where
  | resEvents (c : Nat)
  | memCe (c : Nat)
  | memUe (c : Nat)
  | ctxPoison (c k : Nat)
  | linkEvents (slot d : Nat)
  | stackCe (stack : Nat)
  | stackUe (stack : Nat)
  | ueEvents (stack : Nat)
  | untouched (stack p : Nat)
  | portReplays (port : Nat)
  | portCwUncorr (port : Nat)
  | portAuthFail (port : Nat)
  deriving DecidableEq, Repr

/-- The registers REGISTER_WRITE names. `clusterWord` is any word of the two control pages of a cluster, by its offset from
0xFF_E000; `storeWord` and `portReg` any word of a stack's or a port's control space. -/
inductive GenReg where
  | mxFlags (c : Nat) | vxFlags (c : Nat) | qzFlags (c : Nat) | rdFlags (c : Nat) | sxFlags (c : Nat)
  | seqStatus (c : Nat)
  | resStatus (c : Nat)
  | memStatus (c : Nat)
  | clusterWord (c : Nat) (offset : Nat)
  | stackStatus (stack : Nat)
  | storeWord (stack : Nat) (offset : Nat)
  | ueFlags (stack : Nat)
  | ueStatus (stack : Nat)
  | portReg (port : Nat) (offset : Nat)
  | hqSqBaseLo (q : Nat) | hqSqBaseHi (q : Nat) | hqCqBaseLo (q : Nat) | hqCqBaseHi (q : Nat)
  | hqStatus (q : Nat)
  deriving DecidableEq, Repr

/-- A register of one circular region (R120). -/
inductive CircReg where
  | cfg | head | tail
  deriving DecidableEq, Repr

/-- A register of one resident range (R121). -/
inductive ResReg where
  | base | limit
  deriving DecidableEq, Repr

/-- The two flip registers (R134). -/
inductive FlipReg where
  | data | ctrl
  deriving DecidableEq, Repr

/-- One entry of a STAGE frame (R318). -/
structure StageEntry where
  isValue : Bool
  group : Nat
  axis : Nat
  coord : Nat
  phase : Nat
  value : Word
  deriving DecidableEq, Repr

/-- The payload of a TIME frame (R323), times in ns. -/
structure TimePl where
  tTx : Nat
  echoTx : Nat
  echoRx : Nat
  epoch : BitVec 32
  depth : Nat
  isRoot : Bool
  holdover : Bool
  rootTag : BitVec 128
  deriving DecidableEq, Repr

/-- The payload of a HELLO (R303); `valid` is the outcome of its signature and certificate-chain check. -/
structure Hello where
  identity : BitVec 384
  valid : Bool
  lifecycle : Nat
  torusId : BitVec 128
  x : Nat
  y : Nat
  z : Nat
  runId : BitVec 64
  epoch : BitVec 64
  /-- The sender's certificate chain and its ML-KEM-1024 encapsulation key. -/
  chain : List Byte
  kemKey : List Byte
  deriving DecidableEq, Repr

/-- What a frame carries after its header (R289). -/
inductive Payload where
  | empty
  | words (ws : List PWord)
  | stage (es : List StageEntry)
  | commit (committed applied : BitVec 64) (x y z : Nat)
  | time (t : TimePl)
  | hello (h : Hello)
  | finish (opens : Bool) (cipher : Option (List Byte))
  | resume (localEpoch partnerEpoch : BitVec 64) (ack : Nat)
  deriving DecidableEq, Repr

/-- A Clomond frame (Table 10.4). -/
structure Frame where
  ty : Nat
  last : Bool
  len : Nat
  seq : Nat
  ack : Nat
  creditReq : Nat
  flow : Nat
  tag : Nat
  prio : Nat
  status : Nat
  addr : BitVec 48
  unseq : Bool
  gen : Nat
  creditRsp : Nat
  payload : Payload
  deriving DecidableEq, Repr

/-- What the receive side of a port found in a frame: the lane of an uncorrectable codeword, if any, and whether the
GCM tag verifies (R292). -/
structure RxCheck where
  badLane : Option Nat
  tagOk : Bool
  deriving DecidableEq, Repr

/-- A submission queue entry (Table 11.3). -/
structure SqEntry where
  sealed : Bool
  irq : Bool
  last : Bool
  cid : Nat
  length : Nat
  hostAddr : BitVec 64
  target : BitVec 64
  sealSeq : Nat
  xferId : Nat
  deriving DecidableEq, Repr

/-- A server datagram (Table 11.6) as received: the peer whose session it names, and whether its tag verifies. -/
structure Dgram where
  peer : Nat
  tagOk : Bool
  part : Nat
  stack : Nat
  id : Nat
  offset : Nat
  last : Bool
  pktSeq : Nat
  keyGen : Nat
  ackId : Nat
  data : List Byte
  deriving DecidableEq, Repr

/-- Why a host link or reset event reached the host port (R334, R454). -/
inductive HostEvent where
  | linkDown | hotReset | flr
  deriving DecidableEq, Repr

/-- A lifecycle command (Table 13.5) with the outcomes of its two signature checks. -/
structure LcCmd where
  magicOk : Bool
  identity : BitVec 384
  nonce : BitVec 256
  arg : Nat
  operatorSigOk : Bool
  vendorSigOk : Bool
  deriving DecidableEq, Repr

/-- A key delivery (Table 13.7): the hash of TENANT_PK, the outcome of the signature check, and the RUN_KEY that
decapsulation and unwrapping give, if they open. -/
structure KeyDel where
  magicOk : Bool
  persist : Bool
  epoch : BitVec 32
  nonce : BitVec 256
  pkHash : BitVec 384
  sigOk : Bool
  unwrapped : Option (BitVec 256)
  deriving DecidableEq, Repr

/-- The header of a session message (Table 17.1) and whether its tag verifies (R464). -/
structure MHead where
  session : Nat
  pktSeq : Nat
  reqId : Nat
  tagOk : Bool
  deriving DecidableEq, Repr

/-- One partition's row of the update parameters of a stack (Table 8.3). F32 fields are their encodings. -/
structure Param where
  lrPeak : Word
  lrMin : Word
  warmup : Nat
  decay : Nat
  clipNorm : Word
  skipNorm : Word
  ueSeed : Word
  normScope : Nat
  normGroup : Nat
  commitGroup : Nat
  startStep : Nat
  startApplied : Nat
  lrTable : List Word
  deriving DecidableEq, Repr

/-- A plane word (R242): PAGE and OFF, OFF in 512 B units. -/
structure Plane where
  page : Nat
  off : Nat
  deriving DecidableEq, Repr

/-- A shard descriptor (Tables 8.4 and 8.5). F32 fields are their encodings. -/
structure Shard where
  rule : Nat
  firstMom : Bool
  cc0Fmt : Nat
  cc1Fmt : Nat
  ccSr : Bool
  ccMean : Bool
  momSr : Bool
  exportEn : Bool
  exportMom : Bool
  nEl : Nat
  nc : Nat
  wPlane : Plane
  mPlane : Plane
  sPlane : Plane
  cc0Plane : Plane
  cc1Plane : Plane
  gPlane : Plane
  mark : Nat
  markEn : Bool
  b1 : Word
  b2 : Word
  eps : Word
  lambda : Word
  gscale : Word
  lrMult : Word
  deriving DecidableEq, Repr

/-- An ACC entry (Table 8.2). -/
structure Acc where
  kind : Nat
  ctx : Nat
  port : Nat
  flow : Nat
  expect : Nat
  count : Nat
  deriving DecidableEq, Repr

/-- A page a binding describes (R199). -/
structure PageImg where
  stack : Nat
  page : Nat
  kind : Nat
  resident : Bool
  peerRead : Bool
  peerWrite : Bool
  deriving DecidableEq, Repr

/-- A circular region as a binding sets it (Table 4.7). -/
structure CircImg where
  base : BitVec 24
  sizeLog2 : Nat
  en : Bool
  head : BitVec 24
  tail : BitVec 24
  deriving DecidableEq, Repr

/-- What a binding gives one cluster: quire words and stream-context words by offset, circular regions, resident
ranges (BASE, LIMIT, EN), and initial cluster-memory words. -/
structure ClusterImg where
  cluster : Nat
  quire : SMap Word
  ctxWords : SMap Word
  circ : SMap CircImg
  res : SMap (Nat × Nat × Bool)
  words : SMap Word
  flip : Option (Word × Word)
  deriving DecidableEq, Repr

/-- What a binding gives one stack: the parameter block, the shards in use, the ACC table and the mark area. -/
structure StackImg where
  stack : Nat
  param : Param
  shards : List Shard
  acc : SMap Acc
  marks : List Nat
  deriving DecidableEq, Repr

/-- What a binding image spells. The manual gives no image format, so the reading of the image's bytes is an input of the
command that ends the image (DESIGN CHOICE, log entry 12). -/
structure Binding where
  part : Nat
  boxX : Nat
  boxY : Nat
  boxZ : Nat
  originX : Nat
  originY : Nat
  originZ : Nat
  clusters : List ClusterImg
  tables : SMap Word
  syncs : SMap Word
  groups : SMap Word
  pages : List PageImg
  stackTab : List StackImg
  flows : SMap Word
  hflows : SMap Word
  partPrio : Option Word
  wakeTol : Option Nat
  peers : SMap (BitVec 384)
  ports : List Nat
  retainedStack : Nat
  retainedPage : Nat
  retainedPages : Nat
  deriving DecidableEq, Repr

/-- Inputs of cold power-on that come from outside the model: whether the firmware image verifies and its security
version and measure (R368), the strapped SLOT (R506), and the elements the bring-up self-test finds bad (R451). -/
structure BootIn where
  fwOk : Bool
  imageSvn : Nat
  fwMeasure : BitVec 384
  slot : Nat
  deriving DecidableEq, Repr

/-- How physical training of a port ended (Table 10.7). -/
inductive TrainEnd where
  | trained (fibreNs : Nat) (badRx badTx : List Nat)
  | failed
  deriving DecidableEq, Repr

/-- Why a trip was raised (R409). -/
inductive TripCause where
  | tmax95 | tmax98 | stack105 | flow12
  deriving DecidableEq, Repr

/-- The wake events of R418. -/
inductive WakeCause where
  | start | bindLoad | trigger (c k : Nat) | landing | leaseWrite
  deriving DecidableEq, Repr

/-- A clock selector (R429). -/
inductive Selector where
  | fabric | management | update (stack : Nat) | store (stack : Nat) | opticalTx (engine : Nat) | host | server (k : Nat)
  | opticalRx (port : Nat)
  deriving DecidableEq, Repr

/-- A clock source a selector can name (Table 15.1 and the PLLs of Table 15.2). -/
inductive ClkSrc where
  | safe | crystal | oscillator | pll | hostRef | recovered
  deriving DecidableEq, Repr

/-- A PTP message as the root uses it (R436): an announce of the selected master, or a measured reference time. -/
inductive PtpMsg where
  | announce (utcOffset : Int)
  | sync (refNs : Nat)
  deriving DecidableEq, Repr

/-- ICMPv6 and neighbour-discovery messages a server port handles (R342, Table 11.5). -/
inductive IcmpMsg where
  | neighbourSolicitation | echoRequest | packetTooBig (mtu : Nat) | unreachable
  deriving DecidableEq, Repr

/-- The commands: one constructor per row of spec/opcode_table.json. `c` is a logical cluster, `p` a partition, `n` an
optical port, `q` a host queue, `k` a local context, `d` a mesh side (0 N, 1 E, 2 S, 3 W). -/
inductive Instr where
  -- matrix array
  | mma (c : Nat) (h : Hap)
  | mmz (c : Nat) (h : Hap)
  | mmaSp (c : Nat) (h : Hap)
  -- vector engine
  | add (c : Nat) (h : Hap)
  | sub (c : Nat) (h : Hap)
  | mul (c : Nat) (h : Hap)
  | fma (c : Nat) (h : Hap)
  | min (c : Nat) (h : Hap)
  | max (c : Nat) (h : Hap)
  | abs (c : Nat) (h : Hap)
  | neg (c : Nat) (h : Hap)
  | scale2 (c : Nat) (h : Hap)
  | cmp (c : Nat) (h : Hap)
  | sel (c : Nat) (h : Hap)
  | cvt (c : Nat) (h : Hap)
  | rowmax (c : Nat) (h : Hap)
  | rowsum (c : Nat) (h : Hap)
  | exp (c : Nat) (h : Hap)
  | log (c : Nat) (h : Hap)
  | recip (c : Nat) (h : Hap)
  | sqrt (c : Nat) (h : Hap)
  | rsqrt (c : Nat) (h : Hap)
  | tanh (c : Nat) (h : Hap)
  | div (c : Nat) (h : Hap)
  -- quantiser, walker, reduction, statistics
  | quant (c : Nat) (h : Hap)
  | dequant (c : Nat) (h : Hap)
  | walk (c : Nat) (h : Hap)
  | redAdd (c : Nat) (h : Hap)
  | redAcc (c : Nat) (h : Hap)
  | sumsq (c : Nat) (h : Hap)
  | amax (c : Nat) (h : Hap)
  | satcnt (c : Nat) (h : Hap)
  | hist (c : Nat) (h : Hap)
  -- stream and sequencer units
  | sstart (c : Nat)
  | swait (c : Nat)
  | nop (c : Nat)
  | loopSet (c : Nat)
  | stepMark (c : Nat)
  | endQuire (c : Nat)
  | arrive (c : Nat)
  -- verdicts, holds, start and stop
  | tileVerdict (c : Nat) (mismatch : Option Mis)
  | tileWriteback (c : Nat)
  | reductionVerdict (c : Nat) (mismatch : Option Nat)
  | engineLastResult (c : Nat) (unit : Nat)
  | holdDelivered (p : Nat)
  | replayVerdict (c : Nat) (mismatch : Option Mis)
  | holdReleaseDelivered (p : Nat)
  | partitionStartDelivered (p : Nat)
  | partitionStopDelivered (p : Nat)
  | partitionStopped (p : Nat)
  | localStop (c : Nat) (who : Writer)
  | unload (c : Nat) (who : Writer)
  -- registers
  | coreMapWrite (c k : Nat) (v : Word) (who : Writer)
  | loRegisterRead (r : LoReg) (hi : Bool)
  | rcCounterRead (r : RcReg) (sameCycleEvent : Bool)
  | registerWrite (r : GenReg) (v hwSet : Word) (who : Writer)
  | circRegisterWrite (c r : Nat) (which : CircReg) (v : Word) (who : Writer)
  | resRegisterWrite (c n : Nat) (which : ResReg) (v : Word) (who : Writer)
  | flipRegisterWrite (c : Nat) (which : FlipReg) (v : Word) (who : Writer)
  | zeroingComplete (c : Nat)
  | unscheduledAccess (c : Nat)
  | circWaitPass (c : Nat)
  -- mesh; an operand with a default, here and below, is what befalls the command: left out, nothing does
  | scheduledDeparture (c d : Nat) (upset : Word) (conflict : Option Nat := none)
  | scheduledLanding (c d : Nat) (err : SMap (BitVec 39)) (conflict : Option Nat := none)
  | scheduledFlitArrival (c d : Nat) (upset : Word)
  | elasticFlitSend (c d : Nat) (upset : Word) (err : SMap (BitVec 39) := [])
  | elasticCreditReturn (c d p : Nat)
  | elasticLanding (c d : Nat) (err : SMap (BitVec 39)) (upset : Word := 0)
  | linkLost (c d : Nat)
  | laneMapUpdate (slot d i lane : Nat)
  | remapSwitch (row : Nat) (spareA spareB : Nat) (aRetired bRetired : Bool)
  -- sync and spine
  | syncArrival (o : Nat) (who : Nat) (upset : Word := 0)
  | localReleaseDelivered (o : Nat)
  | spineGroupArrival (o : Nat)
  | spineReleaseDelivered (g : Nat)
  | torusReleaseAtRoot (g : Nat)
  | stretchChange
  | fabricControlWrite (addr : Nat) (v : Word) (who : Writer)
  -- store
  | storeRequestArrival (stack p : Nat)
  | storeRoundGrant (stack pch : Nat)
  | storeReadRetry (stack pch : Nat)
  | storeBurstComplete (stack pch : Nat)
  | partPrioWrite (p : Nat) (v : Word) (who : Writer)
  -- stream contexts
  | streamLoad (c k : Nat)
  | streamStore (c k : Nat)
  | streamReduce (c k : Nat)
  | streamSend (c k : Nat)
  | streamTimerExpiry (c k : Nat)
  | streamRequestIssue (c k : Nat)
  | streamResponse (c k : Nat)
  | streamDescriptorComplete (c k : Nat)
  | streamDrainComplete (c k : Nat)
  -- reduction buffers, optimiser, commit
  | reduceContribution (stack pch : Nat) (mismatches : Nat)
  | touchedClearDone (p : Nat)
  | normPartial (stack p : Nat) (mismatches : List Nat)
  | commitArrival (stack p : Nat) (mismatches : List Nat)
  | exportWaitEnd (stack p : Nat)
  | commit (p : Nat)
  | commitRecordWritten (p : Nat)
  | rollForward (p : Nat) (who : MCore)
  | rollBack (p : Nat) (who : MCore)
  | clearStartBlocked (p : Nat) (who : MCore)
  | idleIntervalEnd (p : Nat)
  -- optical ports
  | rdReq (n : Nat) (f : Frame) (rx : RxCheck)
  | rdData (n : Nat) (f : Frame) (rx : RxCheck)
  | wr (n : Nat) (f : Frame) (rx : RxCheck)
  | red (n : Nat) (f : Frame) (rx : RxCheck)
  | sendFrame (n : Nat) (f : Frame) (rx : RxCheck)
  | resp (n : Nat) (f : Frame) (rx : RxCheck)
  | stage (n : Nat) (f : Frame) (rx : RxCheck)
  | commitFrame (n : Nat) (f : Frame) (rx : RxCheck)
  | ack (n : Nat) (f : Frame) (rx : RxCheck)
  | nak (n : Nat) (f : Frame) (rx : RxCheck)
  | nakRepeat (n : Nat)
  | replayTimeout (n : Nat)
  | frameSend (n : Nat)
  | timeFrame (n : Nat) (f : Frame) (rx : RxCheck) (t4 : Nat)
  | timeSend (n : Nat)
  | sessionHello (n : Nat) (f : Frame)
  | sessionFinish (n : Nat) (f : Frame)
  | resume (n : Nat) (f : Frame) (rx : RxCheck)
  | lossOfLight (n : Nat)
  | losTimeout (n : Nat)
  | lightReturn (n : Nat)
  | portTrainingDone (n : Nat) (t : TrainEnd)
  | refusedRetry (n : Nat)
  | portRetrainRequest (n : Nat) (who : MCore)
  | portFlagClear (v hwSet : Word) (who : MCore)
  | stageEntrySend (p g : Nat)
  | timeParentTimeout
  | rootConflictEnd
  | noRootTimeout
  -- host port
  | sqTailWrite (q : Nat) (v : Word)
  | cqHeadWrite (q : Nat) (v : Word)
  | hqCfgWrite (q : Nat) (v : Word)
  | bindLoad (q : Nat) (e : SqEntry) (data : List Byte) (tags : List Bool) (image : Option Binding)
  | sqWrite (q : Nat) (e : SqEntry) (data : List Byte) (tags : List Bool)
  | sqRead (q : Nat) (e : SqEntry)
  | ingest (q : Nat) (e : SqEntry) (data : List Byte) (tags : List Bool)
  | psPush (q : Nat) (e : SqEntry)
  | psPull (q : Nat) (e : SqEntry)
  | entryComplete (q : Nat)
  | hostLinkDown
  | hostReset (ev : HostEvent)
  | perstDeassert
  -- server ports
  | expAck (d : Dgram)
  | psData (d : Dgram)
  | psAck (d : Dgram)
  | keepalive (d : Dgram)
  | serverDatagramSend (port slot : Nat)
  | exportRetransmit (stack p : Nat)
  | exportStallTimeout (p : Nat)
  | psPeerTimeout (q : Nat)
  | serverHandshake (p peer : Nat) (peerHash : BitVec 384) (sigOk : Bool)
  | serverLinkDown (port : Nat)
  -- faults, lifecycle, owners, keys
  | retirementRecordCommit
  | retirementClear (element : Nat) (who : MCore)
  | enterDebug (cmd : LcCmd) (who : MCore)
  | release (cmd : LcCmd) (who : MCore)
  | retire (cmd : LcCmd) (who : MCore)
  | setSvn (cmd : LcCmd) (who : MCore)
  | operatorPkWrite (pk : List Byte) (who : MCore)
  | ownerIdWrite (p : Nat) (owner : BitVec 384) (who : MCore)
  | ownerZeroingComplete (p : Nat)
  | attestationReport (nonce : BitVec 256) (scope : Nat)
  | keyDelivery (p : Nat) (d : KeyDel) (who : MCore)
  -- power and heat
  | powerFail
  | overvoltage
  | overvoltageRecovery
  | steeringPeriod (sensors : SMap (List Nat))
  | outOfRegulation (domain : Nat)
  | abnormalDrop (domain : Nat)
  | powerTick (vinMilli pfMilli tmaxMilli : Nat)
  | fastClamp (s0 s1 s2 : Nat)
  | thermalTrip (cause : TripCause)
  | overdriveSave
  | coolantSample (flowMilli inletMilli outletMilli : Nat)
  | powerGroupStage (g : Nat)
  | wakeEntry (p : Nat)
  | wakeEvent (p : Nat) (cause : WakeCause)
  | wakeComplete (p : Nat)
  | w4Entry
  | w4WakeComplete
  | wake (v : Bool) (who : MCore)
  -- clocks and time
  | crystalComparison (count : Nat)
  | crystalLost
  | phaseFault (c d : Nat) (separation : Nat)
  | sourceSwitch (sel : Selector) (src : ClkSrc)
  | readyLost (sel : Selector)
  | opPointWrite (v : Nat) (who : MCore)
  | verifyingGate (count : Nat)
  | relockTimeout
  | clkmonCtrlWrite (v : Word) (who : MCore)
  | ptpMessage (m : PtpMsg)
  | ptpLost
  | timeDiscontinuityClear (v : Bool) (who : MCore)
  -- records, lease, bring-up, re-bind
  | storedRecordWrite (ty inst : Nat) (payload : List Byte) (who : MCore)
  | recordCommit (fails : Bool := false)
  | leaseAcquire (core : MCore) (both : Bool)
  | leaseRenew (core : MCore)
  | leaseRelease (core : MCore)
  | leaseExpiry
  | leaseUncorrectable
  | coldPowerOn (b : BootIn)
  | moduleReady (selfTestFails : List Nat)
  | safeStateEntry (cause : Nat)
  | storeRecalibration (stack : Nat)
  | start (p : Nat) (who : MCore)
  | stop (p : Nat) (who : MCore)
  | rebind (p : Nat) (who : MCore)
  | warmRebind (p : Nat)
  | warmRebindStart (p : Nat)
  | stepTimeout (p : Nat)
  -- Maunvo
  | probe (reqId : Nat)
  | cHello (client : Nat) (frag count : Nat) (keyHash : BitVec 384) (nonce : BitVec 256)
  | cFinish (client : Nat) (session : Nat) (pkHash : BitVec 384) (sigOk : Bool)
  | close (h : MHead)
  | maunvoRead (h : MHead) (index sub offset : Nat) (arg : List Byte)
  | maunvoWrite (h : MHead) (index sub offset total : Nat) (data : List Byte)
  | abort (h : MHead) (target : Nat)
  | subscribe (h : MHead) (mask : Word)
  | eventAck (h : MHead) (seq : Nat)
  | ping (h : MHead)
  | handshakeTimeout (client : Nat)
  | idleTimeout (session : Nat)
  | eventResend (session : Nat)
  | segmentGapTimeout (session index sub : Nat)
  | pendingRepeat (session reqId : Nat)
  | i3cRead (index sub : Nat) (crcOk : Bool)
  | i3cWrite (index sub : Nat) (data : List Byte) (crcOk : Bool)
  | i3cReadSegment (index sub offset : Nat) (crcOk : Bool)
  -- dictionary
  | rwsWrite (index sub : Nat) (data : List Byte) (who : MCore)
  | counterRead (session index sub : Nat)
  | flagEntryRead (session index sub : Nat)
  | counterWrite (index sub : Nat) (v : BitVec 64) (sameCycle : Bool) (who : MCore)
  | snapshotRead
  | pmapWrite (image : List Byte) (who : MCore)
  | pmapApplyComplete
  | torusIdentityWrite (sub : Nat) (data : List Byte) (who : MCore)
  | serverAddressWrite (index sub : Nat) (data : List Byte) (who : MCore)
  | dbgRead
  | dbgWrite (data : List Byte) (who : MCore)
  | tmuxSelWrite (t : Nat) (v : Nat) (who : MCore)
  -- pins and test access
  | pinFunctionWrite (grp code : Nat) (who : MCore)
  | pinSwitchComplete (grp : Nat)
  | pinSwitchTimeout (grp : Nat)
  | uartInput (ch : Byte)
  | tapReset
  | extest (value : BitVec 125)
  | samplePreload (value : BitVec 125)
  | idcode
  | clamp
  | highz
  | extestPulse (value : BitVec 125)
  | extestTrain (value : BitVec 125)
  | dieLink (value : BitVec 96)
  | intScan
  | intScanEnd
  | bypass (code : BitVec 8)
  -- rows added at the table's end
  | provisioning (pkHash : BitVec 384)
  | laneLossOfLight (n : Nat) (send : Bool) (pos : Nat)
  | portRetrainTimeout (n : Nat)
  | i3cDynamicAddress (addr : Nat)
  | icmpv6Message (port : Nat) (m : IcmpMsg)
  | serverLinkUp (port : Nat)
  | hostLinkUp (rate width : Nat) (flit : Bool)
  deriving DecidableEq, Repr

end Sys2Proof
end

