-- ==== Sys2Proof/Machine/Mem.lean ====
section
/-! DEFINITION. The one representation of everything indexed by number (register files, memories, tables): a list of
(number, value) pairs in one canonical form, numbers strictly rising and no pair equal to what an unlisted number
reads as. The reading of an unlisted number is the argument `d`, the family's reset contents. -/

namespace Sys2Proof.Machine

open Sys2Proof

variable {α : Type}

/-- The value listed at `k`, if any. -/
def mapFind (m : SMap α) (k : Nat) : Option α :=
  match m with
  | [] => none
  | (j, v) :: r => if j = k then some v else mapFind r k

/-- The value at `k`: the listed one, or the reset contents. -/
def mapGet (d : Nat → α) (m : SMap α) (k : Nat) : α :=
  match mapFind m k with
  | some v => v
  | none => d k

/-- `m` without `k`. -/
def mapErase (m : SMap α) (k : Nat) : SMap α :=
  match m with
  | [] => []
  | (j, v) :: r => if j = k then mapErase r k else (j, v) :: mapErase r k

/-- `m` with `(k, v)` put before the first greater number. -/
def mapInsert (m : SMap α) (k : Nat) (v : α) : SMap α :=
  match m with
  | [] => [(k, v)]
  | (j, w) :: r => if j < k then (j, w) :: mapInsert r k v else (k, v) :: (j, w) :: r

/-- Write `v` at `k`; a value equal to the reset contents is not listed. -/
def mapSet [DecidableEq α] (d : Nat → α) (m : SMap α) (k : Nat) (v : α) : SMap α :=
  if v = d k then mapErase m k else mapInsert (mapErase m k) k v

/-- Every listed number is above `k`. -/
def mapAbove (k : Nat) (m : SMap α) : Bool :=
  match m with
  | [] => true
  | (j, _) :: r => decide (k < j) && mapAbove k r

/-- The canonical form. -/
def mapWf [DecidableEq α] (d : Nat → α) (m : SMap α) : Bool :=
  match m with
  | [] => true
  | (j, v) :: r => decide (v ≠ d j) && mapAbove j r && mapWf d r

/-- Read-modify-write of one entry. -/
def mapMod [DecidableEq α] (d : Nat → α) (m : SMap α) (k : Nat) (f : α → α) : SMap α :=
  mapSet d m k (f (mapGet d m k))

/-- The listed numbers. -/
def mapKeys (m : SMap α) : List Nat := m.map Prod.fst

/-- The map with every number of `ks` back at the reset contents. -/
def mapClear (m : SMap α) (p : Nat → Bool) : SMap α := m.filter (fun kv => !p kv.1)

/-- What an unlisted byte of a memory reads as: zero, as the zeroing of cold power-on leaves it (R131, R363).
(DESIGN CHOICE, log entry 61.) -/
def zeroByte (_ : Nat) : Byte := 0

/-- Byte memory: its canonical form lists only the bytes that are not zero. -/
abbrev Memory := SMap Byte

/-- One byte. -/
def Memory.read (m : Memory) (a : Nat) : Byte := mapGet zeroByte m a

/-- Write one byte. -/
def Memory.write (m : Memory) (a : Nat) (b : Byte) : Memory := mapSet zeroByte m a b

/-- The canonical form of a memory. -/
def Memory.wf (m : Memory) : Bool := mapWf zeroByte m

/-- Write the bytes of `bs` from `a` up. -/
def Memory.writeList (m : Memory) (a : Nat) (bs : List Byte) : Memory :=
  match bs with
  | [] => m
  | b :: r => (m.write a b).writeList (a + 1) r

/-- The `n` bytes from `a` up. -/
def Memory.readList (m : Memory) (a : Nat) (n : Nat) : List Byte :=
  (List.range n).map (fun i => m.read (a + i))

/-- Four bytes as a word, lowest address first (R9). -/
def wordOfBytes (b0 b1 b2 b3 : Byte) : Word := b3 ++ b2 ++ b1 ++ b0

/-- Byte `i` of a word, byte 0 the least significant (R9). -/
def byteOf (w : Word) (i : Nat) : Byte := (w >>> (8 * i)).setWidth 8

/-- Little-endian value of a byte list (R9). -/
def leNat (bs : List Byte) : Nat :=
  match bs with
  | [] => 0
  | b :: r => b.toNat + 256 * leNat r

/-- The `n` little-endian bytes of a number (R9). -/
def leBytes (n v : Nat) : List Byte :=
  match n with
  | 0 => []
  | k + 1 => BitVec.ofNat 8 v :: leBytes k (v / 256)

/-- Saturating increment of an event counter of `w` bits (R105). -/
def satInc (w n : Nat) : Nat := if n + 1 < 2 ^ w then n + 1 else 2 ^ w - 1

/-- Bit `i` of a number. -/
def bitN (v i : Nat) : Bool := v.testBit i

/-- Bits `hi:lo` of a number. -/
def bitsN (v hi lo : Nat) : Nat := v / 2 ^ lo % 2 ^ (hi + 1 - lo)

/-- 1 or 0. -/
def b2n (b : Bool) : Nat := if b then 1 else 0

/-- Update of the element at a position of a list. -/
def listMod (l : List α) (i : Nat) (f : α → α) : List α :=
  match l, i with
  | [], _ => []
  | a :: r, 0 => f a :: r
  | a :: r, i + 1 => a :: listMod r i f

end Sys2Proof.Machine
end

