-- ==== Sys2Proof/Machine/Code.lean ====
section
/-! DEFINITION. The error codes: the extended Hamming codes of cluster memory (R126, R127), of the byte-written memories
(R132) and of the store (R205, R208), the even parity of table words, and the two cyclic checks (R264, R484). -/

namespace Sys2Proof.Machine

open Sys2Proof

/-- An extended Hamming code: number of data bits, number of Hamming check bits (the overall parity bit comes on top),
and the last code position. -/
structure HamCode where
  dataBits : Nat
  checkBits : Nat
  maxPos : Nat
  deriving DecidableEq, Repr

/-- 32 data bits, positions 1 to 38 (R126). -/
def code39 : HamCode := ⟨32, 6, 38⟩
/-- 8 data bits, positions 1 to 12 (R132). -/
def code13 : HamCode := ⟨8, 4, 12⟩
/-- 64 data bits, positions 1 to 71 (R205). -/
def code72 : HamCode := ⟨64, 7, 71⟩

/-- Is a position a power of two, and so a check bit's? -/
def isPow2 (n : Nat) : Bool := n == 1 || n == 2 || n == 4 || n == 8 || n == 16 || n == 32 || n == 64

/-- XOR of the positions of the set data bits, data bits filling the positions that are no check bit's in increasing
order, from position `pos` on; `fuel` positions are looked at. -/
def dataSyn (fuel pos v : Nat) : Nat :=
  match fuel with
  | 0 => 0
  | k + 1 =>
    if isPow2 pos then dataSyn k (pos + 1) v
    else (if v % 2 = 1 then pos else 0) ^^^ dataSyn k (pos + 1) (v / 2)

/-- Parity of the ones of a number of at most `fuel` bits. -/
def parityN (fuel v : Nat) : Nat :=
  match fuel with
  | 0 => 0
  | k + 1 => (v % 2 + parityN k (v / 2)) % 2

/-- Check field of data: Hamming check bit k is bit k of the XOR of the data positions; above them the overall parity
(R126). -/
def HamCode.check (c : HamCode) (v : Nat) : Nat :=
  let h := dataSyn c.maxPos 1 v
  h + 2 ^ c.checkBits * ((parityN c.dataBits v + parityN c.checkBits h) % 2)

/-- What a read finds (R127): syndrome, parity, and the outcome. -/
inductive CodeOutcome where
  | clean | corrected | uncorrectable | poison
  deriving DecidableEq, Repr

structure Decoded where
  data : Nat
  syndrome : Nat
  parity : Nat
  outcome : CodeOutcome
  deriving DecidableEq, Repr

/-- Number of the data bit at a position, if it is one. -/
def dataBitAt (fuel pos n target : Nat) : Option Nat :=
  match fuel with
  | 0 => none
  | k + 1 =>
    if isPow2 pos then dataBitAt k (pos + 1) n target
    else if pos = target then some n
    else dataBitAt k (pos + 1) (n + 1) target

/-- Decode stored data and check bits (R127). `poisonSyn`, `poisonPar` are the syndrome and parity of the poison encoding
(R129, R208). -/
def HamCode.decode (c : HamCode) (poison : Option (Nat × Nat)) (data check : Nat) : Decoded :=
  let h := check % 2 ^ c.checkBits
  let s := dataSyn c.maxPos 1 data ^^^ h
  let p := (parityN c.dataBits data + parityN (c.checkBits + 1) check) % 2
  if poison = some (s, p) then ⟨0, s, p, .poison⟩
  else if s = 0 ∧ p = 0 then ⟨data, s, p, .clean⟩
  else if p = 1 ∧ s ≤ c.maxPos then
    match dataBitAt c.maxPos 1 0 s with
    | some b => ⟨data ^^^ 2 ^ b, s, p, .corrected⟩
    | none => ⟨data, s, p, .corrected⟩
  else ⟨0, s, p, .uncorrectable⟩

/-- Poison of cluster memory: the check bits of data 0 with the six Hamming bits inverted, read back as s = 63, p = 0
(R129). -/
def poisonCheck39 : Nat := 0x3F
def poison39 : Option (Nat × Nat) := some (63, 0)

/-- Poison of the store: the seven Hamming bits inverted, s = 127, p = 1 (R208). -/
def poisonCheck72 : Nat := 0x7F
def poison72 : Option (Nat × Nat) := some (127, 1)

/-- Even parity in bit 31 over the other bits (R140, R170, Table 7.4). -/
def withParity (v : Nat) : Nat := v % 2 ^ 31 + 2 ^ 31 * parityN 31 v

/-- Does a 32-bit word have even parity? -/
def evenParity (v : Nat) : Bool := parityN 32 v == 0

/-- One bit of a reflected CRC register. -/
def crcBit (poly r : Nat) : Nat := if r % 2 = 1 then (r / 2) ^^^ poly else r / 2

def crcBits (n poly r : Nat) : Nat :=
  match n with
  | 0 => r
  | k + 1 => crcBits k poly (crcBit poly r)

def crcBytes (poly r : Nat) (bs : List Byte) : Nat :=
  match bs with
  | [] => r
  | b :: t => crcBytes poly (crcBits 8 poly (r ^^^ b.toNat)) t

/-- CRC-32C (R264): Castagnoli polynomial, reflected, initial value and final XOR all ones. -/
def crc32c (bs : List Byte) : Nat := crcBytes 0x82F63B78 0xFFFFFFFF bs ^^^ 0xFFFFFFFF

/-- One bit of the unreflected CRC-8 register. -/
def crc8Bit (r : Nat) : Nat := if r ≥ 128 then ((r * 2) ^^^ 0x07) % 256 else r * 2

def crc8Bits (n r : Nat) : Nat :=
  match n with
  | 0 => r
  | k + 1 => crc8Bits k (crc8Bit r)

def crc8 (r : Nat) (bs : List Byte) : Nat :=
  match bs with
  | [] => r
  | b :: t => crc8 (crc8Bits 8 (r ^^^ b.toNat)) t

end Sys2Proof.Machine
end

