-- ==== Sys2Proof/Machine/StateCluster.lean ====
section
/-! DEFINITION. The state of one cluster (chapters 3, 4 and 5): sequencer, engines, cluster memory's registers; and the
state of one partition as the clusters see it. Bank words live in State.cmem, one sparse memory for all clusters. -/

namespace Sys2Proof.Machine

open Sys2Proof

/-- Sequencer states, SEQ_STATUS.STATE (Table 3.11), code 0 to 7 in this order. -/
inductive SeqState where
  | idle | ready | run | wait | hold | done | fault | stopped
  deriving DecidableEq, Repr

def SeqState.code : SeqState → Nat
  | .idle => 0 | .ready => 1 | .run => 2 | .wait => 3 | .hold => 4 | .done => 5 | .fault => 6 | .stopped => 7

/-- What ended a wait (Table 9.5). -/
inductive WaitCause where
  | weights | peer | barrier | reduction | slack | recovery
  deriving DecidableEq, Repr

/-- Loop counter k (R87, R89): COUNT, ITER, the five strides, and whether a LOOP_SET has set it since the quire
started. -/
structure Loop where
  count : Nat
  iter : Nat
  strides : List (BitVec 24)
  set : Bool
  deriving DecidableEq, Repr

def Loop.reset : Loop := ⟨0, 0, [], false⟩

/-- The stage of an engine operation. A matrix tile is `computing` until its verdict, `pending` until its write-back, and
`failed` while a mismatched result waits for its replay (R96). Other engines only have `computing`. -/
inductive OpStage where
  | computing | pending | failed
  deriving DecidableEq, Repr

/-- Where a result goes: consecutive words from an address, or lines at the head of a circular region (R115). -/
inductive Dest where
  | addr (a : Nat)
  | circ (r : Nat)
  deriving DecidableEq, Repr

/-- What one read cycle of an operand slot reads: words of the banks; or `n` lines at the tail of region `r`, of whose words
those at the places `sel` are delivered (R109, R115, R146). -/
inductive Src where
  | words (ws : List Nat)
  | lines (r n : Nat) (sel : List Nat)
  deriving DecidableEq, Repr

/-- The reads an operation issues for one slot in one cycle, a PART_CYCLE value (R78, R79). -/
structure ReadBeat where
  cyc : Nat
  slot : Nat
  src : Src
  deriving DecidableEq, Repr

/-- The writes an operation issues for one destination slot in one cycle (R74, R78): result words `off` to `off + n - 1` of
the slot. `group` is the reduction group they belong to (R96). -/
structure WriteBeat where
  cyc : Nat
  slot : Nat
  dst : Dest
  off : Nat
  n : Nat
  group : Nat
  deriving DecidableEq, Repr

/-- The most recent WALK, with the cycle in which it presents its last index word (R143, R148). -/
structure WalkRef where
  addr : Nat
  maskA : Nat
  maskB : Nat
  count : Nat
  last : Nat
  deriving DecidableEq, Repr

/-- What a sparse tile remembers of its index (R143 to R149): the walk it consumes, the kept chunks, a parity error in an
index word, a poisoned index word or header, an issue before the cycle R143 allows, and the index and mask words with what
they held at issue. -/
structure Sparse where
  walk : WalkRef
  kept : List Nat
  parity : Bool
  poison : Bool
  early : Bool
  stable : List (Nat × PWord)
  deriving DecidableEq, Repr

/-- One issued engine operation. Cycles are PART_CYCLE values. -/
structure EngOp where
  unit : Nat
  opcode : Nat
  desc : Nat
  /-- The eight words of the descriptor. -/
  ws : List Nat
  /-- F of R78. -/
  f : Nat
  /-- The matrix array's compute time T; 0 for other engines. -/
  t : Nat
  /-- Cycle in which the last input word is delivered (R79). -/
  inLast : Nat
  /-- Cycle in which the write of the last result word is issued (R78, R91). -/
  last : Nat
  stage : OpStage
  /-- Mismatches of this tile so far (R100). -/
  mismatches : Nat
  /-- Reads still to be issued, and what the reads so far delivered, by slot, in order. -/
  reads : List ReadBeat
  ins : SMap (List PWord)
  /-- Writes still to be issued. -/
  writes : List WriteBeat
  /-- Once every input is in: the result words by slot, and the flags of the operation. -/
  outs : Option (SMap (List PWord) × BitVec 4)
  /-- Generator state with which a QUANT starts, and those of the four local contexts when a tile starts (R57, R58). -/
  seed : Word
  gens : List Word
  /-- TAIL of the regions a tile read operands from, by slot: its replay reads them again (R98). -/
  tails : SMap Nat
  /-- ARRIVE_AT 1 arrival, by local object (R91). -/
  arrive : Option Nat
  /-- Reduction groups of 64 elements in the operation, those whose verdict has been formed, and the mismatched ones that wait
  for their replay, each with its mismatches so far (R96, R100). -/
  groups : Nat
  judged : Nat
  failed : List (Nat × Nat)
  sparse : Option Sparse
  /-- What befalls its accesses or its arithmetic, and whether an arithmetic error has been reported. -/
  hap : Hap
  reported : Bool
  deriving DecidableEq, Repr

/-- A circular region's registers (R116, R117); and, for the fabric cycle numbered one less than `stamp`, the occupancy at the
end of the cycle before it and the lines tested and moved in it so far: scheduled lines written, lines written in all,
scheduled lines read, lines read in all (R118). -/
structure Circ where
  base : BitVec 24
  sizeLog2 : Nat
  en : Bool
  head : BitVec 24
  tail : BitVec 24
  stamp : Nat
  before : Nat
  wrTested : Nat
  wrMoved : Nat
  rdTested : Nat
  rdMoved : Nat
  deriving DecidableEq, Repr

def Circ.reset : Circ := ⟨0, 2, false, 0, 0, 0, 0, 0, 0, 0, 0⟩

/-- A resident range RESn (R121). -/
structure Res where
  base : Nat
  limit : Nat
  en : Bool
  deriving DecidableEq, Repr

def Res.reset : Res := ⟨0, 0, false⟩

/-- Who is staging an unscheduled access (R113): a stream context, or a port-fed landing (optical port flow or host
flow). -/
inductive StageSrc where
  | ctx (k : Nat)
  | landing
  deriving DecidableEq, Repr

/-- The frame or host entry a landing belongs to: optical port or host port, its number (port or queue), flow and tag
(R302, R340). -/
structure Land where
  host : Bool
  n : Nat
  flow : Nat
  tag : Nat
  deriving DecidableEq, Repr

/-- An unscheduled write held in its port's staging queue (R113): who made it, where the words go, the words not yet
written, the request of a context it answers, and the flow a landing belongs to. -/
structure Staged where
  src : StageSrc
  dest : Dest
  words : List PWord
  idx : Nat
  land : Option Land
  deriving DecidableEq, Repr

/-- MEM_FLIP_CTRL (R133): CHECK, ARM, WORD, BANK, BANK_EN; and the cycle in which ARM was written. -/
structure Flip where
  data : Word
  check : BitVec 7
  arm : Bool
  word : Nat
  bank : Nat
  bankEn : Bool
  armedAt : Nat
  deriving DecidableEq, Repr

def Flip.reset : Flip := ⟨0, 0, false, 0, 0, false, 0⟩

/-- MEM_STATUS W1C bits and the event registers (R130, R135). -/
structure MemRegs where
  conflict : Bool
  ceSeen : Bool
  ueSeen : Bool
  poisonSeen : Bool
  circFault : Bool
  cfgRefused : Bool
  ceEvents : Nat
  ueEvents : Nat
  lastErr : Word
  deriving DecidableEq, Repr

def MemRegs.reset : MemRegs := ⟨false, false, false, false, false, false, 0, 0, 0⟩

/-- RES_STATUS and RES_EVENTS. -/
structure ResRegs where
  mxMismatch : Bool
  rdMismatch : Bool
  otherMismatch : Bool
  lastRow : Nat
  lastSlot : Nat
  lastLane : Nat
  events : Nat
  deriving DecidableEq, Repr

def ResRegs.reset : ResRegs := ⟨false, false, false, 0, 0, 0, 0⟩

/-- The five flag registers (R60). -/
structure EngFlags where
  mx : BitVec 4
  vx : BitVec 4
  qz : BitVec 4
  rd : BitVec 4
  sx : BitVec 4
  deriving DecidableEq, Repr

def EngFlags.reset : EngFlags := ⟨0, 0, 0, 0, 0⟩

/-- The sequencer's own state. -/
structure Seq where
  state : SeqState
  /-- The state a hold returns to (R97). -/
  held : SeqState
  pc : Nat
  cause : Nat
  causeDesc : Nat
  loops : SMap Loop
  /-- P of R88, a PART_CYCLE value. -/
  lastIssue : Nat
  /-- Cycle of the release or completion that ended the wait of the next descriptor (V of R90, C of R92), a PART_CYCLE
  value. -/
  wakeAt : Option Nat
  mapRefused : Bool
  /-- Step number STEP_MARK loaded (Table 3.10). -/
  stepN : Nat
  /-- END has issued and waits for the last results. -/
  ending : Bool
  /-- Raised a hold (HOLD_REQ). -/
  holdReq : Bool
  /-- Count of fabric cycles at the freeze, or at the verdict that sent the replay round again (R98, R100). -/
  replayFrom : Nat
  /-- Generators of the four local contexts as the freeze found them, while a replay works with those its tile started
  with (R58, R99). -/
  frozenGens : List Word
  deriving DecidableEq, Repr

/-- A sequencer in IDLE (Table 3.11), with nothing held before (DESIGN CHOICE, log entry 76). -/
def Seq.reset : Seq := ⟨.idle, .run, 0, 0, 0, [], 0, none, false, 0, false, false, 0, []⟩

/-- One cluster. -/
structure Cluster where
  seq : Seq
  flags : EngFlags
  res : ResRegs
  /-- GUARD_SLOT of core rows 0 to 3, listed where not 8 (R69). -/
  guard : SMap Nat
  ops : List EngOp
  walk : Option WalkRef
  /-- Zeroing in progress (R123). -/
  zeroBusy : Bool
  /-- Cycle at which the zeroing in progress ends. -/
  zeroUntil : Nat
  mem : MemRegs
  flip : Flip
  circ : SMap Circ
  resid : SMap Res
  staged : List Staged
  /-- The banks that accesses took in one fabric cycle, the latest in which one did (R113): the cycle, and the banks. -/
  busyAt : Nat
  busyBanks : List Nat
  /-- PART_CYCLE_HI as latched by the last read of PART_CYCLE_LO (R104). -/
  partCycleHi : Nat
  deriving DecidableEq, Repr

def Cluster.reset : Cluster :=
  ⟨Seq.reset, EngFlags.reset, ResRegs.reset, [], [], none, false, 0, MemRegs.reset, Flip.reset, [], [], [], 0, [], 0⟩

/-- One partition as the clusters and the spine see it (R94, R97, R529). Raise cycles are counts of fabric cycles. -/
structure Part where
  /-- The step at which START placed the partition (R458). -/
  startStep : Nat
  /-- PART_CYCLE advances: START delivered and no stop delivered since. -/
  running : Bool
  partCycle : Nat
  startRaised : Option Nat
  stopRaised : Option Nat
  /-- Stop delivered at this cycle; the partition counts as stopped once its flits have landed (R94). -/
  stopping : Option Nat
  holdRaised : Option Nat
  holdActive : Bool
  releaseRaised : Option Nat
  /-- The cause the stop that has been raised was raised for: STOP_CAUSE of Table 16.6. -/
  stopCause : Nat
  /-- The model's own count of STARTs since binding load: a START seeds every generator of the partition (R56). -/
  seedEpoch : Nat
  deriving DecidableEq, Repr

def Part.reset : Part := ⟨0, false, 0, none, none, none, none, false, none, 0, 0⟩

end Sys2Proof.Machine
end

