-- ==== Sys2Proof/Machine/StateFabric.lean ====
section
/-! DEFINITION. The state of the wafer fabric (chapter 6): sync objects, spine groups, slot tables, guard map, flits in
flight and elastic queues. -/

namespace Sys2Proof.Machine

open Sys2Proof

/-- SYNC_CFG and SYNC_STATE of one object (R182), and the PART_CYCLE values at which local releases fall due
with the cause their phase is credited to (R280). SEQ_ARR and
PHASE count modulo 256. -/
structure SyncObj where
  en : Bool
  scope : Bool
  group : Nat
  expect : Nat
  seqArr : Nat
  phase : Nat
  pending : Nat
  spineWait : Bool
  /-- A phase has completed in this PART_CYCLE and its group arrival is to be sent (R182). -/
  owed : Option Nat
  due : List (Nat × WaitCause)
  deriving DecidableEq, Repr

def SyncObj.reset : SyncObj := ⟨false, false, 0, 1, 0, 0, 0, false, none, []⟩

/-- GROUPg_CFG and GROUPg_STATUS (R183), with what the phase in progress has gathered: the cycle of the last arrival, the
FP32 payloads that arrived by member port (R247), and the torus-wide release when it has reached the root (R184). -/
structure Group where
  members : Nat
  align : Nat
  torus : Bool
  reduce : Bool
  arrived : Nat
  phase : Nat
  lastArr : Nat
  payloads : SMap Word
  /-- Module arrival handed to the torus for this phase (R315). -/
  sent : Bool
  /-- Cycle in which the torus-wide release reached the spine root, and its payload. -/
  torusAt : Option (Nat × Word)
  deriving DecidableEq, Repr

def Group.reset : Group := ⟨0, 0, false, false, 0, 0, 0, [], false, none⟩

/-- What an elastic flit is for (R154, R166, R218): data to land where the landing entry says; data of request `idx` of context
number `ctx` (4 c + k) on its way to a port, the last flit carrying the frame, or to a store, or its read data on their way back; host data of
queue q for flow f, which lands in region `circ` of cluster `at_` (R341). -/
inductive Cargo where
  | plain
  | toPort (n ctx idx : Nat) (frame : Option Frame)
  | toStore (ctx idx : Nat) (last : Bool)
  | toCtx (ctx idx : Nat) (last : Bool)
  | toFlow (at_ q f circ : Nat)
  deriving DecidableEq, Repr

/-- A flit (R153, R180): 16 lines of words with poison tags, the line-valid mask, its partition, and where and when it
meets its next input register. For a scheduled flit `pcyc` is the compiled cycle (a PART_CYCLE value) whose slot entries it
meets there, `fcyc` the fabric cycle in which it does (R98), `slot` the PART_CYCLE in which it enters its first output
register, and `parked` says that a hold found it before that cycle (R97). For an elastic flit `fcyc` is the first fabric cycle in which
an entry may take it from its queue. -/
structure Flit where
  part : Nat
  c : Nat
  d : Nat
  pcyc : Nat
  fcyc : Nat
  slot : Nat
  parked : Bool
  mask : BitVec 16
  words : List PWord
  cargo : Cargo
  deriving DecidableEq, Repr

/-- A scheduled landing whose write is issued in fabric cycle `fcyc` and takes effect at its bank 2 or 4 cycles later
(R176, R177). -/
structure Landing where
  part : Nat
  c : Nat
  d : Nat
  circ : Nat
  fcyc : Nat
  words : List PWord
  deriving DecidableEq, Repr

/-- ROW_GUARDr (R155). -/
structure RowGuard where
  spareA : Nat
  spareB : Nat
  aRetired : Bool
  bRetired : Bool
  deriving DecidableEq, Repr

def RowGuard.reset : RowGuard := ⟨22, 44, false, false⟩

/-- A lane map entry (R181): the retired lane, and whether it has taken effect at FRAME_SLOT 0 yet. -/
structure LaneEntry where
  lane : Nat
  en : Bool
  deriving DecidableEq, Repr

/-- The fabric. -/
structure Fabric where
  /-- Slot-table entries without their parity bit by (cluster * 5 + table) * 256 + slot; tables N, E, S, W, LAND
  (R170). -/
  tables : SMap Word
  flits : List Flit
  landings : List Landing
  /-- Elastic queues by (cluster * 4 + input) * 8 + partition (R174). -/
  queues : SMap (List Flit)
  /-- Flits of a context's requests waiting to leave its cluster, and of read data a port has received for local context
  k of another cluster waiting to leave the port's attach cluster, by cluster * 4 + k (R154, R170, R218). -/
  departs : SMap (List Flit)
  /-- Flits of read data that the edge switches hold for an edge link, by the queue they enter (R174, R218). -/
  edges : SMap (List Flit)
  /-- Fabric cycle after the last slot an output or a landing table acted in, by (cluster * 5 + table): one flit per cycle
  (R153). -/
  lastSlot : SMap Nat
  /-- Free places a sender knows of in the queue it feeds, by the queue's number; 2 at reset (R174). -/
  credits : SMap Nat
  /-- Credits on their way back: queue number and fabric cycle of arrival at the sender. -/
  creditsDue : List (Nat × Nat)
  guards : SMap RowGuard
  /-- Lost output directions by physical slot * 4 + d, with the number, less 1, of the physical slot whose wires they were
  (R168, R181); a lost edge link into slot x stands at (4224 + x) * 4 + d. -/
  lost : SMap Nat
  /-- LINK_EVENTSd by physical slot * 4 + d. -/
  linkEvents : SMap Nat
  /-- LANE_MAPd_i by (physical slot * 4 + d) * 16 + i. -/
  lanes : SMap LaneEntry
  stretch : Nat
  /-- STRETCH waiting for FRAME_SLOT 0 (R179). -/
  stretchNext : Nat
  /-- Fabric cycle in which the latest remap window ends (R161). -/
  remapUntil : Nat
  deriving DecidableEq, Repr

def Fabric.reset : Fabric := ⟨[], [], [], [], [], [], [], [], [], [], [], [], [], 0, 0, 0⟩

end Sys2Proof.Machine
end

