-- ==== Sys2Proof/Machine/StateStore.lean ====
section
/-! DEFINITION. The state of the parameter store, the stream contexts, the update engines and the idle accounting
(chapters 7, 8 and 9). Store bytes live in State.smem, one sparse memory for all stacks. -/

namespace Sys2Proof.Machine

open Sys2Proof

/-- A stack's registers (R208): status, event counters, last error. SPARES_USED is counted from the remapped pages. -/
structure Stack where
  trained : Bool
  retired : Bool
  ceSeen : Bool
  ueSeen : Bool
  poisonSeen : Bool
  refused : Bool
  ceEvents : Nat
  ueEvents : Nat
  lastErr : Word
  /-- UE_FLAGS, UE_STATUS bits 1 to 4 and UE_EVENTS of the stack's update engine (R267). -/
  ueFlags : BitVec 4
  residueSeen : Bool
  uePoisonSeen : Bool
  untouchedSeen : Bool
  excessSeen : Bool
  ueEvents2 : Nat
  /-- Spare pages that were in use and have been retired themselves (R204). -/
  badSpares : List Nat
  /-- LOCAL_NS at which the latest zeroing of its pages ends (R201, R202, R208). -/
  zeroUntil : Nat
  deriving DecidableEq, Repr

def Stack.reset : Stack :=
  ⟨false, false, false, false, false, false, 0, 0, 0, 0, false, false, false, false, 0, [], 0⟩

/-- PAGE[n] (Table 7.4) without OWNER, which the partition map in force gives, and without the parity bit, which is
computed. -/
structure Page where
  kind : Nat
  resident : Bool
  peerRead : Bool
  peerWrite : Bool
  remapped : Bool
  spareIdx : Nat
  deriving DecidableEq, Repr

def Page.reset : Page := ⟨0, false, false, false, false, 0⟩

/-- PART_PRIOp (R213). -/
structure Prio where
  update : Nat
  exp : Nat
  host : Nat
  mgmt : Nat
  ageLimit : Nat
  deriving DecidableEq, Repr

def Prio.reset : Prio := ⟨6, 5, 2, 1, 32⟩

/-- Requester of a store request (R211): class order update engine, export, stream context, host DMA, management, each
with its number; a peer's stream context comes through a port with the frame's tag and flow; a host-DMA request belongs to
queue q, has requester number n (q, or 16 and 17 for the server ports; R347) and its place idx in the entry. -/
inductive Requester where
  | updateEngine (n : Nat)
  | exporter (port : Nat)
  | context (c k : Nat) (idx : Nat)
  | peer (port tag flow : Nat)
  | hostDma (n q idx : Nat)
  | management
  deriving DecidableEq, Repr

inductive StoreOp where
  | read | write | reduce
  deriving DecidableEq, Repr

/-- Where a store request is (R209, R212): in the partition's queue in the edge switch; arrived at the stack and waiting
for a round; a read whose first attempt was uncorrectable and waits for its retry (R207); granted, its burst in
progress. -/
inductive ReqStatus where
  | queued | arrived | retry | granted
  deriving DecidableEq, Repr

/-- One store request, at most one 512 B unit of one pseudo-channel. -/
structure StoreReq where
  stack : Nat
  pch : Nat
  part : Nat
  who : Requester
  op : StoreOp
  addr : Nat
  len : Nat
  data : List PWord
  status : ReqStatus
  age : Nat
  /-- PRIO of a peer's header (R301). -/
  prio : Nat
  /-- Refused under R200: the response says so and no data moved. -/
  refused : Bool
  /-- The page VIEW named at the round in which it was granted (R198). -/
  page : Option Nat
  /-- Edge link, 64 * edge + number, by which a local context's request entered the deckle ring, and the edge switch, 0 north to
  3 west, at which it waits (R194, R218). -/
  link : Nat
  at_ : Nat
  deriving DecidableEq, Repr

/-- The store. -/
structure Store where
  stackTab : SMap Stack
  /-- By stack * 24576 + page. -/
  pages : SMap Page
  /-- PART_PRIOp of each stack by stack * 8 + p; and those written that have not reached their stack (R215). -/
  prios : SMap Prio
  prioNext : SMap Prio
  reqs : List StoreReq
  /-- Rounds elapsed by stack * 64 + pch (R210). -/
  rounds : SMap Nat
  /-- Transfer slots elapsed on the corner bridges, by 2 * edge switch + direction: 0 clockwise to the next edge, 1 the other
  way (R194). -/
  bridges : SMap Nat
  deriving DecidableEq, Repr

def Store.reset : Store := ⟨[], [], [], [], [], [], []⟩

/-- A request of a stream context issued and not yet written at its destination, in issue order (R222, R223). `data` is what
it carries to its store or port; `got` what has come out of the mesh so far: there for a request that carries data, in the reorder
buffer for a LOAD, whose data is whole once `answered`. -/
structure CtxReq where
  idx : Nat
  ord : Nat
  /-- OP of its descriptor. -/
  op : Nat
  storeAddr : Nat
  dest : Dest
  len : Nat
  answered : Bool
  /-- Its read data has been handed to the staging queue. -/
  staged : Bool
  /-- Halt cause the response carries: 0 none, 3 PAGE_DENIED, 6 PORT_DOWN, 7 REMOTE_DENIED (Table 7.13). -/
  denied : Nat
  data : List PWord
  got : List PWord
  deriving DecidableEq, Repr

/-- A descriptor of a context that is ACTIVE or issued but not completed (R222, R224). -/
structure CtxDesc where
  ord : Nat
  desc : Nat
  op : Nat
  remote : Bool
  /-- Requests of the whole descriptor, issued so far, answered so far. -/
  total : Nat
  issued : Nat
  done : Nat
  deriving DecidableEq, Repr

/-- A stream context's registers and progress (R216 to R228). STATE codes are those of Table 7.10. -/
structure Ctx where
  ctrl : Word
  state : Nat
  cur : Nat
  haltCause : Nat
  pendStart : Nat
  pendChain : Nat
  pendSync : Nat
  prio : Nat
  seed : Word
  /-- The generator (R56), of the START that `genEpoch` counts. -/
  lfsr : Word
  genEpoch : Nat
  bytes : BitVec 64
  bytesHi : Nat
  poison : Nat
  /-- PART_CYCLE at which WAIT_TRIG was entered for the current descriptor (TIMER of R220). -/
  trigFrom : Nat
  timerDone : Bool
  /-- Descriptors started so far, and requests issued so far: their order numbers. -/
  nextOrd : Nat
  nextIdx : Nat
  /-- PART_CYCLE of the last request issue, for PACE. -/
  lastIssue : Option Nat
  descs : List CtxDesc
  reqs : List CtxReq
  deriving DecidableEq, Repr

/-- A context in OFF, priority 4, its generator at 0 (Tables 7.9 and 7.10; DESIGN CHOICE, log entry 62). -/
def Ctx.reset : Ctx := ⟨0, 0, 0, 0, 0, 0, 0, 4, 0, 0, 0, 0, 0, 0, 0, false, 0, 0, none, [], []⟩

/-- Gate decision of the step in progress (R249). -/
structure Gate where
  total : Word
  skip : Bool
  clip : Word
  lr : Word
  deriving DecidableEq, Repr

/-- A segment written into an export half (R264). -/
structure Segment where
  kind : Nat
  step : BitVec 64
  applied : BitVec 64
  tt : BitVec 64
  epoch : BitVec 32
  shard : Nat
  plane : Nat
  firstGroup : Nat
  groups : Nat
  seg : BitVec 32
  payload : List Byte
  deriving DecidableEq, Repr

/-- One half of the EXPORT pages (R262): the step whose segments it holds, the segments, whether the step committed, and
whether the last segment is acknowledged. -/
structure Half where
  step : BitVec 64
  segs : List Segment
  released : Bool
  acked : Bool
  deriving DecidableEq, Repr

def Param.reset : Param := ⟨0, 0, 0, 0, 0, 0, 0, 0, 0, 0, 0, 0, []⟩

/-- The block of one partition in one stack's update engine, with the partition's system page (R240, R267). STATE codes
are those of Table 8.12. -/
structure Uep where
  state : Nat
  cause : Nat
  lastSkipped : Bool
  exportWait : Bool
  startBlocked : Bool
  -- commit record (Table 8.8)
  committed : BitVec 64
  applied : BitVec 64
  skipped : BitVec 64
  copySel : Bool
  recEpoch : BitVec 32
  recTT : BitVec 64
  normSq : Word
  clip : Word
  lr : Word
  -- latches and counters
  committedHi : Nat
  appliedHi : Nat
  untouched : Nat
  exportAcked : BitVec 32
  segSeq : BitVec 32
  -- system page
  param : Param
  shards : List Shard
  /-- By slot of the REDUCE page (R232). -/
  acc : SMap Acc
  /-- Numbers of the set mark bits. -/
  marks : List Nat
  /-- Touched bits by slot * 4096 + unit. -/
  touched : SMap Bool
  /-- The clear of touched bits and counts is in progress (R234). -/
  clearBusy : Bool
  -- step in progress
  gate : Option Gate
  /-- lr(N) of the step in progress (R245). -/
  stepLr : Word
  lfsr : Word
  halves : List Half
  /-- Poisoned 64 B blocks of the copy being made, by store address (R362). -/
  poisonBlocks : List Nat
  poisonOverflow : Bool
  /-- The step that wrote the current compute copies (R362). -/
  copyStep : Nat
  deriving DecidableEq, Repr

/-- An update engine without a block, its generator at 0 (R267; DESIGN CHOICE, log entry 62). -/
def Uep.reset : Uep :=
  { state := 0, cause := 0, lastSkipped := false, exportWait := false, startBlocked := false,
    committed := 0, applied := 0, skipped := 0, copySel := false, recEpoch := 0, recTT := 0, normSq := 0, clip := 0,
    lr := 0, committedHi := 0, appliedHi := 0, untouched := 0, exportAcked := 0, segSeq := 0,
    param := Param.reset, shards := [], acc := [], marks := [], touched := [], clearBusy := false,
    gate := none, stepLr := 0, lfsr := 0, halves := [], poisonBlocks := [], poisonOverflow := false, copyStep := 0 }

/-- The ten idle counters (Table 9.6), with their overflow and LOST bits in the dictionary's counter record. -/
structure IdleCounts where
  elapsed : BitVec 64
  busy : BitVec 64
  recovery : BitVec 64
  thermal : BitVec 64
  weights : BitVec 64
  peer : BitVec 64
  barrier : BitVec 64
  reduction : BitVec 64
  slack : BitVec 64
  openWait : BitVec 64
  deriving DecidableEq, Repr

def IdleCounts.reset : IdleCounts := ⟨0, 0, 0, 0, 0, 0, 0, 0, 0, 0⟩

/-- Idle accounting of a partition: the live counters, whether accounting runs (R279), the latched snapshot with its
interval start and PARTIAL (R282, R283), and the interval in use with the start of the one in progress. -/
structure Idle where
  live : IdleCounts
  running : Bool
  snap : IdleCounts
  snapTT : BitVec 64
  snapPartial : Bool
  startTT : BitVec 64
  interval : Nat
  /-- Cluster-cycles held in OPEN_WAIT by cluster. -/
  openBy : SMap Nat
  /-- Counters of the ten that have carried out of bit 63, by subindex 1 to 10, live and as latched (R493). -/
  ovf : List Nat
  snapOvf : List Nat
  deriving DecidableEq, Repr

def Idle.reset : Idle := ⟨IdleCounts.reset, false, IdleCounts.reset, 0, false, 0, 1000, [], [], []⟩

end Sys2Proof.Machine
end

