-- ==== Sys2Proof/Machine/StateMgmt.lean ====
section
/-! DEFINITION. The state the control die keeps (chapters 9, 12 to 19): time, partition map, faults, trust, power,
clocks, records, lease, bring-up, the Maunvo protocol, the dictionary's settings and the pins. -/

namespace Sys2Proof.Machine

open Sys2Proof

/-- The partition map (Table 18.6a); band owner 255 is no owner. `pages` holds (FIRST, COUNT) of stack s and partition p
at 8 s + p. -/
structure Pmap where
  bandOwner : List Nat
  meshShare : List Nat
  storeShare : List Nat
  srvShare : List Nat
  ctxQuota : List Nat
  groupFirst : List Nat
  groupCount : List Nat
  boundary : List Byte
  pages : List (Nat × Nat)
  deriving DecidableEq, Repr

/-- The default image of R499: one tenant, partition 0, owns everything. -/
def Pmap.single : Pmap where
  bandOwner := List.replicate 8 0
  meshShare := List.replicate 8 0
  storeShare := 256 :: List.replicate 7 0
  srvShare := 256 :: List.replicate 7 0
  ctxQuota := 63 :: List.replicate 7 0
  groupFirst := List.replicate 8 0
  groupCount := 256 :: List.replicate 7 0
  boundary := List.replicate 56 0
  pages := (List.range 192).map (fun i => if i % 8 = 0 then (0, 24576) else (0, 0))

/-- No map in force: what OWNER and OWNED read at reset (R167, R199). -/
def Pmap.empty : Pmap where
  bandOwner := List.replicate 8 255
  meshShare := List.replicate 8 0
  storeShare := List.replicate 8 0
  srvShare := List.replicate 8 0
  ctxQuota := List.replicate 8 0
  groupFirst := List.replicate 8 0
  groupCount := List.replicate 8 0
  boundary := List.replicate 56 0
  pages := List.replicate 192 (0, 0)

/-- Control of the map: PMAP_STATE with the partitions affected and the LOCAL_NS at which the last zeroing write takes effect,
and PMAP_REFUSE (R499, R500). -/
structure PmapCtl where
  applying : Bool
  parts : List Nat
  until_ : Nat
  refuse : Nat
  deriving DecidableEq, Repr

def PmapCtl.reset : PmapCtl := ⟨false, [], 0, 0⟩

/-- The stamps of an element, newest first, at most 15, and whether it is marked for retirement (R353, R354). -/
structure Elem where
  stamps : List Nat
  marked : Bool
  deriving DecidableEq, Repr

def Elem.reset : Elem := ⟨[], false⟩

/-- A fault record (Table 12.6). -/
structure FaultRec where
  seq : Nat
  boot : Nat
  cls : Nat
  count : Nat
  ns : Nat
  tt : BitVec 64
  epoch : BitVec 32
  part : Nat
  cause : Nat
  action : Nat
  element : Nat
  step : Nat
  detail : Word
  deriving DecidableEq, Repr

/-- A retirement record (Table 12.9). STATE 0 marked, 1 spare in effect, 2 exhausted. `committed` once it is in
non-volatile storage (R356). -/
structure RetRec where
  inst : Nat
  element : Nat
  state : Nat
  part : Nat
  boot : Nat
  faultSeq : Nat
  ns : Nat
  stateNs : Nat
  committed : Bool
  deriving DecidableEq, Repr

/-- Faults and retirement (chapter 12). -/
structure Faults where
  /-- BOOT, the cold power-on count. -/
  boot : Nat
  elems : SMap Elem
  log : List FaultRec
  seq : Nat
  /-- SEQs of the log that no read of 0x4000.03 has returned. -/
  unread : List Nat
  logLost : Nat
  recs : List RetRec
  /-- Partitions that await recompilation (SPARE_EXHAUSTED). -/
  exhausted : List Nat
  /-- Logical clusters to zero at the next warm re-bind (R363). -/
  zeroNext : List Nat
  deriving DecidableEq, Repr

/-- No fault logged and no record (DESIGN CHOICE, log entry 64). -/
def Faults.reset : Faults := ⟨0, [], [], 0, [], 0, [], [], []⟩

/-- A counter of the Counters area (R493): value, overflow and LOST bits. -/
structure Counter where
  value : BitVec 64
  ovf : Bool
  lost : Bool
  deriving DecidableEq, Repr

def Counter.reset : Counter := ⟨0, false, false⟩

/-- The fabric clock and the clock of the control die (R163, R425, R352). `fab` counts the fabric cycles since cold start
that are not stall cycles, so FRAME_SLOT is `fab` modulo 256; `time` is the time since cold power-on in units of
1/168 ns, in which every clock period of Tables 15.1 and 15.2 used here is whole. -/
structure Clock where
  fab : Nat
  time : Nat
  deriving DecidableEq, Repr

def Clock.reset : Clock := ⟨0, 0⟩

/-- One epoch history record (R438). -/
structure EpochRec where
  epoch : BitVec 32
  tt : BitVec 64
  ref : BitVec 64
  ahead : BitVec 64
  deriving DecidableEq, Repr

/-- Torus time (R435 to R439). `tt` in units of 2^-24 ns; `ahead` is A in the same units, `err` the last e in ns. -/
structure TimeSt where
  tt : Nat
  /-- Rate correction in force, in units of 2^-24 ns per management cycle. -/
  corr : Int
  /-- Error still to be slewed, in units of 2^-24 ns. -/
  rest : Int
  ahead : Nat
  err : Int
  epoch : BitVec 32
  root : Bool
  ptpDomain : Nat
  depth : Nat
  locked : Bool
  holdover : Bool
  discontinuity : Bool
  ptpOk : Bool
  degraded : Bool
  rootConflict : Bool
  noRoot : Bool
  utcOffset : Int
  /-- TIME_PARENT port, and time of its last valid TIME frame (R322, R324). -/
  parent : Option Nat
  lastValid : Nat
  /-- ROOT_TAG in force, and LOCAL_NS of the last ROOT_TAG received that is smaller than the module's own. -/
  rootTag : BitVec 128
  smallerAt : Option Nat
  history : List EpochRec
  deriving DecidableEq, Repr

def TimeSt.reset : TimeSt :=
  { tt := 0, corr := 0, rest := 0, ahead := 0, err := 0, epoch := 0, root := false, ptpDomain := 0, depth := 255,
    locked := false, holdover := false, discontinuity := false, ptpOk := false, degraded := false,
    rootConflict := false, noRoot := false, utcOffset := 0, parent := none, lastValid := 0, rootTag := BitVec.allOnes 128,
    smallerAt := none, history := [] }

/-- Clock selection and its judges (R423 to R434). -/
structure Clk where
  oscReady : Bool
  xtalReady : Bool
  xtalFail : Bool
  xtalLost : Bool
  mgmtOnXtal : Bool
  fabLock : Bool
  fabOnSafe : Bool
  opInForce : Nat
  opPoint : Nat
  relockBusy : Bool
  fabLockFail : Bool
  /-- Selectors whose own source (a PLL, a recovered clock) is not ready, by number. -/
  notReady : List Nat
  switchRefused : Bool
  /-- N of the last comparison, N_REF, comparisons made, length of the passing run, consecutive ones out of range. -/
  lastN : Nat
  refN : Nat
  comparisons : Nat
  passes : Nat
  outOfRange : Nat
  /-- Consecutive verifying gates passed, and the time of step 3 of Table 15.3. -/
  gates : Nat
  relockFrom : Nat
  clkmon : Word
  /-- Selectors not on their own PLL: number of the selector to code of the source. -/
  selectors : SMap Nat
  deriving DecidableEq, Repr

def Clk.reset : Clk :=
  { oscReady := false, xtalReady := false, xtalFail := false, xtalLost := false, mgmtOnXtal := false, fabLock := false,
    fabOnSafe := true, opInForce := 0, opPoint := 0, relockBusy := false, fabLockFail := false, notReady := [],
    switchRefused := false, lastN := 0, refN := 0, comparisons := 0, passes := 0, outOfRange := 0, gates := 0,
    relockFrom := 0, clkmon := 0, selectors := [] }

/-- The management lease (R445 to R448): HOLDER, STAND_DOWN, the LOCAL_NS at which REMAIN reaches 0, LEASE_EPOCH,
LEASE_REFUSED. -/
structure Lease where
  holder : Nat
  standDown : Bool
  expires : Nat
  epoch : BitVec 32
  refused : BitVec 32
  deriving DecidableEq, Repr

def Lease.reset : Lease := ⟨0, false, 0, 1, 0⟩

/-- Binding control of a partition (Table 16.6), and what the module keeps of the binding for a re-bind (R456). STATE codes
of BIND_STATE. -/
structure Bind where
  state : Nat
  block : Nat
  refuse : Nat
  stopCause : Nat
  /-- LOCAL_NS at which COMMITTED_STEP last advanced (R460). -/
  lastStep : Nat
  /-- The image as the module's own copy holds it, once loaded. -/
  image : Option Binding
  /-- Bytes of the image received by a load in progress (R339), and the SHA-384 input so far. -/
  received : List Byte
  loading : Bool
  /-- REBIND requested by the host (R457), and a re-bind needed after a lost session (R312). -/
  rebindAsked : Bool
  rebindNeeded : Bool
  /-- Step of Table 16.5 last completed. -/
  rebindStep : Nat
  /-- A re-bind failed: AUTO_REBIND does not retry it (R459). -/
  noAuto : Bool
  /-- Bytes of the image in the retained-image region (R456). -/
  imageLen : Nat
  /-- The owner has changed since the last binding load (R240). -/
  newOwner : Bool
  deriving DecidableEq, Repr

def Bind.reset : Bind := ⟨0, 0, 0, 0, 0, none, [], false, false, false, 0, false, 0, false⟩

/-- Module states of 0x6000.01 (DESIGN CHOICE, log entry 136). -/
structure Boot where
  /-- 0 BRINGUP, 1 READY, 2 SAFE, 3 W4. -/
  moduleState : Nat
  step : Nat
  safeCause : Nat
  /-- Cluster-memory zeroing of every cluster in progress (R123): MEM_STATUS.ZERO_BUSY is 1 at reset. -/
  memZeroing : Bool
  memZeroUntil : Nat
  slot : Nat
  hostUp : Bool
  selfTested : Bool
  romDone : Bool
  /-- LOCAL_NS at which MODULE_STATE became READY. -/
  readyAt : Nat
  deriving DecidableEq, Repr

def Boot.reset : Boot := ⟨0, 0, 0, true, 0, 0, false, false, false, 0⟩

/-- One value a stored record carries (Table 16.2). -/
inductive NvVal where
  | lifecycle (state : Nat) (operatorPk : List Byte) (sealEpoch : Nat)
  | defects (elements : List Nat)
  | guardMap (guards : SMap RowGuard) (cores : SMap Nat) (lanes : SMap LaneEntry)
  | keyBlob (owner : BitVec 384) (ownerEpoch : BitVec 32) (key : BitVec 256) (sealEpoch : Nat)
  | settings (vals : SMap Nat)
  | pmap (m : Pmap)
  | overdrive (seconds : Nat)
  | counters (boot seq rootEpoch : Nat) (leaseEpoch : BitVec 32) (powerFail : Bool)
  | raw (bytes : List Byte)
  /-- A dictionary write on its way: the settings it changes (R491), or the map it gives (R500). The record it writes holds
  every stored setting of its index. -/
  | change (vals : SMap Nat)
  | newMap (m : Pmap)
  deriving DecidableEq, Repr

/-- A copy of a stored record (R442, R444): wholly erased; damaged by a write that power loss cut; or valid. -/
inductive NvCopy where
  | erased
  | damaged
  | valid (seq : Nat) (v : NvVal)
  deriving DecidableEq, Repr

/-- A stored record's two copies, by TYPE * 65536 + INSTANCE in the array. -/
structure NvRec where
  a : NvCopy
  b : NvCopy
  deriving DecidableEq, Repr

def NvRec.reset : NvRec := ⟨.erased, .erased⟩

/-- A record write requested and not yet committed (R443), and the core whose lease its commit byte is checked against
(none: a write of the module's own). -/
structure NvWrite where
  ty : Nat
  inst : Nat
  v : NvVal
  core : Option MCore
  /-- The session and REQ_ID whose response waits for the commit, with INDEX and SUBINDEX (R476). -/
  reply : Option (Nat × Nat × Nat × Nat)
  deriving DecidableEq, Repr

/-- The non-volatile array and its write queue (R443: one at a time, in the order requested). -/
structure Nv where
  recs : SMap NvRec
  writes : List NvWrite
  deriving DecidableEq, Repr

/-- An erased array (DESIGN CHOICE, log entry 64). -/
def Nv.reset : Nv := ⟨[], []⟩

/-- A partition's owner and key state (Table 13.9). KEY_STATE 0 NONE, 1 EK_ISSUED, 2 HELD. -/
structure Owner where
  id : BitVec 384
  epoch : BitVec 32
  keyState : Nat
  runId : BitVec 64
  runKey : BitVec 256
  ekNonce : BitVec 256
  busy : Bool
  /-- Time at which the zeroing of an owner change ends (R378). -/
  busyUntil : Nat
  measure : BitVec 384
  keyFail : Nat
  deriving DecidableEq, Repr

def Owner.reset : Owner := ⟨0, 0, 0, 0, 0, 0, false, 0, 0, 0⟩

/-- Lifecycle and security (chapter 13). LIFECYCLE codes of Table 13.3. -/
structure Trust where
  lifecycle : Nat
  provisionedFuse : Bool
  retiredFuse : Bool
  debugCount : Nat
  fwSvn : Nat
  imageSvn : Nat
  fwMeasure : BitVec 384
  /-- IDENTITY_HASH of the colophon (Table 13.2). -/
  identity : BitVec 384
  sealEpoch : Nat
  operatorPk : List Byte
  cmdFail : Nat
  /-- NONCE of the latest module-scope report, LOCAL_NS of its issue, and whether a command has used it (R374). -/
  report : Option (BitVec 256 × Nat × Bool)
  owners : SMap Owner
  deriving DecidableEq, Repr

/-- Blank fuses, the lifecycle state MANUFACTURE and no owner (DESIGN CHOICE, log entry 64). -/
def Trust.reset : Trust :=
  { lifecycle := 0, provisionedFuse := false, retiredFuse := false, debugCount := 0, fwSvn := 0, imageSvn := 0,
    fwMeasure := 0, identity := 0, sealEpoch := 0, operatorPk := [], cmdFail := 0, report := none, owners := [] }

end Sys2Proof.Machine
end

