-- ==== Sys2Proof/Machine/StatePort.lean ====
section
/-! DEFINITION. The state of the optical ports and the torus collectives (chapter 10), and of the host port and the
server ports (chapter 11). -/

namespace Sys2Proof.Machine

open Sys2Proof

/-- A remote request awaiting its response (R222, R289): its TAG, and the context and request it belongs to, or the read
of the commit state. -/
structure RemoteReq where
  tag : Nat
  ctx : Nat
  idx : Nat
  deriving DecidableEq, Repr

/-- What the last TIME frame of a port said of torus time (R322, R323): its T_TX, the TT of its arrival, DEPTH, ROOT_TAG,
TIME_EPOCH, its FLAGS and the LOCAL_NS of its arrival. -/
structure TimeIn where
  tTx : Nat
  rx : Nat
  depth : Nat
  rootTag : BitVec 128
  epoch : BitVec 32
  holdover : Bool
  at_ : Nat
  deriving DecidableEq, Repr

/-- One optical port (R285 to R327). STATE codes of Table 10.6. -/
structure Port where
  state : Nat
  runMatch : Bool
  los : Bool
  newEpochSeen : Bool
  authSeen : Bool
  retrainSeen : Bool
  refuse : Nat
  peerCommitted : BitVec 64
  peerCommitValid : Bool
  /-- Grid positions not usable inbound and outbound, and the lanes steered to position 8. -/
  rxBad : List Nat
  txBad : List Nat
  rxSpared : Option Nat
  txSpared : Option Nat
  fibreNs : Nat
  replays : Nat
  cwUncorr : Nat
  authFail : Nat
  /-- Sessions begun since cold power-on (Sessions and epochs). -/
  begun : Nat
  localEpoch : BitVec 64
  partnerEpoch : BitVec 64
  /-- The accepted HELLO of the partner. -/
  partner : Option Hello
  /-- A session's keys are held (R308). -/
  keyed : Bool
  sub : Option Nat
  /-- FLOW[f] by f, and bytes landed since binding load by f (R299, R302). -/
  flows : SMap Word
  landed : SMap Nat
  -- sequence numbers and generations, sent and received
  txSeq : Nat
  txGen : Nat
  rxSeq : Nat
  rxGen : Nat
  uSeq : Nat
  sendQ : List Frame
  /-- Sent and not acknowledged, oldest first, with the number of times sent (R293). -/
  replay : List (Frame × Nat)
  /-- LOCAL_NS at which ACK last advanced or the replay buffer was last filled from empty or resent. -/
  ackAt : Nat
  /-- Credits granted by the partner and left, in the request and response pools; credits to return to it (R294). -/
  creditReq : Nat
  creditRsp : Nat
  oweReq : Nat
  oweRsp : Nat
  /-- Accepted request frames that cannot proceed yet, in SEQ order (R296). -/
  held : List Frame
  reqs : List RemoteReq
  nextTag : Nat
  /-- The last ACK sent to the partner (R289). -/
  ackSent : Nat
  /-- A gap persists: LOCAL_NS of the last NAK (R292). -/
  gapAt : Option Nat
  /-- LOCAL_NS at which the present state was entered. -/
  since : Nat
  trainFails : Nat
  timeIn : Option TimeIn
  /-- LOCAL_NS of the last TIME frame sent. -/
  timeSent : Option Nat
  -- latches of R104
  localEpochHi : Nat
  partnerEpochHi : Nat
  peerCommittedHi : Nat
  deriving DecidableEq, Repr

/-- Credits of a fresh session: 768 KiB and 256 KiB in 64 B units (R294). -/
def poolReq : Nat := 12288
def poolRsp : Nat := 4096

def Port.reset : Port :=
  { state := 0, runMatch := false, los := false, newEpochSeen := false, authSeen := false, retrainSeen := false,
    refuse := 0, peerCommitted := 0, peerCommitValid := false, rxBad := List.range 9, txBad := List.range 9,
    rxSpared := none, txSpared := none, fibreNs := 0, replays := 0, cwUncorr := 0, authFail := 0,
    begun := 0, localEpoch := 0, partnerEpoch := 0, partner := none, keyed := false, sub := none, flows := [],
    landed := [], txSeq := 0, txGen := 0, rxSeq := 0, rxGen := 0, uSeq := 0, sendQ := [], replay := [],
    ackAt := 0, creditReq := poolReq, creditRsp := poolRsp, oweReq := 0, oweRsp := 0, held := [], reqs := [],
    nextTag := 0, ackSent := 0, gapAt := none, since := 0, trainFails := 0, timeIn := none, timeSent := none,
    localEpochHi := 0, partnerEpochHi := 0, peerCommittedHi := 0 }

/-- A torus collective of one spine group (R318): the axis whose stage is in progress (2 Z, 1 Y, 0 X), the value this
module contributes to it, the entries the control die holds, the flags its sums have raised, and the torus release once the
last stage has ended. -/
structure Coll where
  axis : Option Nat
  value : Word
  phase : Nat
  entries : List StageEntry
  flags : BitVec 4
  release : Option Word
  deriving DecidableEq, Repr

def Coll.reset : Coll := ⟨none, 0, 0, [], 0, none⟩

/-- The entry a host queue is executing (R332, R333): the entry, its store requests made and completed, bytes moved, poisoned
blocks met, the status it will end with, COPY_SEL as its first grant saw it and whether it has changed (R336), the words read
by request, bytes landed, acknowledged or received, how far it has been sent, and the LOCAL_NS of its last progress (R347). -/
structure HostJob where
  op : Nat
  e : SqEntry
  total : Nat
  finished : Nat
  moved : Nat
  poison : Nat
  status : Nat
  copySel : Option Bool
  mixed : Bool
  read : SMap (List PWord)
  acked : Nat
  sent : Nat
  rto : Nat
  progressAt : Nat
  sentAt : Nat
  deriving DecidableEq, Repr

/-- One host queue pair (R330, R331). -/
structure HostQ where
  sqBase : BitVec 64
  cqBase : BitVec 64
  sqLog2 : Nat
  cqLog2 : Nat
  en : Bool
  irqEn : Bool
  sqHead : Nat
  sqTail : Nat
  cqTail : Nat
  cqHead : Nat
  phase : Bool
  qerr : Bool
  cause : Nat
  job : Option HostJob
  deriving DecidableEq, Repr

def HostQ.reset : HostQ :=
  { sqBase := 0, cqBase := 0, sqLog2 := 4, cqLog2 := 4, en := false, irqEn := false, sqHead := 0, sqTail := 0,
    cqTail := 0, cqHead := 0, phase := true, qerr := false, cause := 0, job := none }

/-- The host port: HOST_LINK, the queues, the host flow table HFLOW with bytes landed by flow (R340), the highest SEAL_SEQ
used by partition inbound and outbound (2 p and 2 p + 1; R337), and the LOCAL_NS by which configuration requests are
answered after PERST# (R452). -/
structure HostPort where
  rate : Nat
  width : Nat
  flit : Bool
  queues : SMap HostQ
  flows : SMap Word
  flowOwner : SMap Nat
  landed : SMap Nat
  sealUsed : SMap Nat
  configBy : Option Nat
  deriving DecidableEq, Repr

def HostPort.reset : HostPort := ⟨0, 0, false, [], [], [], [], [], none⟩

/-- A server session of partition p with a peer 0 to 8, by 9 p + peer (R343, R384). -/
structure Srv where
  up : Bool
  keyGen : Nat
  txSeq : BitVec 64
  /-- Highest accepted PKT_SEQ, and the accepted ones of the last 1,024. -/
  rxHigh : Option Nat
  rxSeen : List Nat
  deriving DecidableEq, Repr

def Srv.reset : Srv := ⟨false, 0, 0, none, []⟩

/-- Export of partition p from stack s, by 8 s + p (R345, R346): highest acknowledged SEG_SEQ, where the next datagram
starts (segment and offset), the retransmission time in ns and the LOCAL_NS it runs from. -/
structure Export where
  acked : Nat
  nextSeg : Nat
  nextOff : Nat
  rto : Nat
  sentAt : Nat
  deriving DecidableEq, Repr

def Export.reset : Export := ⟨0, 1, 0, 2000000, 0⟩

/-- One server port: link, slot of its frame (R344), and the MTU learnt from Packet Too Big, if any (Table 11.5). -/
structure SrvPort where
  up : Bool
  slot : Nat
  mtu : Option Nat
  deriving DecidableEq, Repr

def SrvPort.reset : SrvPort := ⟨false, 0, none⟩

/-- The server ports. -/
structure Server where
  ports : SMap SrvPort
  sessions : SMap Srv
  exports : SMap Export
  /-- EXPORT_STALLED by partition, and LOCAL_NS at which export of p last advanced (R346). -/
  stalled : List Nat
  advancedAt : SMap Nat
  /-- Last step of p acknowledged on every stack (0x3C10 + p .0B). -/
  ackedStep : SMap Nat
  deriving DecidableEq, Repr

def Server.reset : Server := ⟨[], [], [], [], [], []⟩

end Sys2Proof.Machine
end

