-- ==== Sys2Proof/Machine/StatePower.lean ====
section
/-! DEFINITION. The state of power delivery, heat and the wake policy (chapter 14). Readings are held in thousandths of
their unit, set points in half millivolts. -/

namespace Sys2Proof.Machine

open Sys2Proof

/-- One regulator domain (R394, R398, R402): set point, the last MIN_MARGIN, switched off, defective, and the physical slots
it fed when it first dropped abnormally (R403). -/
structure Domain where
  setPoint : Nat
  margin : Nat
  off : Bool
  defective : Bool
  dropped : Option (List Nat)
  /-- The last steered set point at each operating point since cold power-on (Table 15.3). -/
  steered : SMap Nat
  deriving DecidableEq, Repr

/-- The set point at reset, 0.72 V: the manual gives none (DESIGN CHOICE, log entry 50). -/
def Domain.reset : Domain := ⟨1440, 0, false, false, none, []⟩

/-- A partition's wake state (R415 to R419): W_STATE, the time in which it was last not idle, and the time by which a wake
in progress is over. -/
structure Wake where
  w : Nat
  lastBusy : Nat
  due : Option Nat
  deriving DecidableEq, Repr

def Wake.reset : Wake := ⟨0, 0, none⟩

/-- Power and heat (R390 to R414). -/
structure Power where
  /-- The first stage runs; it is held off after an overvoltage (R391). -/
  on : Bool
  heldOff : Bool
  /-- Stores in self-refresh: no round serves them (R391, R409, R415). -/
  selfRefresh : Bool
  mode : Nat
  failSeen : Bool
  vin : Nat
  pf : Nat
  tmax : Nat
  flow : Nat
  inlet : Nat
  outlet : Nat
  coolantWarn : Bool
  sprinting : Bool
  marginLowered : Bool
  powerTrip : Bool
  thermalTrip : Bool
  emSpent : Bool
  sprintUsed : Nat
  /-- Consecutive ticks: at or below POWER_CAP (R404); below L - 1,000 W toward a fall of S_P, and since S_P became 0 (R406);
  below 88 degrees, at or above 95 degrees (R408, R409). -/
  underCap : Nat
  lowTicks : Nat
  calmTicks : Nat
  coolTicks : Nat
  hotTicks : Nat
  sP : Nat
  sT : Nat
  /-- LOCAL_NS until which the fast clamp holds (R407). -/
  clampUntil : Nat
  overdrive : Nat
  domains : SMap Domain
  /-- Header stage of each power group, 0 to 4 (R400). -/
  stages : SMap Nat
  wakes : SMap Wake
  /-- LOCAL_NS at which a wake from W4 was asked for. -/
  w4Wake : Option Nat
  deriving DecidableEq, Repr

/-- No supply stage on, every reading 0 (DESIGN CHOICE, log entry 63). -/
def Power.reset : Power :=
  { on := false, heldOff := false, selfRefresh := false, mode := 1, failSeen := false, vin := 0, pf := 0, tmax := 0, flow := 0,
    inlet := 0, outlet := 0, coolantWarn := false, sprinting := false, marginLowered := false, powerTrip := false,
    thermalTrip := false, emSpent := false, sprintUsed := 0, underCap := 0, lowTicks := 0, calmTicks := 0, coolTicks := 0,
    hotTicks := 0, sP := 0, sT := 0, clampUntil := 0, overdrive := 0, domains := [], stages := [], wakes := [],
    w4Wake := none }

end Sys2Proof.Machine
end

