-- ==== Sys2Proof/Machine/StateMaunvo.lean ====
section
/-! DEFINITION. The state of the Maunvo protocol and the I3C chassis port (chapter 17), and of the service pins and the
test access port (chapter 19). -/

namespace Sys2Proof.Machine

open Sys2Proof

/-- An event held for a session until it is acknowledged (R479, R480). -/
structure MEvent where
  seq : Nat
  cls : Nat
  ns : Nat
  tt : BitVec 64
  epoch : BitVec 32
  index : Nat
  sub : Nat
  detail : List Nat
  deriving DecidableEq, Repr

/-- A RESPONSE (R471), as it is sent and kept (R475). -/
structure MResp where
  reqId : Nat
  index : Nat
  sub : Nat
  status : Nat
  total : Nat
  offset : Nat
  data : List Byte
  deriving DecidableEq, Repr

/-- A transfer buffer of a session (R472): the latched value of a read, or the segments of a write so far. -/
structure Transfer where
  write : Bool
  index : Nat
  sub : Nat
  total : Nat
  data : List Byte
  reqId : Nat
  /-- How far a read has been returned. -/
  sent : Nat
  /-- LOCAL_NS of the last segment. -/
  at_ : Nat
  deriving DecidableEq, Repr

/-- A request accepted whose final response is to come, with the LOCAL_NS from which its next PENDING is due (Table 17.5). -/
structure Waiting where
  reqId : Nat
  index : Nat
  sub : Nat
  at_ : Nat
  deriving DecidableEq, Repr

/-- A session (R466 to R480). ROLE 0 FACTORY, 1 PROVISIONER, 2 OPERATOR. -/
structure Session where
  role : Nat
  /-- PKT_SEQ last sent, highest accepted and the accepted ones of the last 64 (R464). -/
  txSeq : Nat
  rxHigh : Nat
  rxSeen : List Nat
  lastMsg : Nat
  mask : Word
  eventSeq : Nat
  events : List MEvent
  lost : Nat
  /-- LOCAL_NS at which events were last sent. -/
  sentAt : Nat
  kept : List MResp
  buffers : List Transfer
  waiting : List Waiting
  /-- Latched flags of counters by index * 256 + subindex (R495). -/
  flags : SMap Nat
  deriving DecidableEq, Repr

def Session.reset : Session :=
  { role := 2, txSeq := 0, rxHigh := 0, rxSeen := [], lastMsg := 0, mask := 0, eventSeq := 0, events := [], lost := 0,
    sentAt := 0, kept := [], buffers := [], waiting := [], flags := [] }

/-- A handshake in progress with a client (R466). -/
structure Handshake where
  keyHash : BitVec 384
  nonce : BitVec 256
  frags : List Nat
  count : Nat
  from_ : Nat
  /-- SESSION_ID given in M_HELLO, once it has been sent. -/
  session : Nat
  deriving DecidableEq, Repr

def Handshake.reset : Handshake := ⟨0, 0, [], 0, 0, 0⟩

/-- A write received in W4, executed once the module is back in W0 (R481). -/
structure Deferred where
  session : Nat
  reqId : Nat
  index : Nat
  sub : Nat
  data : List Byte
  deriving DecidableEq, Repr

/-- The management port and the I3C chassis port. -/
structure Maunvo where
  sessions : SMap Session
  handshakes : SMap Handshake
  deferred : List Deferred
  refused : Nat
  /-- Dynamic address of the chassis port, its transfer latch, its flag latches (R482, R495). -/
  dynAddr : Option Nat
  latch : Option (Nat × Nat × List Byte)
  flags : SMap Nat
  deriving DecidableEq, Repr

def Maunvo.reset : Maunvo := ⟨[], [], [], 0, none, none, []⟩

/-- A write of a pin group's function: the code, the LOCAL_NS at which it executed, and the session and REQ_ID that its end
answers, with INDEX and SUBINDEX (R513). -/
structure PinWrite where
  code : Nat
  at_ : Nat
  reply : Option (Nat × Nat × Nat × Nat)
  deriving DecidableEq, Repr

/-- A group of multiplexed service pins (R512 to R515): function in force, the LOCAL_NS at which the pins last entered high
impedance, the switch in progress, and the writes that wait. -/
structure PinGroup where
  fn : Nat
  hiz : Nat
  upto : Option PinWrite
  waiting : List PinWrite
  deriving DecidableEq, Repr

/-- Table 19.5: every group is at high impedance until the boot ROM starts (R511). -/
def PinGroup.reset : PinGroup := ⟨0, 0, none, []⟩

/-- The service pins and the TAP: code of the current instruction, whether the last one loaded was gated (R519), the boundary
register, the die selection, and the dies INT_SCAN has scanned. -/
structure Pins where
  groups : SMap PinGroup
  uartIn : List Byte
  instr : Nat
  gated : Bool
  boundary : BitVec 125
  dieLink : BitVec 96
  scanned : BitVec 96
  deriving DecidableEq, Repr

def Pins.reset : Pins := ⟨[], [], 2, false, 0, 0, 0⟩

end Sys2Proof.Machine
end

