-- ==== Sys2Proof/Machine/State.lean ====
section
/-! DEFINITION. The state of the module: every register, memory, queue and counter the manual gives it, the queue of
waiting commands, and what it has put out; the reasons a command can stop; and the state at reset. -/

namespace Sys2Proof.Machine

open Sys2Proof

/-- Why a command stops the model. -/
inductive Fault where
  /-- Raised by every meaning whose command names an element the module does not have (a cluster above 4095, a port above
  255). Safe: the module has no such element to act on. -/
  | noSuchElement (kind : String) (number : Nat)
  deriving DecidableEq, Repr

/-- Why a command has no meaning. -/
inductive Refusal where
  /-- Raised by an arm of exec whose command is not modelled yet. Safe: nothing is claimed of it. -/
  | notModelled (mnemonic : String)
  deriving DecidableEq, Repr

/-- What the module puts out. -/
inductive Out where
  /-- The value a register or dictionary read returns. -/
  | value (v : Nat)
  | bytes (bs : List Byte)
  /-- A frame leaving an optical port. -/
  | frame (port : Nat) (f : Frame)
  /-- A completion queue entry (Table 11.4), an MSI-X vector, and data written to host memory. -/
  | completion (q cid status flags sqHead moved poison : Nat)
  | msix (v : Nat)
  | toHost (q offset : Nat) (bs : List Byte)
  /-- A server datagram (Table 11.6), and an ICMPv6 answer: 0 neighbour advertisement, 1 echo reply. -/
  | datagram (port ty : Nat) (d : Dgram)
  | icmp (port kind : Nat)
  /-- Maunvo: a response, an event, and a handshake or other message by its TYPE of Table 17.2,
  with the fields the module itself gives it. -/
  | response (session : Nat) (r : MResp)
  | event (session : Nat) (e : MEvent)
  | message (session ty reqId : Nat) (payload : List Byte)
  /-- The answer of the I3C chassis port, and its in-band interrupt with the event class. -/
  | i3c (status : Nat) (data : List Byte)
  | ibi (cls : Nat)
  /-- A report on the UART console: 0 a boot-ROM or safe-state report of the cause, 1 the line of a fault record. -/
  | console (kind value : Nat)
  /-- An attestation report (Table 13.8), without EK and SIGNATURE, and whether it carries a fresh EK. -/
  | report (bs : List Byte) (ek : Bool)
  deriving DecidableEq, Repr

/-- The module. -/
structure State where
  /-- Commands waiting, first in first out. -/
  pending : List Instr
  clock : Clock
  clusters : SMap Cluster
  /-- Bank words of every cluster: byte k of word w of cluster c at ((c * 2^24) + w) * 8 + k; k 0 to 3 data, 4 the check
  field (R126). -/
  cmem : Memory
  /-- Quire and stream-context memory of every cluster, addressed alike: k 0 to 3 data, 4 to 7 the per-byte check fields
  (R132). -/
  qmem : Memory
  parts : SMap Part
  syncs : SMap SyncObj
  groups : SMap Group
  fabric : Fabric
  store : Store
  /-- Store bytes: byte k of 64-bit word w of physical page g of stack s at ((s * 24704 + g) * 2^18 + w) * 16 + k; k 0 to
  7 data, 8 the check field (R205). -/
  smem : Memory
  ctxs : SMap Ctx
  ueps : SMap Uep
  idles : SMap Idle
  pmap : Pmap
  pmapCtl : PmapCtl
  faults : Faults
  counters : SMap Counter
  /-- RW and RWS settings of the dictionary by index * 256 + subindex; an unlisted one holds its default. -/
  dict : SMap Nat
  lease : Lease
  binds : SMap Bind
  boot : Boot
  nv : Nv
  trust : Trust
  ports : SMap Port
  /-- Torus collectives by spine group. -/
  colls : SMap Coll
  host : HostPort
  server : Server
  torusTime : TimeSt
  clk : Clk
  power : Power
  maunvo : Maunvo
  pins : Pins
  out : List Out
  /-- The model's own field: how many free values have been taken. -/
  free : Nat
  deriving DecidableEq, Repr

/-- The module in the moment cold power-on begins. -/
def State.reset : State where
  pending := []
  clock := Clock.reset
  clusters := []
  cmem := []
  qmem := []
  parts := []
  syncs := []
  groups := []
  fabric := Fabric.reset
  store := Store.reset
  smem := []
  ctxs := []
  ueps := []
  idles := []
  pmap := Pmap.empty
  pmapCtl := PmapCtl.reset
  faults := Faults.reset
  counters := []
  dict := []
  lease := Lease.reset
  binds := []
  boot := Boot.reset
  nv := Nv.reset
  trust := Trust.reset
  ports := []
  colls := []
  host := HostPort.reset
  server := Server.reset
  torusTime := TimeSt.reset
  clk := Clk.reset
  power := Power.reset
  maunvo := Maunvo.reset
  pins := Pins.reset
  out := []
  free := 0

end Sys2Proof.Machine
end

