-- ==== Sys2Proof/Machine/Ops.lean ====
section
/-! DEFINITION. The named operations over the state that every family uses: reading and updating one element of a
family, who owns what, the passage of time, counters, events and fault records, partition stop. -/

namespace Sys2Proof.Machine

open Sys2Proof

/-- What a meaning answers. -/
abbrev Answer := Host.Outcome State Fault Refusal

/-- Guard of a command that names an element by number: the next state, or a stop where there is no such element.
(DESIGN CHOICE, log entry 68.) -/
def onNumber (kind : String) (bound n : Nat) (t : State) : Answer :=
  if n < bound then .next t else .fault (.noSuchElement kind n)

/-! One element of a family. -/

def clusterD (_ : Nat) : Cluster := Cluster.reset
def partD (_ : Nat) : Part := Part.reset
def syncD (_ : Nat) : SyncObj := SyncObj.reset
def groupD (_ : Nat) : Group := Group.reset
def ctxD (_ : Nat) : Ctx := Ctx.reset
def uepD (_ : Nat) : Uep := Uep.reset
def stackD (_ : Nat) : Stack := Stack.reset
def pageD (_ : Nat) : Page := Page.reset
def idleD (_ : Nat) : Idle := Idle.reset
def counterD (_ : Nat) : Counter := Counter.reset
def natD (v : Nat) (_ : Nat) : Nat := v
def boolD (_ : Nat) : Bool := false
def wordD (_ : Nat) : Word := 0

def State.cluster (s : State) (c : Nat) : Cluster := mapGet clusterD s.clusters c
def State.modCluster (s : State) (c : Nat) (f : Cluster → Cluster) : State :=
  { s with clusters := mapMod clusterD s.clusters c f }

def State.part (s : State) (p : Nat) : Part := mapGet partD s.parts p
def State.modPart (s : State) (p : Nat) (f : Part → Part) : State := { s with parts := mapMod partD s.parts p f }

def State.sync (s : State) (o : Nat) : SyncObj := mapGet syncD s.syncs o
def State.modSync (s : State) (o : Nat) (f : SyncObj → SyncObj) : State := { s with syncs := mapMod syncD s.syncs o f }

def State.group (s : State) (g : Nat) : Group := mapGet groupD s.groups g
def State.modGroup (s : State) (g : Nat) (f : Group → Group) : State := { s with groups := mapMod groupD s.groups g f }

/-- Local context k of cluster c has number 4 c + k (R68). -/
def State.ctx (s : State) (c k : Nat) : Ctx := mapGet ctxD s.ctxs (4 * c + k)
def State.modCtx (s : State) (c k : Nat) (f : Ctx → Ctx) : State := { s with ctxs := mapMod ctxD s.ctxs (4 * c + k) f }

/-- The block of partition p in the update engine of a stack. -/
def State.uep (s : State) (stack p : Nat) : Uep := mapGet uepD s.ueps (8 * stack + p)
def State.modUep (s : State) (stack p : Nat) (f : Uep → Uep) : State :=
  { s with ueps := mapMod uepD s.ueps (8 * stack + p) f }

def State.stack (s : State) (n : Nat) : Stack := mapGet stackD s.store.stackTab n
def State.modStack (s : State) (n : Nat) (f : Stack → Stack) : State :=
  { s with store := { s.store with stackTab := mapMod stackD s.store.stackTab n f } }

def State.page (s : State) (stack page : Nat) : Page := mapGet pageD s.store.pages (24576 * stack + page)
def State.modPage (s : State) (stack page : Nat) (f : Page → Page) : State :=
  { s with store := { s.store with pages := mapMod pageD s.store.pages (24576 * stack + page) f } }

def State.idle (s : State) (p : Nat) : Idle := mapGet idleD s.idles p
def State.modIdle (s : State) (p : Nat) (f : Idle → Idle) : State := { s with idles := mapMod idleD s.idles p f }

def bindD (_ : Nat) : Bind := Bind.reset
def State.bind (s : State) (p : Nat) : Bind := mapGet bindD s.binds p
def State.modBind (s : State) (p : Nat) (f : Bind → Bind) : State := { s with binds := mapMod bindD s.binds p f }

def ownerD (_ : Nat) : Owner := Owner.reset
def State.owner (s : State) (p : Nat) : Owner := mapGet ownerD s.trust.owners p
def State.modOwner (s : State) (p : Nat) (f : Owner → Owner) : State :=
  { s with trust := { s.trust with owners := mapMod ownerD s.trust.owners p f } }

def portD (_ : Nat) : Port := Port.reset
def State.port (s : State) (n : Nat) : Port := mapGet portD s.ports n
def State.modPort (s : State) (n : Nat) (f : Port → Port) : State := { s with ports := mapMod portD s.ports n f }

def collD (_ : Nat) : Coll := Coll.reset
def State.coll (s : State) (g : Nat) : Coll := mapGet collD s.colls g
def State.modColl (s : State) (g : Nat) (f : Coll → Coll) : State := { s with colls := mapMod collD s.colls g f }

def hostQD (_ : Nat) : HostQ := HostQ.reset
def State.hostQ (s : State) (q : Nat) : HostQ := mapGet hostQD s.host.queues q
def State.modHostQ (s : State) (q : Nat) (f : HostQ → HostQ) : State :=
  { s with host := { s.host with queues := mapMod hostQD s.host.queues q f } }

def srvD (_ : Nat) : Srv := Srv.reset
/-- Session of partition p with peer `peer`. -/
def State.srv (s : State) (p peer : Nat) : Srv := mapGet srvD s.server.sessions (9 * p + peer)
def State.modSrv (s : State) (p peer : Nat) (f : Srv → Srv) : State :=
  { s with server := { s.server with sessions := mapMod srvD s.server.sessions (9 * p + peer) f } }

def exportD (_ : Nat) : Export := Export.reset
def State.exp (s : State) (stack p : Nat) : Export := mapGet exportD s.server.exports (8 * stack + p)
def State.modExp (s : State) (stack p : Nat) (f : Export → Export) : State :=
  { s with server := { s.server with exports := mapMod exportD s.server.exports (8 * stack + p) f } }

def srvPortD (_ : Nat) : SrvPort := SrvPort.reset
def State.srvPort (s : State) (k : Nat) : SrvPort := mapGet srvPortD s.server.ports k
def State.modSrvPort (s : State) (k : Nat) (f : SrvPort → SrvPort) : State :=
  { s with server := { s.server with ports := mapMod srvPortD s.server.ports k f } }

def wakeD (_ : Nat) : Wake := Wake.reset
/-- The wake state of partition p (R415). -/
def State.wakeOf (s : State) (p : Nat) : Wake := mapGet wakeD s.power.wakes p
def State.modWake (s : State) (p : Nat) (f : Wake → Wake) : State :=
  { s with power := { s.power with wakes := mapMod wakeD s.power.wakes p f } }

/-- Wake latency of a state in ns (Table 14.5). -/
def wakeLatency (w : Nat) : Nat := match w with | 1 => 1000 | 2 => 50000 | 3 => 2000000 | _ => 0

def domainD (_ : Nat) : Domain := Domain.reset
def State.domain (s : State) (d : Nat) : Domain := mapGet domainD s.power.domains d
def State.modDomain (s : State) (d : Nat) (f : Domain → Domain) : State :=
  { s with power := { s.power with domains := mapMod domainD s.power.domains d f } }

def sessionD (_ : Nat) : Session := Session.reset
def pinD (_ : Nat) : PinGroup := PinGroup.reset
/-- A group of service pins, numbered from 1 (Table 19.5). -/
def State.pinGroup (s : State) (g : Nat) : PinGroup := mapGet pinD s.pins.groups g
def State.modPinGroup (s : State) (g : Nat) (f : PinGroup → PinGroup) : State :=
  { s with pins := { s.pins with groups := mapMod pinD s.pins.groups g f } }

/-- Apply `g` to every listed entry, keeping the canonical form. -/
def mapAll {α : Type} [DecidableEq α] (d : Nat → α) (m : SMap α) (g : Nat → α → α) : SMap α :=
  match m with
  | [] => []
  | (k, v) :: r => if g k v = d k then mapErase (mapAll d r g) k else (k, g k v) :: mapAll d r g

/-- Put something out (DESIGN CHOICE, log entry 69). -/
def State.emit (s : State) (o : Out) : State := { s with out := s.out ++ [o] }

/-! Settings of the dictionary. -/

/-- Defaults of the settings (the Default columns of the chapters' dictionary tables), as rows (first index, last index,
first subindex, last subindex, default); a setting in no row defaults to 0. -/
def settingRows : List (Nat × Nat × Nat × Nat × Nat) :=
  [(0x1100, 0x1100, 2, 2, 64), (0x1100, 0x1100, 5, 5, 60), (0x1100, 0x1100, 8, 8, 0x61),
   (0x2000, 0x2000, 1, 1, 1), (0x2000, 0x2000, 4, 4, 24000), (0x2000, 0x2000, 6, 6, 1), (0x2000, 0x2000, 9, 9, 12),
   (0x2000, 0x2000, 10, 10, 8),
   (0x2102, 0x2102, 2, 2, 100), (0x2102, 0x2102, 3, 3, 10000), (0x2102, 0x2102, 4, 4, 1000000),
   (0x3800, 0x3800, 2, 2, 96), (0x3800, 0x3800, 3, 3, 128), (0x3801, 0x3801, 1, 1, 200),
   (0x3C01, 0x3C02, 2, 2, 64),
   (0x4401, 0x4401, 10, 10, 12), (0x4401, 0x4401, 1, 15, 3), (0x4402, 0x4402, 1, 15, 10000),
   (0x5320, 0x5320, 1, 1, 1000),
   (0x6010, 0x6017, 4, 4, 1), (0x6010, 0x6017, 5, 5, 30000),
   (0x7000, 0x7000, 4, 4, 64),
   (0x7002, 0x7002, 1, 1, 1), (0x7002, 0x7002, 3, 3, 1), (0x7002, 0x7002, 5, 5, 1)]

def settingDefaultIn (rows : List (Nat × Nat × Nat × Nat × Nat)) (index sub : Nat) : Nat :=
  match rows with
  | [] => 0
  | (i0, i1, s0, s1, v) :: r =>
    if i0 ≤ index ∧ index ≤ i1 ∧ s0 ≤ sub ∧ sub ≤ s1 then v else settingDefaultIn r index sub

def settingD (key : Nat) : Nat := settingDefaultIn settingRows (key / 256) (key % 256)

/-- A setting in force (R489). -/
def State.setting (s : State) (index sub : Nat) : Nat := mapGet settingD s.dict (index * 256 + sub)
def State.setSetting (s : State) (index sub v : Nat) : State :=
  { s with dict := mapSet settingD s.dict (index * 256 + sub) v }

/-! Stored records. -/

def nvD (_ : Nat) : NvRec := NvRec.reset
def nvKey (ty inst : Nat) : Nat := ty * 65536 + inst
def State.nvRec (s : State) (ty inst : Nat) : NvRec := mapGet nvD s.nv.recs (nvKey ty inst)

def NvCopy.seq (c : NvCopy) : Nat := match c with | .valid n _ => n | _ => 0
def NvCopy.value (c : NvCopy) : Option NvVal := match c with | .valid _ v => some v | _ => none

/-- The copy in force: the valid one with the higher SEQ (R444). -/
def NvRec.best (r : NvRec) : NvCopy := if r.a.seq < r.b.seq then r.b else r.a
def NvRec.value (r : NvRec) : Option NvVal := r.best.value

/-- Neither copy is valid, and one holds some byte other than 0xFF (R444). -/
def NvRec.lost (r : NvRec) : Bool := r.value.isNone && (r.a == .damaged || r.b == .damaged)

/-- Replace the copy that is not in force; with neither valid, the first (R443). -/
def NvRec.put (r : NvRec) (c : NvCopy) : NvRec := if r.a.seq < r.b.seq ∨ r.a.seq = 0 then { r with a := c } else { r with b := c }

/-- Write a record and commit it. -/
def State.nvPut (s : State) (ty inst : Nat) (v : NvVal) : State :=
  { s with nv := { s.nv with recs := mapMod nvD s.nv.recs (nvKey ty inst) (fun r => r.put (.valid (r.best.seq + 1) v)) } }

/-- A write cut short before its commit byte. -/
def State.nvCut (s : State) (ty inst : Nat) : State :=
  { s with nv := { s.nv with recs := mapMod nvD s.nv.recs (nvKey ty inst) (fun r => r.put .damaged) } }

def State.nvErase (s : State) (ty inst : Nat) : State :=
  { s with nv := { s.nv with recs := mapSet nvD s.nv.recs (nvKey ty inst) NvRec.reset } }

/-- Request the write of a record (R443) (DEDUCED, log entry 114). -/
def State.nvRequest (s : State) (ty inst : Nat) (v : NvVal) (core : Option MCore) (reply : Option (Nat × Nat × Nat × Nat)) : State :=
  { s with nv := { s.nv with writes := s.nv.writes ++ [{ ty := ty, inst := inst, v := v, core := core, reply := reply }] } }

/-! Ownership, from the partition map in force. -/

/-- Partition owning logical cluster c, by its band (R162). -/
def State.ownerOf (s : State) (c : Nat) : Option Nat :=
  let o := s.pmap.bandOwner.getD (c / 512) 255
  if o < 8 then some o else none

def State.owns (s : State) (p c : Nat) : Bool := s.ownerOf c == some p

/-- Number of clusters of a partition. -/
def State.clusterCount (s : State) (p : Nat) : Nat := 512 * s.pmap.bandOwner.countP (fun o => o == p)

/-- Partition owning page n of a stack (R199). -/
def State.pageOwner (s : State) (stack n : Nat) : Option Nat :=
  (List.range 8).find? (fun p =>
    let r := s.pmap.pages.getD (8 * stack + p) (0, 0)
    decide (r.1 ≤ n) && decide (n < r.1 + r.2))

/-- Does partition p own pages in a stack? -/
def State.ownsPages (s : State) (stack p : Nat) : Bool := decide ((s.pmap.pages.getD (8 * stack + p) (0, 0)).2 ≠ 0)

/-- Partition owning spine group g. -/
def State.groupOwner (s : State) (g : Nat) : Option Nat :=
  (List.range 8).find? (fun p =>
    let f := s.pmap.groupFirst.getD p 0
    decide (f ≤ g) && decide (g < f + s.pmap.groupCount.getD p 0))

def guardD (_ : Nat) : RowGuard := RowGuard.reset

def State.rowGuard (s : State) (r : Nat) : RowGuard := mapGet guardD s.fabric.guards r

/-- Physical column of logical column c in a row (R155). -/
def physCol (g : RowGuard) (c : Nat) : Nat :=
  let p := if c ≥ g.spareA then c + 1 else c
  if p ≥ g.spareB then p + 1 else p

/-- Physical slot, row * 66 + column, of a logical cluster. -/
def State.physSlot (s : State) (c : Nat) : Nat := (c / 64) * 66 + physCol (s.rowGuard (c / 64)) (c % 64)

/-- Physical slot s of a core row whose unused slot is `g` (R69). -/
def physCore (g slot : Nat) : Nat := if slot < g then slot else slot + 1

/-- Row and column fields of an ELEMENT code (Table 12.7). -/
def State.slotBits (s : State) (c : Nat) : Nat :=
  let ps := s.physSlot c
  ps % 66 + 128 * (ps / 66)

def elemCode (cls low : Nat) : Nat := cls * 2 ^ 56 + low

/-- The committed step of a partition: the lowest among the stacks in service that hold its pages (R501). -/
def State.committedStep (s : State) (p : Nat) : Nat :=
  let xs := ((List.range 24).filter (fun st => s.ownsPages st p && (s.stack st).trained)).map
    (fun st => (s.uep st p).committed.toNat)
  match xs with
  | [] => 0
  | x :: r => r.foldl (fun a b => if b < a then b else a) x

/-! Time. -/

/-- Period of the fabric clock in units of 1/168 ns (R425, R432): 20 ns on SAFE, else that of the operating point in
force. -/
def State.fabPeriod (s : State) : Nat :=
  if s.clk.fabOnSafe then 3360 else [105, 120, 140, 210].getD s.clk.opInForce 105

/-- A management cycle, 2.5 ns (Table 15.2). -/
def mgmtPeriod : Nat := 420

/-- LOCAL_NS (R352). -/
def State.localNs (s : State) : Nat := s.clock.time / 168

/-- FRAME_SLOT (R163). -/
def State.frameSlot (s : State) : Nat := s.clock.fab % 256

/-- Torus time in ns (R435). -/
def State.ttNs (s : State) : BitVec 64 := BitVec.ofNat 64 (s.torusTime.tt / 2 ^ 24)

/-- Clusters a regulator domain serves (R394). -/
def domainClusters (mode d : Nat) : List Nat :=
  if mode = 1 then [d]
  else (List.range 16).map (fun i => (d / 32 * 8 + i / 2) * 64 + 2 * (d % 32) + i % 2)

/-- Domain of a logical cluster (R394). -/
def domainOf (mode c : Nat) : Nat := if mode = 1 then c else c / 64 / 8 * 32 + c % 64 / 2

def domainCount (mode : Nat) : Nat := if mode = 1 then 4096 else 256

/-- Set points lie in 0.60 to 0.85 V, in half millivolts (R398). -/
def clampPoint (v : Nat) : Nat := max 1200 (min 1700 v)

/-- The partition whose clusters a domain serves; a domain lies inside one band (R394). -/
def State.domainOwner (s : State) (d : Nat) : Option Nat := s.ownerOf ((domainClusters s.power.mode d).headD 0)

/-- Do the margin sensors of a domain run: is it not in W2 or W3, or on its way out of them (R398, R415)? (DEDUCED, log entry 120.) -/
def State.domainClocked (s : State) (d : Nat) : Bool :=
  match s.domainOwner d with
  | some p => decide ((s.wakeOf p).w < 2) || (s.wakeOf p).due.isSome
  | none => true

/-- The set point a domain holds: 0.60 V in W2, otherwise its last one (R415) (DEDUCED, log entry 120). -/
def State.pointOf (s : State) (d : Nat) : Nat :=
  match s.domainOwner d with
  | some p => if (s.wakeOf p).w = 2 ∧ (s.wakeOf p).due = none then 1200 else (s.domain d).setPoint
  | none => (s.domain d).setPoint

/-- The domains as a wake from W3 begins: those of partition p 20 mV above their last set points (Table 14.6). -/
def State.raisedPoints (s : State) (p : Nat) : SMap Domain :=
  (List.range (domainCount s.power.mode)).foldr (fun d m =>
    let x := s.domain d
    let y := if s.domainOwner d == some p then { x with setPoint := clampPoint (x.setPoint + 40) } else x
    if y = Domain.reset then m else (d, y) :: m) []

/-- A wake event of partition p (R418): it returns to W0 within the latency of its state, out of W3 with its domains at their last set
points and 20 mV more (Table 14.6) (DEDUCED, log entry 122). -/
def State.wakeUp (s : State) (p : Nat) : State :=
  let w := s.wakeOf p
  if 1 ≤ w.w ∧ w.w ≤ 3 ∧ w.due.isNone then
    let s1 := if w.w = 3 then { s with power := { s.power with domains := s.raisedPoints p } } else s
    s1.modWake p (fun x => { x with due := some (s.localNs + wakeLatency x.w) })
  else s

/-- Every dark port that is not retired begins to train: at bring-up and on wake from W4 (Table 10.6). -/
def State.lightPorts (s : State) : State :=
  { s with ports := (List.range 256).foldl (fun m n => mapMod portD m n (fun x => if x.state = 0 then { x with state := 1 } else x)) s.ports }

/-- A wake event of W4 (R420, R481). -/
def State.askWake (s : State) : State :=
  if s.boot.moduleState = 3 ∧ s.power.w4Wake.isNone then ({ s with power := { s.power with w4Wake := some s.localNs } }).lightPorts else s

/-- Stall cycles that n fabric cycles from count `fab` bring with them (R179) (DESIGN CHOICE, log entry 71). -/
def stallsIn (stretch fab n : Nat) : Nat := stretch * ((fab + n) / 16 - fab / 16)

/-- Length of the overlap of [a, b) and [x, y). -/
def overlap (a b x y : Nat) : Nat := min b y - max a x

/-- Add to a 64-bit counter, reporting a carry out of bit 63 (R494). -/
def add64 (v : BitVec 64) (n : Nat) : BitVec 64 × Bool := (v + BitVec.ofNat 64 n, decide (v.toNat + n % 2 ^ 64 ≥ 2 ^ 64))

/-- The value of one of the ten counters, by subindex of Table 9.6. -/
def IdleCounts.get (i : IdleCounts) (sub : Nat) : BitVec 64 :=
  match sub with
  | 1 => i.elapsed | 2 => i.busy | 3 => i.recovery | 4 => i.thermal | 5 => i.weights
  | 6 => i.peer | 7 => i.barrier | 8 => i.reduction | 9 => i.slack | _ => i.openWait

def IdleCounts.put (i : IdleCounts) (sub : Nat) (v : BitVec 64) : IdleCounts :=
  match sub with
  | 1 => { i with elapsed := v } | 2 => { i with busy := v } | 3 => { i with recovery := v }
  | 4 => { i with thermal := v } | 5 => { i with weights := v } | 6 => { i with peer := v }
  | 7 => { i with barrier := v } | 8 => { i with reduction := v } | 9 => { i with slack := v }
  | _ => { i with openWait := v }

/-- Add n cluster-cycles to a live counter. -/
def Idle.add (i : Idle) (sub n : Nat) : Idle :=
  let r := add64 (i.live.get sub) n
  { i with live := i.live.put sub r.1, ovf := if r.2 && !i.ovf.contains sub then i.ovf ++ [sub] else i.ovf }

/-- Subindex of the counter a wait's cause is counted under (Tables 9.5 and 9.6). -/
def WaitCause.sub : WaitCause → Nat
  | .weights => 5 | .peer => 6 | .barrier => 7 | .reduction => 8 | .slack => 9 | .recovery => 3

/-- Cycles of [pc, pc + n) within the T cycles of the cluster's tiles (row 3 of Table 9.4). -/
def busyCycles (ops : List EngOp) (pc n : Nat) : Nat :=
  ops.foldl (fun acc o => acc + if o.unit = 1 then overlap o.f (o.f + o.t) pc (pc + n) else 0) 0

/-- Account n counted fabric cycles and their stalls for one listed cluster (Table 9.4). -/
def accountCluster (run : Bool) (pc n stalls : Nat) (c : Nat) (cl : Cluster) (i : Idle) : Idle :=
  match cl.seq.state with
  | .hold => i.add 3 (n + stalls)
  | .fault | .stopped | .idle | .ready =>
    if run then
      let b := busyCycles cl.ops pc n
      ((i.add 4 stalls).add 2 b).add 9 (n - b)
    else i.add 3 (n + stalls)
  | .run | .wait | .done =>
    let b := busyCycles cl.ops pc n
    let j := (i.add 4 stalls).add 2 b
    match cl.seq.state with
    | .wait => { j.add 10 (n - b) with openBy := mapMod (natD 0) j.openBy c (· + (n - b)) }
    | .done => j.add 7 (n - b)
    | _ => j.add 9 (n - b)

/-- Account one partition over n counted fabric cycles (R279, R281). -/
def accountPart (s : State) (p n stalls : Nat) (i : Idle) : Idle :=
  if !i.running || (s.wakeOf p).w != 0 then i
  else
    let own := s.clusters.filter (fun kv => s.owns p kv.1)
    let run := (s.part p).running
    let rest := s.clusterCount p - own.length
    let i0 := i.add 1 ((n + stalls) * s.clusterCount p)
    let i1 := if run then (i0.add 4 (stalls * rest)).add 9 (n * rest) else i0.add 3 ((n + stalls) * rest)
    own.foldl (fun acc kv => accountCluster run (s.part p).partCycle n stalls kv.1 kv.2 acc) i1

/-- Every elastic flit of partition p that the module holds. -/
def Fabric.elasticOf (f : Fabric) (p : Nat) : List Flit :=
  ((f.departs ++ f.queues ++ f.edges).flatMap Prod.snd).filter (fun x => x.part == p)

/-- Is a partition idle (R417)? -/
def State.partIdle (s : State) (p : Nat) : Bool :=
  s.clusters.all (fun kv => !(s.owns p kv.1) ||
    (!(kv.2.seq.state == .run || kv.2.seq.state == .wait || kv.2.seq.state == .hold) && kv.2.staged.isEmpty))
  && s.ctxs.all (fun kv => !(s.owns p (kv.1 / 4)) || (kv.2.state != 2 && kv.2.state != 4 && kv.2.reqs.isEmpty))
  && !(s.fabric.landings.any (fun l => l.part == p)) && (s.fabric.elasticOf p).isEmpty

/-- The time in which each partition was last not idle, when time moves on to `t` (R416). -/
def State.noteBusy (s : State) (t : Nat) : SMap Wake :=
  (List.range 8).foldl (fun m p => if s.partIdle p then m else mapMod wakeD m p (fun w => { w with lastBusy := t })) s.power.wakes

/-- Torus time over k management cycles (R435, R437): the nominal advance of 2.5 ns, the error being slewed and the fall
of A. -/
def TimeSt.advance (t : TimeSt) (k : Nat) : TimeSt :=
  if !t.locked && !t.noRoot then t else
  let want : Int := t.corr * (k : Int)
  let app : Int := if t.rest ≥ 0 then min want t.rest else max want t.rest
  let slack : Int := 8388 - t.corr.natAbs
  let fall : Nat := min t.ahead (slack.toNat * k)
  { t with
    tt := ((t.tt : Int) + 41943040 * (k : Int) + app - (fall : Int)).toNat
    rest := t.rest - app
    ahead := t.ahead - fall }

/-- n counted fabric cycles with one value of STRETCH: PART_CYCLE of every running partition that is not held, idle
accounting, FRAME_SLOT, LOCAL_NS and torus time. -/
def State.advanceIn (s : State) (n : Nat) : State :=
  let stalls := stallsIn s.fabric.stretch s.clock.fab n
  let t := s.clock.time + (n + stalls) * s.fabPeriod
  { s with
    idles := mapAll idleD s.idles (fun p i => accountPart s p n stalls i)
    parts := mapAll partD s.parts (fun _ q =>
      if q.running && !q.holdActive then { q with partCycle := q.partCycle + n } else q)
    torusTime := s.torusTime.advance (t / mgmtPeriod - s.clock.time / mgmtPeriod)
    power := { s.power with wakes := s.noteBusy t }
    clock := { fab := s.clock.fab + n, time := t } }

/-- n counted fabric cycles; a waiting STRETCH takes effect at FRAME_SLOT 0 (R179) (DESIGN CHOICE, log entry 1).
(DESIGN CHOICE, log entry 71.) -/
def State.advance (s : State) (n : Nat) : State :=
  if n = 0 then s
  else
    let toFrame := 256 - s.clock.fab % 256
    if s.fabric.stretchNext = s.fabric.stretch || n < toFrame then s.advanceIn n
    else
      let s1 := s.advanceIn toFrame
      let s2 := { s1 with fabric := { s1.fabric with stretch := s1.fabric.stretchNext } }
      s2.advanceIn (n - toFrame)

/-- Bring the fabric to count `f`, if it has not passed it (DESIGN CHOICE, log entry 66). -/
def State.atFab (s : State) (f : Nat) : State := s.advance (f - s.clock.fab)

/-- Bring partition p to PART_CYCLE `pc`, if it runs and has not passed it (DESIGN CHOICE, log entry 66). -/
def State.atPart (s : State) (p pc : Nat) : State :=
  let q := s.part p
  if q.running && !q.holdActive then s.advance (pc - q.partCycle) else s

/-- Bring LOCAL_NS to `ns`, in whole fabric cycles (DESIGN CHOICE, log entry 66). -/
def State.atNs (s : State) (ns : Nat) : State :=
  let want := ns * 168
  if want ≤ s.clock.time then s else s.advance ((want - s.clock.time + s.fabPeriod - 1) / s.fabPeriod)

/-- The least number of management cycles, between lo and hi, after which TT is at least `tt`, by halving. -/
def TimeSt.cyclesTo (t : TimeSt) (tt fuel lo hi : Nat) : Nat :=
  match fuel with
  | 0 => hi
  | k + 1 =>
    if hi ≤ lo then hi
    else
      let mid := (lo + hi) / 2
      if tt ≤ (t.advance mid).tt then t.cyclesTo tt k lo mid else t.cyclesTo tt k (mid + 1) hi

/-- Bring torus time to `ns`, in whole fabric cycles, at the rate of its correction; TT that stands still never comes there
(R435, R437). -/
def State.atTorus (s : State) (ns : Nat) : State :=
  let t := s.torusTime
  if !t.locked && !t.noRoot then s
  else
    let k := t.cyclesTo (ns * 2 ^ 24) 64 0 ((ns * 2 ^ 24 - t.tt) / 41934652 + 1)
    let want := (s.clock.time / mgmtPeriod + k) * mgmtPeriod
    s.advance ((want - s.clock.time + s.fabPeriod - 1) / s.fabPeriod)

/-- Do `f` as of fabric cycle `fab`: the clock stands there for what `f` notes, and is then as before. -/
def State.asOf (s : State) (fab : Nat) (f : State → State) : State :=
  let t := f { s with clock := { fab := fab, time := s.clock.time + fab * s.fabPeriod - s.clock.fab * s.fabPeriod } }
  { t with clock := s.clock }

/-- The same for an operation that also answers something. -/
def State.asOfPair {α : Type} (s : State) (fab : Nat) (f : State → α × State) : α × State :=
  let t := f { s with clock := { fab := fab, time := s.clock.time + fab * s.fabPeriod - s.clock.fab * s.fabPeriod } }
  (t.1, { t.2 with clock := s.clock })

/-- The PART_CYCLE a cluster sees. -/
def State.partCycleOf (s : State) (c : Nat) : Nat :=
  match s.ownerOf c with
  | some p => (s.part p).partCycle
  | none => 0

/-! Counters, elements, fault records. -/

/-- Number of a counter: scalar I.s with element 0, or element n of the array I.s (R493). -/
def counterKey (index sub elem : Nat) : Nat := (index * 256 + sub) * 8192 + elem

def State.counter (s : State) (k : Nat) : Counter := mapGet counterD s.counters k

/-- Increment a counter (R494). -/
def State.count (s : State) (k n : Nat) : State :=
  { s with counters := mapMod counterD s.counters k (fun x =>
      let r := add64 x.value n
      { x with value := r.1, ovf := x.ovf || r.2 }) }

/-! Events (R479, R480). -/

/-- Give an event to a session: held and sent when fewer than 256 are held, else discarded and counted (DEDUCED, log entry 127). -/
def Session.take (x : Session) (e : MEvent) : Session :=
  if x.mask.getLsbD e.cls then
    if x.events.length < 256 then
      { x with
        eventSeq := x.eventSeq + 1, events := x.events ++ [{ e with seq := x.eventSeq + 1 }]
        sentAt := if x.events.isEmpty then e.ns else x.sentAt }
    else { x with lost := x.lost + 1 }
  else x

/-- Raise an event of a class of Table 17.6: to every session that subscribes to it, and to the chassis port as an in-band
interrupt when its mask has the class (R479, R480, R482) (DEDUCED, log entry 127). -/
def State.raiseEvent (s : State) (cls index sub : Nat) (detail : List Nat) : State :=
  let e : MEvent := { seq := 0, cls := cls, ns := s.localNs, tt := s.ttNs, epoch := s.torusTime.epoch, index := index,
                      sub := sub, detail := detail }
  let gone := s.maunvo.sessions.countP (fun kv => kv.2.mask.getLsbD cls && decide (256 ≤ kv.2.events.length))
  let sent := s.maunvo.sessions.filterMap (fun kv =>
    if kv.2.mask.getLsbD cls && decide (kv.2.events.length < 256) then
      some (Out.event kv.1 { e with seq := kv.2.eventSeq + 1 }) else none)
  let ibi := if (s.setting 0x1100 8).testBit cls then [Out.ibi cls] else []
  let s1 := if gone = 0 then s else s.count (counterKey 0x5011 6 0) gone
  { s1 with
    maunvo := { s1.maunvo with sessions := mapAll sessionD s1.maunvo.sessions (fun _ x => x.take e) }
    out := s1.out ++ sent ++ ibi }

/-- A report on the UART console, while the pins carry it (R511, R517). -/
def State.say (s : State) (kind value : Nat) : State :=
  if (s.pinGroup 1).fn = 1 then s.emit (.console kind value) else s

/-- Log a fault record (R365): the log, its event and its line on the console (R366, R479, R517). -/
def State.log (s : State) (cls count part cause action element : Nat) (detail : Word) : State :=
  let r : FaultRec :=
    { seq := s.faults.seq + 1, boot := s.faults.boot, cls := cls, count := count, ns := s.localNs, tt := s.ttNs,
      epoch := s.torusTime.epoch, part := part, cause := cause, action := action, element := element,
      step := if part < 8 then s.committedStep part + 1 else 0, detail := detail }
  let full := decide (s.faults.log.length ≥ 4096)
  let oldest := (s.faults.log.headD r).seq
  let s1 := { s with faults := { s.faults with
      seq := s.faults.seq + 1
      logLost := if full && s.faults.unread.contains oldest then s.faults.logLost + 1 else s.faults.logLost
      unread := (if full then s.faults.unread.filter (· != oldest) else s.faults.unread) ++ [r.seq]
      log := (if full then s.faults.log.drop 1 else s.faults.log) ++ [r] } }
  (s1.raiseEvent 1 0x4000 3 [r.seq, cls, action, part]).say 1 r.seq

def elemD (_ : Nat) : Elem := Elem.reset

/-- Number put in PARTITION fields: 0xFF for none. -/
def partNo (p : Option Nat) : Nat := p.getD 255

/-- The lowest INSTANCE no retirement record in force holds (R528). -/
def freeInstance (recs : List RetRec) : Nat :=
  ((List.range (recs.length + 1)).find? (fun i => recs.all (fun r => r.inst != i))).getD recs.length

/-- Stamps of `old` that lie less than W before `now` (R366). -/
def stampsWithin (old : List Nat) (now w : Nat) : Nat := (old.filter (fun t => decide (now - t < w))).length

/-- Does the event at `now` reach the threshold, K events within W (R352)? -/
def reaches (old : List Nat) (now k w : Nat) : Bool :=
  if k ≤ 1 then true
  else match old[k - 2]? with
    | some t => decide (now - t < w)
    | none => false

/-- What an event does besides being stamped: whether reaching the threshold marks the element with a retirement record,
and whether it retires at its first event (second rows of classes 0x0C and 0x0F). -/
inductive EventKind where
  | marking | single | plain
  deriving DecidableEq, Repr

/-- Mark an element for retirement: its record is to be written (R354, R356, R528), and the marking is logged. -/
def State.markElement (s : State) (element : Nat) (part : Option Nat) (cause : Nat) (detail : Word) : State :=
  let seq := s.faults.seq + 1
  let s1 := s.log (element / 2 ^ 56) 1 (partNo part) cause 5 element detail
  let r : RetRec :=
    { inst := freeInstance s1.faults.recs, element := element, state := 0, part := partNo part, boot := s1.faults.boot,
      faultSeq := seq, ns := s1.localNs, stateNs := s1.localNs, committed := false }
  { s1 with faults := { s1.faults with
      recs := s1.faults.recs ++ [r]
      elems := mapMod elemD s1.faults.elems element (fun e => { e with marked := true }) } }

/-- One detected event on one element (R352 to R354, R366): stamp, count, log, and mark at the threshold. Answers the
state and whether this event reached the threshold on an unmarked element. -/
def State.elementEvent (s : State) (element : Nat) (kind : EventKind) (uncorr : Bool) (part : Option Nat)
    (cause action : Nat) (detail : Word) : State × Bool :=
  let cls := element / 2 ^ 56
  let k := if cls = 0x0D then 3 else s.setting 0x4401 cls
  let w := s.setting 0x4402 cls * 1000000
  let e := mapGet elemD s.faults.elems element
  let now := s.localNs
  let earlier := stampsWithin e.stamps now w
  let hit := !e.marked && (match kind with | .single => true | _ => reaches e.stamps now k w)
  let s1 := s.count (counterKey 0x5010 cls 0) 1
  let s2 := { s1 with faults := { s1.faults with
      elems := mapMod elemD s1.faults.elems element (fun x => { x with stamps := (now :: x.stamps).take 15 }) } }
  let s3 := if uncorr || earlier ≤ k then s2.log cls (earlier + 1) (partNo part) cause action element detail else s2
  let s4 := if hit then (match kind with | .plain => s3 | _ => s3.markElement element part cause detail) else s3
  (s4, hit)

/-! The lease (R446). -/

/-- Code of a core in HOLDER. -/
def coreCode (w : MCore) : Nat := match w with | .a => 1 | .b => 2

/-- Does a core hold the lease with time left? (DEDUCED, log entry 116). -/
def State.holdsLease (s : State) (w : MCore) : Bool :=
  s.lease.holder == coreCode w && decide (s.localNs < s.lease.expires)

/-- A guarded write by a core: performed when the core holds the lease, else refused and counted (R446) (DEDUCED, log entry 116). -/
def State.guarded (s : State) (w : MCore) (t : State) : State :=
  if s.holdsLease w then t else { s with lease := { s.lease with refused := s.lease.refused + 1 } }

/-- A register write by binding load or by a core (R70, R103, R446). -/
def State.guardedBy (s : State) (w : Writer) (t : State) : State :=
  match w with
  | .binding => t
  | .coreA => s.guarded .a t
  | .coreB => s.guarded .b t

/-! Partition stop. -/

/-- Codes of STOP_CAUSE (Table 16.6). -/
def stopHost : Nat := 1
def stopFault : Nat := 2
def stopRetirement : Nat := 3
def stopSession : Nat := 4
def stopTimeout : Nat := 5
def stopPower : Nat := 6

/-- Raise partition stop on the spine (R94, R95), for a partition that runs or whose START is on its way; a stop already raised
stands. It reaches the clusters 48 fabric cycles later. -/
def State.raiseStop (s : State) (p : Nat) (why : Nat) : State :=
  if ((s.part p).running || (s.part p).startRaised.isSome) && (s.part p).stopRaised.isNone then
    s.modPart p (fun q => { q with stopRaised := some s.clock.fab, stopCause := why })
  else s

/-- Is partition p stopped: it neither runs nor stops, and no START is on its way? -/
def State.partStopped (s : State) (p : Nat) : Bool :=
  !(s.part p).running && (s.part p).stopping.isNone && (s.part p).startRaised.isNone

/-- Raise partition stop for every partition. -/
def State.raiseStopAll (s : State) (why : Nat) : State :=
  (List.range 8).foldl (fun t p => t.raiseStop p why) s

/-- A cluster raises a fault cause (Table 3.11, R95): FAULT with the cause and the descriptor, a fault record, and
partition stop. A cluster already in FAULT keeps its first cause. -/
def State.clusterFault (s : State) (c cause desc : Nat) : State :=
  if (s.cluster c).seq.state = .fault then s
  else
    let s1 := s.modCluster c (fun x => { x with seq := { x.seq with
      state := .fault, cause := cause, causeDesc := desc, ending := false, holdReq := false } })
    let s2 := s1.log 0x10 1 (partNo (s.ownerOf c)) cause 4 (elemCode 0x10 (s.slotBits c)) 0
    match s.ownerOf c with
    | some p => s2.raiseStop p stopFault
    | none => s2

/-- A cluster raises a fault cause `delay` fabric cycles from now. -/
def State.clusterFaultIn (s : State) (c cause desc delay : Nat) : State :=
  s.asOf (s.clock.fab + delay) (fun t => t.clusterFault c cause desc)

/-- The index of the descriptor a fault of the running sequencer names. -/
def State.curDesc (s : State) (c : Nat) : Nat := (s.cluster c).seq.pc

end Sys2Proof.Machine
end

