-- ==== Sys2Proof/Machine/ClusterMem.lean ====
section
/-! DEFINITION. Cluster memory (chapter 4): the bank words with their code, reads with their events, writes with the flip
mask, circular regions, and the byte-coded memories of the quire and the stream contexts. -/

namespace Sys2Proof.Machine

open Sys2Proof

/-- Is a word in the banks (Table 4.1)? -/
def inBanks (w : Nat) : Bool := decide (w < 0xA00000)

/-- Is a bank word near? -/
def isNear (w : Nat) : Bool := decide (w < 0x200000)

/-- Bank, row and word in line of a bank word (R108). -/
def bankOf (w : Nat) : Nat := if isNear w then bitsN w 8 2 else 128 + bitsN (w - 0x200000) 10 2
def rowOf (w : Nat) : Nat := if isNear w then bitsN w 20 9 else bitsN (w - 0x200000) 22 11

/-- Read latency of a word's bank class (R110), and cycles from the issue of a write to its effect (R111). -/
def readLat (w : Nat) : Nat := if isNear w then 6 else 9
def writeLat (w : Nat) : Nat := if isNear w then 2 else 4

/-- Where the bytes of a cluster word start in the sparse memories. -/
def cellBase (c w : Nat) : Nat := (c * 2 ^ 24 + w) * 8

/-- Stored data and check field of a bank word. -/
def State.rawWord (s : State) (c w : Nat) : Nat × Nat :=
  (leNat (s.cmem.readList (cellBase c w) 4), (s.cmem.read (cellBase c w + 4)).toNat)

/-- Store raw data and check bits. -/
def State.putRaw (s : State) (c w data check : Nat) : State :=
  { s with cmem := s.cmem.writeList (cellBase c w) (leBytes 4 data ++ [BitVec.ofNat 8 check]) }

/-- What a read of a bank word finds (R127, R129). -/
def State.decodeWord (s : State) (c w : Nat) : Decoded :=
  let r := s.rawWord c w
  code39.decode poison39 r.1 r.2

/-- The word a read delivers: an uncorrectable word or poison comes as data 0 with the poison tag (R127, R129). -/
def Decoded.word (d : Decoded) : PWord :=
  match d.outcome with
  | .clean | .corrected => ⟨BitVec.ofNat 32 d.data, false⟩
  | .uncorrectable | .poison => ⟨0, true⟩

def State.peekWord (s : State) (c w : Nat) : PWord := (s.decodeWord c w).word

/-- Is a word in a resident range of the cluster (R121)? -/
def Cluster.isResident (cl : Cluster) (w : Nat) : Bool :=
  cl.resid.any (fun kv => kv.2.en && decide (kv.2.base ≤ w) && decide (w < kv.2.limit))

/-- The registers and records a read of one word leaves behind (R130, R131, R352, R363). -/
def State.noteRead (s : State) (c w : Nat) : State :=
  let d := s.decodeWord c w
  let lastErr (u : Nat) : Word :=
    BitVec.ofNat 32 (bankOf w + 2 ^ 10 * rowOf w + 2 ^ 22 * (w % 4) + 2 ^ 24 * (d.syndrome % 64) + 2 ^ 30 * d.parity
      + 2 ^ 31 * u)
  let bank := elemCode 0x06 (s.slotBits c + 2 ^ 13 * bankOf w)
  let spoil (t : State) : State :=
    if (t.cluster c).isResident w && !t.faults.zeroNext.contains c then
      { t with faults := { t.faults with zeroNext := t.faults.zeroNext ++ [c] } }
    else t
  match d.outcome with
  | .clean => s
  | .corrected =>
    let s1 := s.modCluster c (fun x => { x with mem := { x.mem with
      ceSeen := true, ceEvents := satInc 16 x.mem.ceEvents, lastErr := lastErr 0 } })
    let s2 := s1.count (counterKey 0x5100 4 (s.physSlot c)) 1
    (s2.elementEvent bank .marking false (s.ownerOf c) 0 2 (lastErr 0)).1
  | .uncorrectable =>
    let s1 := s.modCluster c (fun x => { x with mem := { x.mem with
      ueSeen := true, ueEvents := satInc 16 x.mem.ueEvents, lastErr := lastErr 1 } })
    let s2 := s1.count (counterKey 0x5100 5 (s.physSlot c)) 1
    spoil (s2.elementEvent bank .marking true (s.ownerOf c) 0 3 (lastErr 1)).1
  | .poison =>
    let s1 := s.modCluster c (fun x => { x with mem := { x.mem with poisonSeen := true } })
    let s2 := s1.count (counterKey 0x5100 6 (s.physSlot c)) 1
    spoil (s2.count (counterKey 0x5011 3 0) 1)

/-- Read a list of words, in order, with everything their reads leave behind. -/
def State.readWords (s : State) (c : Nat) (ws : List Nat) : List PWord × State :=
  (ws.map (s.peekWord c), ws.foldl (fun t w => t.noteRead c w) s)

/-- Is a write of word `w` issued in fabric cycle `now` eligible for the flip mask (R133)? It takes effect 2 or 4 cycles
later. -/
def Flip.eligible (f : Flip) (now w : Nat) : Bool :=
  f.arm && decide (f.word = w % 4) && (!f.bankEn || decide (f.bank = bankOf w)) && decide (f.armedAt < now + writeLat w)

/-- Write one word: data with its check bits, or the poison encoding; the flip mask applies to the first eligible write
(R129, R133). -/
def State.writeWord (s : State) (c w : Nat) (v : PWord) : State :=
  let data := if v.poison then 0 else v.w.toNat
  let check := if v.poison then poisonCheck39 else code39.check data
  let f := (s.cluster c).flip
  if f.eligible s.clock.fab w then
    (s.modCluster c (fun x => { x with flip := { x.flip with arm := false } })).putRaw c w
      (data ^^^ f.data.toNat) (check ^^^ f.check.toNat)
  else s.putRaw c w data check

/-- Write consecutive words from `w` up. -/
def State.writeWords (s : State) (c w : Nat) (vs : List PWord) : State :=
  match vs with
  | [] => s
  | v :: r => (s.writeWord c w v).writeWords c (w + 1) r

/-- Put a word write into a list kept in order of bank. -/
def byBank (x : Nat × PWord) (l : List (Nat × PWord)) : List (Nat × PWord) :=
  match l with
  | [] => [x]
  | y :: r => if bankOf x.1 < bankOf y.1 then x :: y :: r else y :: byBank x r

/-- The writes of one cycle, in order of bank while the flip mask is armed: of several eligible ones it strikes the lowest bank
(R133) (DEDUCED, log entry 75). -/
def State.writeCycle (s : State) (c : Nat) (ws : List (Nat × PWord)) : State :=
  let l := if (s.cluster c).flip.arm then ws.foldr byBank [] else ws
  l.foldl (fun t x => if inBanks x.1 then t.writeWord c x.1 x.2 else t) s

/-! Circular regions. -/

def circD (_ : Nat) : Circ := Circ.reset
def resD (_ : Nat) : Res := Res.reset

def Cluster.region (cl : Cluster) (r : Nat) : Circ := mapGet circD cl.circ r
def Cluster.range (cl : Cluster) (n : Nat) : Res := mapGet resD cl.resid n

/-- SIZE, and the occupancy O (R116). -/
def Circ.size (r : Circ) : Nat := 2 ^ r.sizeLog2
def Circ.occ (r : Circ) : Nat := (r.head - r.tail).toNat

/-- Word a pointer value addresses (R116). -/
def Circ.wordAt (r : Circ) (p : Nat) : Nat := r.base.toNat + p % r.size

/-- May a region be enabled (R117)? -/
def Circ.legal (r : Circ) : Bool :=
  let b := r.base.toNat
  r.base.toNat % 4 == 0 && decide (2 ≤ r.sizeLog2) && decide (r.sizeLog2 ≤ 23)
    && (decide (b + r.size ≤ 0x200000) || (decide (0x200000 ≤ b) && decide (b + r.size ≤ 0xA00000)))

/-- Lines that `n` words fill. -/
def linesOf (n : Nat) : Nat := (n + 3) / 4

/-- The region with its counts for fabric cycle `fab`: in a new cycle, the occupancy now is that at the end of the cycle before. -/
def Circ.inCycle (q : Circ) (fab : Nat) : Circ :=
  if q.stamp = fab + 1 then q
  else { q with stamp := fab + 1, before := q.occ, wrTested := 0, wrMoved := 0, rdTested := 0, rdMoved := 0 }

/-- The full and empty tests of R118 in fabric cycle `fab`: for n more scheduled lines, tested together with those tested in the
cycle before them; and for n unscheduled lines, against what the lines moved in the cycle leave. -/
def Circ.admitsWrite (q : Circ) (fab n : Nat) : Bool :=
  decide ((q.inCycle fab).before + 4 * ((q.inCycle fab).wrTested + n) ≤ q.size)
def Circ.admitsRead (q : Circ) (fab n : Nat) : Bool :=
  decide (4 * ((q.inCycle fab).rdTested + n) ≤ (q.inCycle fab).before)
def Circ.hasRoom (q : Circ) (fab n : Nat) : Bool :=
  decide ((q.inCycle fab).before + 4 * ((q.inCycle fab).wrMoved + n) ≤ q.size)
def Circ.hasLines (q : Circ) (fab n : Nat) : Bool :=
  decide (4 * ((q.inCycle fab).rdMoved + n) ≤ (q.inCycle fab).before)

def State.modCirc (s : State) (c r : Nat) (f : Circ → Circ) : State :=
  s.modCluster c (fun x => { x with circ := mapMod circD x.circ r f })

/-- Crossbar delay of a region's lines (R111). -/
def Circ.delay (q : Circ) : Nat := writeLat q.base.toNat

/-- Words of a region from pointer value `p` on, with what is to be written there. -/
def Circ.placed (q : Circ) (p : Nat) (vs : List PWord) : List (Nat × PWord) :=
  vs.zipIdx.map (fun vi => (q.wordAt (p + vi.2), vi.1))

/-- Advance the head past the lines of n words, moved in this cycle (R116). -/
def State.headPast (s : State) (c r n : Nat) : State :=
  s.modCirc c r (fun x =>
    let y := x.inCycle s.clock.fab
    { y with head := y.head + BitVec.ofNat 24 (4 * linesOf n), wrMoved := y.wrMoved + linesOf n })

/-- Write words at the head of a region, which advances by 4 per line; the rest of the last line keeps its words
(R109, R116). -/
def State.circWrite (s : State) (c r : Nat) (vs : List PWord) : State :=
  let q := (s.cluster c).region r
  (s.writeCycle c (q.placed q.head.toNat vs)).headPast c r vs.length

/-- Read words at the tail of a region, at places `sel` of the n lines by which the tail advances (R116). -/
def State.circRead (s : State) (c r n : Nat) (sel : List Nat) : List PWord × State :=
  let q := (s.cluster c).region r
  let res := s.readWords c (sel.map (fun i => q.wordAt (q.tail.toNat + i)))
  (res.1, res.2.modCirc c r (fun x =>
    let y := x.inCycle s.clock.fab
    { y with tail := y.tail + BitVec.ofNat 24 (4 * n), rdMoved := y.rdMoved + n }))

/-- All the words of n lines. -/
def allWords (n : Nat) : List Nat := List.range (4 * n)

/-- Count n scheduled lines as tested in this cycle. -/
def State.testWrite (s : State) (c r n : Nat) : State :=
  s.modCirc c r (fun x => let y := x.inCycle s.clock.fab; { y with wrTested := y.wrTested + n })
def State.testRead (s : State) (c r n : Nat) : State :=
  s.modCirc c r (fun x => let y := x.inCycle s.clock.fab; { y with rdTested := y.rdTested + n })

/-- A failed test of a scheduled access: CIRC_FAULT, and the cause, raised when the access would have reached its bank (R111,
R119). -/
def State.circFault (s : State) (c r cause desc : Nat) : State :=
  (s.modCluster c (fun x => { x with mem := { x.mem with circFault := true } })).clusterFaultIn c cause desc
    ((s.cluster c).region r).delay

/-! The byte-coded memories (R132). -/

/-- Write byte i of a word, with its own check field; its neighbours are not read. -/
def State.putByte (s : State) (c w i : Nat) (b : Byte) : State :=
  { s with qmem := (s.qmem.writeList (cellBase c w + i) [b]).writeList (cellBase c w + 4 + i) [BitVec.ofNat 8 (code13.check b.toNat)] }

/-- Write the four bytes of a word. -/
def State.putByteCoded (s : State) (c w : Nat) (v : Word) : State :=
  (leBytes 4 v.toNat).zipIdx.foldl (fun t bi => t.putByte c w bi.2 bi.1) s

/-- Read a word; none when a byte is uncorrectable. -/
def State.getByteCoded (s : State) (c w : Nat) : Option Word :=
  let bs := (List.range 4).map (fun i =>
    code13.decode none (s.qmem.read (cellBase c w + i)).toNat (s.qmem.read (cellBase c w + 4 + i)).toNat)
  if bs.any (fun d => d.outcome == .uncorrectable) then none
  else some (BitVec.ofNat 32 (leNat (bs.map (fun d => BitVec.ofNat 8 d.data))))

/-- First word of the quire memory and of a context's block (Table 4.1, R216). -/
def quireBase : Nat := 0xFE0000
def ctxBase (k : Nat) : Nat := 0xFE8000 + 1024 * k

/-- Zero every cell of cluster c whose word satisfies `p` in one of the sparse memories. -/
def zeroCells (m : Memory) (c : Nat) (p : Nat → Bool) : Memory :=
  mapClear m (fun a => a / 8 / 2 ^ 24 == c && p (a / 8 % 2 ^ 24))

/-- What hardware zeroing of one cluster writes (R122): the given bank words and, if asked, quire and stream-context
memory; every HEAD and TAIL returns to 0 and the flip mask is disarmed. -/
def State.zeroCluster (s : State) (c : Nat) (bank : Nat → Bool) (coded : Bool) : State :=
  let s1 := { s with
    cmem := zeroCells s.cmem c bank
    qmem := if coded then zeroCells s.qmem c (fun _ => true) else s.qmem }
  s1.modCluster c (fun x => { x with
    circ := mapAll circD x.circ (fun _ r => { r with head := 0, tail := 0 })
    flip := { x.flip with arm := false } })

/-- Fabric cycles in which a cluster zeroes its memories (Table 4.6). -/
def zeroCycles : Nat := 4096

/-- Hardware zeroing of one cluster begins: ZERO_BUSY until its last write has taken effect (R123). -/
def State.zeroing (s : State) (c : Nat) (bank : Nat → Bool) (coded : Bool) : State :=
  (s.zeroCluster c bank coded).modCluster c (fun x => { x with zeroBusy := true, zeroUntil := s.clock.fab + zeroCycles })

end Sys2Proof.Machine
end

