-- ==== Sys2Proof/Machine/Num.lean ====
section
/-! DEFINITION. The number formats and their arithmetic (02_number_formats R30 to R67): decoding, the two rounding
modes, saturation, flush, the flags, block scales and the stochastic-rounding generator. A decoded number is exact: a
sign and m times two to the e; a result is computed exactly and rounded once. -/

namespace Sys2Proof.Machine

open Sys2Proof

/-- The four sticky flags of Table 2.9: bit 0 NX, bit 1 UF, bit 2 OF, bit 3 NV. -/
abbrev FlagBits := BitVec 4

def flNX : FlagBits := 1#4
def flUF : FlagBits := 2#4
def flOF : FlagBits := 4#4
def flNV : FlagBits := 8#4

/-- A decoded number: NaN, or (-1)^neg * m * 2^e exactly; m = 0 is the zero of that sign. -/
inductive Num where
  | nan
  | val (neg : Bool) (m : Nat) (e : Int)
  deriving DecidableEq, Repr

def Num.zero (neg : Bool) : Num := .val neg 0 0

def Num.isNan (n : Num) : Bool := match n with | .nan => true | .val .. => false

def Num.isZero (n : Num) : Bool := match n with | .nan => false | .val _ m _ => m == 0

def Num.neg (n : Num) : Bool := match n with | .nan => false | .val s _ _ => s

/-- A number nonzero and not NaN. -/
def Num.finiteNonzero (n : Num) : Bool := !n.isNan && !n.isZero

/-- A floating-point format of Table 2.4. -/
structure FloatFmt where
  expBits : Nat
  fracBits : Nat
  bias : Nat
  /-- Encoding of MAX, positive sign. -/
  maxCode : Nat
  /-- Canonical NaN (Table 2.5). -/
  nanCode : Nat
  deriving DecidableEq, Repr

def fmtFP32 : FloatFmt := ⟨8, 23, 127, 0x7F7FFFFF, 0x7FC00000⟩
def fmtBF16 : FloatFmt := ⟨8, 7, 127, 0x7F7F, 0x7FC0⟩
def fmtE4M3 : FloatFmt := ⟨4, 3, 7, 0x7E, 0x7F⟩
def fmtE5M2 : FloatFmt := ⟨5, 2, 15, 0x7B, 0x7E⟩

/-- Bit length of a number: 0 for 0, else one more than the base-2 logarithm. -/
def bitLen (n : Nat) : Nat := if n = 0 then 0 else Nat.log2 n + 1

/-- The value a code reads as (Table 2.4, R37): a magnitude above MAX is a code read as NaN; a subnormal is a zero of
the same sign. -/
def FloatFmt.decode (f : FloatFmt) (code : Nat) : Num :=
  let w := f.expBits + f.fracBits
  let neg := bitN code w
  let mag := code % 2 ^ w
  let ex := mag / 2 ^ f.fracBits
  let fr := mag % 2 ^ f.fracBits
  if mag > f.maxCode then .nan
  else if ex = 0 then .zero neg
  else .val neg (2 ^ f.fracBits + fr) ((ex : Int) - (f.bias : Int) - (f.fracBits : Int))

/-- Put a sign on a magnitude code. -/
def FloatFmt.signed (f : FloatFmt) (neg : Bool) (mag : Nat) : Nat :=
  b2n neg * 2 ^ (f.expBits + f.fracBits) + mag

/-- Rounding mode (R42, R43): to nearest even, or stochastic with the 16-bit draw. -/
inductive Rnd where
  | rne
  | sr (draw : Nat)
  deriving DecidableEq, Repr

/-- m1*2^e1 < m2*2^e2. -/
def magLt (m1 : Nat) (e1 : Int) (m2 : Nat) (e2 : Int) : Bool :=
  if e1 ≤ e2 then decide (m1 < m2 * 2 ^ (e2 - e1).toNat) else decide (m1 * 2 ^ (e1 - e2).toNat < m2)

/-- Does a quotient q with remainder r of a division by g (0 <= r < g) round up (R42, R43)? -/
def roundsUp (rnd : Rnd) (q r g : Nat) : Bool :=
  match rnd with
  | .rne => decide (2 * r > g) || (decide (2 * r = g) && q % 2 == 1)
  | .sr draw => decide (draw < r * 65536 / g)

/-- Round an exact number to a floating-point format (R42 to R47): a magnitude above MAX saturates with OF and NX; a
rounded magnitude below MIN becomes a zero of the same sign with UF and NX; NX when the result is not exact. -/
def FloatFmt.round (f : FloatFmt) (rnd : Rnd) (x : Num) : Nat × FlagBits :=
  match x with
  | .nan => (f.nanCode, flNV)
  | .val neg m e =>
    if m = 0 then (f.signed neg 0, 0)
    else
      let mx := match f.decode f.maxCode with | .val _ mm me => (mm, me) | .nan => (0, 0)
      if magLt mx.1 mx.2 m e then (f.signed neg f.maxCode, flOF ||| flNX)
      else
        let len := bitLen m
        let keep := f.fracBits + 1
        let sh : Int := (len : Int) - (keep : Int)
        let (q, ex, inexact) :=
          if sh ≤ 0 then (m * 2 ^ (-sh).toNat, e + sh, false)
          else
            let g := 2 ^ sh.toNat
            let q := m / g
            let r := m % g
            let q' := if roundsUp rnd q r g then q + 1 else q
            if q' = 2 ^ keep then (q' / 2, e + sh + 1, r != 0) else (q', e + sh, r != 0)
        let biased : Int := ex + f.bias + f.fracBits
        if biased ≤ 0 then (f.signed neg 0, flUF ||| flNX)
        else (f.signed neg (biased.toNat * 2 ^ f.fracBits + (q - 2 ^ f.fracBits)), if inexact then flNX else 0)

/-- FP32 decoding and the FP32 rounding every accumulation uses (R63). -/
def decF32 (w : Word) : Num := fmtFP32.decode w.toNat

def roundF32 (x : Num) : Word × FlagBits :=
  let r := fmtFP32.round .rne x
  (BitVec.ofNat 32 r.1, r.2)

/-- Product of two numbers, exact; the sign of a zero product is the exclusive or of the signs (R48). -/
def Num.mul (a b : Num) : Num :=
  match a, b with
  | .val s m e, .val t n f => .val (s != t) (m * n) (if m * n = 0 then 0 else e + f)
  | _, _ => .nan

/-- Scale by a power of two. -/
def Num.scale (a : Num) (k : Int) : Num :=
  match a with
  | .nan => .nan
  | .val s m e => .val s m (if m = 0 then 0 else e + k)

def Num.negate (a : Num) : Num :=
  match a with
  | .nan => .nan
  | .val s m e => .val (!s) m e

def Num.abs (a : Num) : Num :=
  match a with
  | .nan => .nan
  | .val _ m e => .val false m e

/-- The signed integer of a number at exponent `e0`, which is no larger than its own. -/
def Num.intAt (a : Num) (e0 : Int) : Int :=
  match a with
  | .nan => 0
  | .val s m e => if m = 0 then 0 else (if s then -1 else 1) * ((m * 2 ^ (e - e0).toNat : Nat) : Int)

/-- Least exponent among the nonzero terms. -/
def minExp (xs : List Num) : Int :=
  xs.foldl (fun acc x => match x with
    | .nan => acc
    | .val _ m e => if m = 0 then acc else if e < acc then e else acc) 100000

/-- The exact sum of terms none of which is NaN, with the zero signs of R48: an exact zero is +0 unless there are terms
and every one is -0. -/
def sumExact (xs : List Num) : Num :=
  let e0 := minExp xs
  let t := xs.foldl (fun acc x => acc + x.intAt e0) (0 : Int)
  if t = 0 then .zero (!xs.isEmpty && xs.all (fun x => x.isZero && x.neg))
  else .val (decide (t < 0)) t.natAbs e0

/-- Sum of two numbers with one rounding to FP32 (R63, R233). A NaN term gives the canonical NaN and NV (R49). -/
def addF32 (a b : Word) : Word × FlagBits :=
  let x := decF32 a
  let y := decF32 b
  if x.isNan || y.isNan then (0x7FC00000#32, flNV) else roundF32 (sumExact [x, y])

/-- Is |a| < |b|, = or >, as signed numbers: -1, 0 or 1; both not NaN. The two zeros are equal. -/
def Num.cmp (a b : Num) : Int :=
  let e0 := minExp [a, b]
  let x := a.intAt e0
  let y := b.intAt e0
  if x < y then -1 else if x = y then 0 else 1

/-! Block formats. -/

/-- The magnitudes of a table format in units of its `unit`: index = magnitude code (Tables 2.2, 2.3, R40). -/
structure BlockFmt where
  bits : Nat
  mags : List Nat
  /-- the value of one unit is 2^unitExp times the block scale -/
  unitExp : Int
  /-- TOP of R51 in units -/
  top : Nat
  block : Nat
  deriving DecidableEq, Repr

def blkUF4 : BlockFmt := ⟨4, [0, 1, 2, 4, 6, 8, 12, 16], -2, 16, 32⟩
def blkT2 : BlockFmt := ⟨2, [0, 1], 0, 1, 32⟩
def blkBS8 : BlockFmt := ⟨8, List.range 128, 0, 127, 128⟩

/-- Canonical NaN code of a block format (Table 2.5). -/
def BlockFmt.nanCode (b : BlockFmt) : Nat := 2 ^ (b.bits - 1)

/-- The code of a sign and a magnitude index: sign-magnitude for UF4, two's complement for T2 and BS8; one zero (R32). -/
def BlockFmt.code (b : BlockFmt) (neg : Bool) (i : Nat) : Nat :=
  if i = 0 then 0
  else if !neg then i
  else if b.bits = 4 then 8 + i else 2 ^ b.bits - i

/-- The value of an element with the E8 scale byte of its block (R31, R33, R38, R40). -/
def BlockFmt.decode (b : BlockFmt) (code scale : Nat) : Num :=
  let c := code % 2 ^ b.bits
  if scale = 255 || c = b.nanCode then .nan
  else
    let neg := decide (c ≥ 2 ^ (b.bits - 1))
    let i := if neg then (if b.bits = 4 then c - 8 else 2 ^ b.bits - c) else c
    let m := b.mags.getD i 0
    if m = 0 then .zero false else .val neg m (b.unitExp + (scale : Int) - 127)

/-- Split a magnitude at its place in a table of rising magnitudes: the index of the greatest entry that is at most n/g,
given n and g (g > 0). -/
def tableFloor (mags : List Nat) (n g : Nat) : Nat :=
  (mags.takeWhile (fun a => decide (a * g ≤ n))).length - 1

/-- Round an exact number to a block format under an E8 scale (R42, R43, R45, R46): code and flags. In MEAN mode a
magnitude above the top sets NX only (R52). -/
def BlockFmt.round (b : BlockFmt) (rnd : Rnd) (mean : Bool) (x : Num) (scale : Nat) : Nat × FlagBits :=
  match x with
  | .nan => (b.nanCode, flNV)
  | .val neg m e =>
    if m = 0 then (0, 0)
    else
      -- magnitude in units of the table: m * 2^k = n / g
      let k : Int := e - ((scale : Int) - 127) - b.unitExp
      let n := if k ≥ 0 then m * 2 ^ k.toNat else m
      let g := if k ≥ 0 then 1 else 2 ^ (-k).toNat
      let lastI := b.mags.length - 1
      if n > b.mags.getD lastI 0 * g then (b.code neg lastI, if mean then flNX else flOF ||| flNX)
      else
        let i := tableFloor b.mags n g
        let a := b.mags.getD i 0 * g
        if n = a then (b.code neg i, 0)
        else
          let gap := b.mags.getD (i + 1) 0 * g - a
          let i' := if roundsUp rnd i (n - a) gap then i + 1 else i
          if i' = 0 then (0, flUF ||| flNX) else (b.code neg i', flNX)

/-- The E8 code of R51: the least E with amax <= TOP * 2^(E-127), clamped; 127 when nothing finite is nonzero. -/
def scaleAmax (b : BlockFmt) (xs : List Num) : Nat :=
  let fs := xs.filter Num.finiteNonzero
  match fs with
  | [] => 127
  | f :: r =>
    let am := r.foldl (fun acc x => if Num.cmp acc.abs x.abs < 0 then x else acc) f
    match am with
    | .nan => 127
    | .val _ m e =>
      -- ceil(log2(m * 2^e / (top * 2^unitExp)))
      let t : Int := e - b.unitExp
      let l0 : Int := (bitLen m : Int) - (bitLen b.top : Int) + t
      -- ceil is l0 - 1, l0 or l0 + 1
      let l := if magLt b.top l0 m t then l0 + 1
        else if magLt b.top (l0 - 1) m t then l0 else l0 - 1
      let ev : Int := 127 + l
      if ev < 0 then 0 else if ev > 254 then 254 else ev.toNat

/-- The E8 code of R52: the exact sum of the finite magnitudes, floor of its logarithm, less 5. -/
def scaleMean (xs : List Num) : Nat :=
  match sumExact ((xs.filter Num.finiteNonzero).map Num.abs) with
  | .nan => 127
  | .val _ m e =>
    if m = 0 then 127
    else
      let ev : Int := 127 + ((bitLen m : Int) - 1 + e) - 5
      if ev < 0 then 0 else if ev > 254 then 254 else ev.toNat

/-! The stochastic-rounding generator (R55, R56). -/

def lfsrStep (s : Word) : Word := if s.getLsbD 0 then (s >>> 1) ^^^ 0x80200003#32 else s >>> 1

def lfsrIter (n : Nat) (s : Word) : Word :=
  match n with
  | 0 => s
  | k + 1 => lfsrIter k (lfsrStep s)

/-- A draw: the new state and the 16-bit value. -/
def lfsrDraw (s : Word) : Word × Nat :=
  let t := lfsrIter 16 s
  (t, t.toNat % 65536)

/-- The generator at the start of step N (R56). -/
def lfsrSeed (seed : Word) (n : Nat) : Word :=
  let v := seed ^^^ (BitVec.ofNat 32 n * 0x9E3779B9#32)
  if v = 0 then 1 else v

/-- Convert a list of numbers in element order, one draw each when stochastic (R57). -/
def roundListSR (f : Rnd → Num → Nat × FlagBits) (sr : Bool) (s : Word) (xs : List Num) :
    List Nat × FlagBits × Word :=
  match xs with
  | [] => ([], 0, s)
  | x :: r =>
    let (s', d) := if sr then lfsrDraw s else (s, 0)
    let (c, fl) := f (if sr then .sr d else .rne) x
    let (cs, fl', s'') := roundListSR f sr s' r
    (c :: cs, fl ||| fl', s'')

/-- Quantise one block (R51 to R53): scale byte, codes, flags, generator. -/
def quantBlock (b : BlockFmt) (mean sr : Bool) (s : Word) (xs : List Num) : Nat × List Nat × FlagBits × Word :=
  let e := if mean then scaleMean xs else scaleAmax b xs
  let (cs, fl, s') := roundListSR (fun rnd x => b.round rnd mean x e) sr s xs
  (e, cs, fl, s')

/-! Quotients and roots: a value correct in every bit the rounding looks at, with a sticky bit. -/

/-- a / b for finite nonzero a, b: 96 quotient bits and a sticky bit (DEDUCED, log entry 73). -/
def Num.divBy (a b : Num) : Num :=
  match a, b with
  | .val s m e, .val t n f =>
    if m = 0 || n = 0 then .zero (s != t)
    else
      let k := 96 + bitLen n
      let q := m * 2 ^ k / n
      let r := m * 2 ^ k % n
      .val (s != t) (2 * q + (if r = 0 then 0 else 1)) (e - f - (k : Int) - 1)
  | _, _ => .nan

/-- Integer square root by the digit method, `n` digits of two bits. -/
def isqrtAux (n : Nat) (v root : Nat) : Nat :=
  match n with
  | 0 => root
  | k + 1 =>
    let r := root + 2 ^ k
    isqrtAux k v (if r * r ≤ v then r else root)

def isqrt (v : Nat) : Nat := isqrtAux (bitLen v / 2 + 1) v 0

/-- Square root of a positive number: 64 or more correct bits and a sticky bit. -/
def Num.sqrtOf (a : Num) : Num :=
  match a with
  | .nan => .nan
  | .val _ m e =>
    if m = 0 then a
    else
      let k : Int := if e % 2 = 0 then 128 else 129
      let v := m * 2 ^ k.toNat
      let r := isqrt v
      .val false (2 * r + (if r * r = v then 0 else 1)) ((e - k) / 2 - 1)

end Sys2Proof.Machine
end

