-- ==== Sys2Proof/Machine/Operands.lean ====
section
/-! DEFINITION. Operand forms: the quire descriptor and its fields (Tables 3.6 to 3.9), effective addresses (R87), when a
descriptor is invalid (R86), and the reading and packing of elements in every format (Table 2.6). -/

namespace Sys2Proof.Machine

open Sys2Proof

/-- A descriptor: its index and its eight words as numbers. -/
structure Desc where
  index : Nat
  ws : List Nat
  deriving DecidableEq, Repr

def Desc.word (d : Desc) (i : Nat) : Nat := d.ws.getD i 0
def Desc.opcode (d : Desc) : Nat := bitsN (d.word 0) 7 0
def Desc.unit (d : Desc) : Nat := bitsN (d.word 0) 11 8
def Desc.waitEn (d : Desc) : Bool := bitN (d.word 0) 12
def Desc.waitObj (d : Desc) : Nat := bitsN (d.word 0) 14 13
def Desc.arriveEn (d : Desc) : Bool := bitN (d.word 0) 15
def Desc.arriveObj (d : Desc) : Nat := bitsN (d.word 0) 17 16
def Desc.arriveAt (d : Desc) : Bool := bitN (d.word 0) 18
def Desc.loopSel (d : Desc) : Nat := bitsN (d.word 0) 20 19
def Desc.loopEnd (d : Desc) : Bool := bitN (d.word 0) 21
def Desc.addrLoops (d : Desc) : Nat := bitsN (d.word 0) 25 22
def Desc.delta (d : Desc) : Nat := bitsN (d.word 1) 19 0
def Desc.target (d : Desc) : Nat := bitsN (d.word 1) 31 20
def Desc.addr (d : Desc) (j : Nat) : Nat := bitsN (d.word (2 + j)) 23 0
def Desc.fmt (d : Desc) (j : Nat) : Nat := bitsN (d.word (2 + j)) 27 24
def Desc.rnd (d : Desc) (j : Nat) : Bool := bitN (d.word (2 + j)) 28
def Desc.smode (d : Desc) (j : Nat) : Bool := bitN (d.word (2 + j)) 29
def Desc.count (d : Desc) : Nat := bitsN (d.word 7) 15 0
def Desc.subop (d : Desc) : Nat := bitsN (d.word 7) 23 16
def Desc.ctx (d : Desc) : Nat := bitsN (d.word 7) 25 24

/-- The opcodes each unit defines (Tables 3.3, 3.5, 3.8, 3.10; R86). A SUBOP that selects no operation of its opcode
leaves the opcode undefined (DEDUCED, log entry 21). -/
def opcodeDefined (unit op sub : Nat) : Bool :=
  match unit with
  | 0 => decide (op ≤ 4)
  | 1 => op == 0x10 || op == 0x11 || op == 0x12
  | 2 => (decide (0x20 ≤ op) && decide (op ≤ 0x2B) && (if op = 0x24 ∨ op = 0x25 then decide (sub ≤ 1)
      else if op = 0x27 then decide (sub ≤ 2) else true)) || (decide (0x30 ≤ op) && decide (op ≤ 0x36))
  | 3 => op == 0x40 || op == 0x41
  | 4 => op == 0x50
  | 5 => op == 0x60 || op == 0x61
  | 6 => decide (0x70 ≤ op) && decide (op ≤ 0x73)
  | 7 => op == 0x80 || op == 0x81
  | 8 => op == 0x00 || op == 0x04
  | _ => false

/-- The next descriptor of a cluster's sequencer, or none when quire memory is uncorrectable (Table 3.12). -/
def State.fetchDesc (s : State) (c i : Nat) : Option Desc :=
  let ws := (List.range 8).map (fun j => s.getByteCoded c (quireBase + 8 * i + j))
  if ws.any Option.isNone then none
  else some ⟨i, ws.map (fun w => (w.getD 0).toNat)⟩

/-! Formats by FMT code (Table 3.9). -/

/-- Bits of an element: 0 FP32, 1 BF16, 2 E4M3, 3 E5M2, 4 UF4, 5 T2, 6 E8, 7 U32, 8 mask. -/
def fmtBits (f : Nat) : Nat :=
  match f with
  | 0 => 32 | 1 => 16 | 2 => 8 | 3 => 8 | 4 => 4 | 5 => 2 | 6 => 8 | _ => 32

/-- Start alignment in words (Table 2.6). -/
def fmtAlign (f : Nat) : Nat :=
  match f with
  | 4 => 4 | 5 => 2 | _ => 1

/-- Words that n elements fill. -/
def fmtWords (f n : Nat) : Nat := (n * fmtBits f + 31) / 32

/-- Does a format carry block scales? -/
def fmtScaled (f : Nat) : Bool := f == 4 || f == 5

/-- Value of a code of a format, with its scale byte where it has one. -/
def fmtDecode (f code scale : Nat) : Num :=
  match f with
  | 0 => fmtFP32.decode code
  | 1 => fmtBF16.decode code
  | 2 => fmtE4M3.decode code
  | 3 => fmtE5M2.decode code
  | 4 => blkUF4.decode code scale
  | 5 => blkT2.decode code scale
  | _ => .nan

/-- The floating-point format of a code 0 to 3. -/
def fmtFloat (f : Nat) : FloatFmt :=
  match f with
  | 1 => fmtBF16 | 2 => fmtE4M3 | 3 => fmtE5M2 | _ => fmtFP32

/-- The block format of code 4 or 5. -/
def fmtBlock (f : Nat) : BlockFmt := if f = 5 then blkT2 else blkUF4

/-- An element as read: its code and whether the word it lies in was poisoned. -/
structure ECode where
  code : Nat
  poison : Bool
  deriving DecidableEq, Repr

/-- Element i of packed words (R41). -/
def elemAt (f : Nat) (ws : List PWord) (i : Nat) : ECode :=
  let b := fmtBits f
  let w := ws.getD (i * b / 32) ⟨0, false⟩
  ⟨w.w.toNat / 2 ^ (i * b % 32) % 2 ^ b, w.poison⟩

/-- The first n elements of packed words. -/
def elemsOf (f : Nat) (ws : List PWord) (n : Nat) : List ECode := (List.range n).map (elemAt f ws)

/-- Pack one word from at most `per` codes of `b` bits, lowest first; missing elements are zero bits (R41, R109). -/
def packOne (b : Nat) (cs : List ECode) : PWord :=
  let v := cs.foldr (fun e acc => e.code % 2 ^ b + 2 ^ b * acc) 0
  let p := cs.any ECode.poison
  ⟨if p then 0 else BitVec.ofNat 32 v, p⟩

/-- Split a list in pieces of n, with fuel. -/
def chunks {α : Type} (n fuel : Nat) (l : List α) : List (List α) :=
  match fuel with
  | 0 => []
  | k + 1 => if l.isEmpty then [] else l.take n :: chunks n k (l.drop n)

/-- Pieces of n (n > 0) of a list. -/
def pieces {α : Type} (n : Nat) (l : List α) : List (List α) := chunks n l.length l

/-- Pack codes into words (R41). -/
def packCodes (f : Nat) (cs : List ECode) : List PWord := (pieces (32 / fmtBits f) cs).map (packOne (fmtBits f))

/-! Address slots. -/

/-- Stride j of a loop counter (R87). -/
def Loop.stride (l : Loop) (j : Nat) : BitVec 24 := l.strides.getD j 0

def loopD (_ : Nat) : Loop := Loop.reset

/-- Is a slot address in the alias range of the circular regions (Table 4.1)? -/
def isAlias (a : Nat) : Bool := decide (0xFD0000 ≤ a) && decide (a < 0xFD8000)

/-- Effective address of slot j (R87); an alias takes no loop contributions (R115). -/
def effAddr (q : Seq) (d : Desc) (j : Nat) : Nat :=
  if isAlias (d.addr j) then d.addr j
  else
    ((List.range 4).foldl (fun (a : BitVec 24) k =>
      if d.addrLoops.testBit k then
        let l := mapGet loopD q.loops k
        a + BitVec.ofNat 24 l.iter * l.stride j
      else a) (BitVec.ofNat 24 (d.addr j))).toNat

/-- Where a slot points. -/
inductive Loc where
  | mem (a : Nat)
  | reg (r : Nat)
  deriving DecidableEq, Repr

/-- Resolve a slot used for `n` words with alignment `al`: none when it makes the descriptor invalid (R86, R107, R115). Only a
slot that holds an alias names a region: an effective address that loop strides carry to an alias lies past the end of
cluster memory (DEDUCED, log entry 154). -/
def slotLoc (cl : Cluster) (d : Desc) (j al n : Nat) : Option Loc :=
  let a := effAddr cl.seq d j
  if isAlias (d.addr j) then
    if a % 0x1000 = 0 && (cl.region (a / 0x1000 % 8)).en then some (.reg (a / 0x1000 % 8)) else none
  else if a % al = 0 && decide (a + n ≤ 0xA00000) then some (.mem a) else none

/-- Read latency of the slot's bank class (R110). -/
def Loc.lat (cl : Cluster) (l : Loc) : Nat :=
  match l with
  | .mem a => readLat a
  | .reg r => readLat (cl.region r).base.toNat

def Loc.dest (l : Loc) : Dest :=
  match l with
  | .mem a => .addr a
  | .reg r => .circ r

/-- A slot a descriptor uses: slot number, formats allowed, words. -/
structure SlotUse where
  slot : Nat
  formats : List Nat
  words : Nat
  deriving DecidableEq, Repr

/-- Words of one row of a tile operand, and of one row's scale bytes in a plane of `rows` rows (R73). -/
def rowWords (f k : Nat) : Nat := (k * fmtBits f + 31) / 32
def planeWords (rows chunks : Nat) : Nat := (rows * chunks + 3) / 4

/-- The operand pairs of Table 2.10. -/
def operandPair (fa fb : Nat) : Bool :=
  (fa == 5 && fb == 4) || (fa == 4 && fb == 4) || ((fa == 2 || fa == 3) && (fb == 2 || fb == 3)) || (fa == 1 && fb == 1)

/-- Operand slots of the vector operations (Tables 3.3, 3.8). -/
def vectorSources (op : Nat) : List Nat :=
  if op = 0x23 ∨ op = 0x28 then [0, 1, 3]
  else if op = 0x20 ∨ op = 0x21 ∨ op = 0x22 ∨ op = 0x24 ∨ op = 0x27 ∨ op = 0x36 then [0, 1]
  else [0]

/-- Is the operation grouped (R82)? -/
def isGrouped (op : Nat) : Bool := op == 0x2A || op == 0x2B || op == 0x70 || op == 0x71 || op == 0x73

/-- The slots an operation uses with the formats Table 2.1 and the operation's own rules allow there (R86). `kept` is the
number of chunks a WALK keeps: its index buffer has one word more (R140). A grouped vector operation writes one FP32 word per
group whatever its destination's format (R82) (DEDUCED, log entry 155). -/
def slotUses (d : Desc) (kept : Nat) : List SlotUse :=
  let op := d.opcode
  let n := 32 * d.count
  let one (j : Nat) (fs : List Nat) (el : Nat) : SlotUse := ⟨j, fs, fmtWords (d.fmt j) el⟩
  match d.unit with
  | 1 =>
    let k := 32 * d.count
    [⟨0, [1, 2, 3, 4, 5], 64 * rowWords (d.fmt 0) k⟩, ⟨1, [1, 2, 3, 4], 32 * rowWords (d.fmt 1) k⟩, one 2 [0, 1] 2048]
      ++ (if fmtScaled (d.fmt 0) then [⟨3, [6], planeWords 64 d.count⟩] else [])
      ++ (if fmtScaled (d.fmt 1) then [⟨4, [6], planeWords 32 d.count⟩] else [])
  | 2 =>
    (vectorSources op).map (fun j => one j [0, 1] n)
      ++ [if isGrouped op then ⟨2, [0, 1], n / (32 * max 1 d.subop)⟩ else one 2 [0, 1] n]
  | 3 =>
    if op = 0x40 then
      [one 0 [0, 1] n, one 2 [1, 2, 3, 4, 5] n] ++ (if fmtScaled (d.fmt 2) then [⟨3, [6], (d.count + 3) / 4⟩] else [])
    else
      [one 0 [2, 3, 4, 5] n, one 2 [0, 1] n] ++ (if fmtScaled (d.fmt 0) then [⟨3, [6], (d.count + 3) / 4⟩] else [])
  | 4 => [⟨0, [8], d.count⟩, ⟨1, [8], d.count⟩, ⟨2, [7], kept + 1⟩]
  | 5 =>
    if op = 0x60 then [one 0 [0, 1] n, one 1 [0, 1] n, one 2 [0, 1] n] else [one 1 [0, 1] n, one 2 [0, 1] n]
  | 6 =>
    let g := n / (32 * max 1 d.subop)
    [one 0 [0, 1] n] ++ (match op with
      | 0x70 => [⟨2, [0], g⟩]
      | 0x71 => [⟨2, [0], g⟩]
      | 0x72 => [⟨2, [7], 1⟩]
      | _ => [⟨2, [7], 64 * g⟩])
  | _ => []

/-- Is a descriptor invalid (R86, R82, R84, R115, R139)? COUNT 0 lies outside word 7's range 1 to 65,535 (DEDUCED, log entry
22) (DEDUCED, log entry 21). -/
def descInvalid (cl : Cluster) (kept : Nat) (d : Desc) : Bool :=
  let op := d.opcode
  !opcodeDefined d.unit op d.subop
    || d.delta == 0
    || decide (d.target > d.index)
    || (decide (1 ≤ d.unit) && decide (d.unit ≤ 6) && d.count == 0)
    || (decide (d.unit = 2 ∨ d.unit = 6) && isGrouped op && (d.subop == 0 || d.count % d.subop != 0))
    || (d.unit == 6 && op == 0x72 && decide (d.subop > 5))
    || (d.unit == 1 && !operandPair (d.fmt 0) (d.fmt 1))
    || (d.unit == 4 && (decide (d.count > 2048) || isAlias (d.addr 0) || isAlias (d.addr 1) || isAlias (d.addr 2)))
    || (slotUses d kept).any (fun u =>
        !u.formats.contains (d.fmt u.slot) || (slotLoc cl d u.slot (fmtAlign (d.fmt u.slot)) u.words).isNone)

/-- A slot's place, when the descriptor is valid. -/
def slotAt (cl : Cluster) (d : Desc) (j : Nat) : Loc := (slotLoc cl d j 1 0).getD (.mem 0)

end Sys2Proof.Machine
end

