-- ==== Sys2Proof/Machine/Flags.lean ====
section
/-! DEFINITION. The flag registers (R59 to R61): setting by an engine of a cluster or by an update engine, clearing by a
write of ones. -/

namespace Sys2Proof.Machine

open Sys2Proof

/-- Set flags in the register of the engine with a UNIT number (R60): 1 MX, 2 VX, 3 QZ, 5 RD, 6 SX; others have none. -/
def EngFlags.set (f : EngFlags) (unit : Nat) (b : BitVec 4) : EngFlags :=
  match unit with
  | 1 => { f with mx := f.mx ||| b }
  | 2 => { f with vx := f.vx ||| b }
  | 3 => { f with qz := f.qz ||| b }
  | 5 => { f with rd := f.rd ||| b }
  | 6 => { f with sx := f.sx ||| b }
  | _ => f

def State.setFlags (s : State) (c unit : Nat) (b : BitVec 4) : State :=
  s.modCluster c (fun x => { x with flags := x.flags.set unit b })

/-- A W1C register of 4 bits: a write of 1 clears, except a bit hardware sets in the same cycle (R13). -/
def w1c4 (old : BitVec 4) (v hwSet : Word) : BitVec 4 := (old &&& ~~~(v.setWidth 4)) ||| hwSet.setWidth 4

/-- One W1C flag. -/
def w1c (old : Bool) (v hwSet : Word) (bit : Nat) : Bool := (old && !v.getLsbD bit) || hwSet.getLsbD bit

/-- Set flags of the update engine of a stack (DEDUCED, log entry 86). -/
def State.setUeFlags (s : State) (stack : Nat) (b : BitVec 4) : State :=
  s.modStack stack (fun x => { x with ueFlags := x.ueFlags ||| b })

end Sys2Proof.Machine
end

