-- ==== Sys2Proof/Config.lean ====
section
/-! DEFINITION. What the manual leaves open, as constants without a body: nothing can be proved of their values. -/

namespace Sys2Proof

/-- Free choice of the transcendental unit within the accuracy bound of Table 3.4, by opcode and operand (DESIGN CHOICE, log entry
30). -/
opaque Config.transcendental : Nat → Word → Nat

/-- A fresh number of the random generator, by its use (0 session epochs of ports, 1 identifiers of Maunvo sessions) and the
count of numbers taken for it (DESIGN CHOICE, log entry 31). -/
opaque Config.random : Nat → Nat → Nat

/-- A free value for a result the manual leaves undefined, by the count of free values taken (DESIGN CHOICE, log entry 32). -/
opaque Config.freeWord : Nat → Word

/-- Field of a stored record whose payload layout the manual does not give, by TYPE, INSTANCE, payload and field number (log
entry 33). -/
opaque Config.recordField : Nat → Nat → List Byte → Nat → Nat

/-- The per-module bytes of the colophon (Table 13.2), by subindex of 0x1000 and byte number, and the length of its certificate
chain (DESIGN CHOICE, log entry 34). -/
opaque Config.colophonByte : Nat → Nat → Byte
opaque Config.chainLength : Nat

/-- Hash of Efboran's manufacturing key, which the ROM holds (Table 17.3; DESIGN CHOICE, log entry 34). -/
opaque Config.factoryKeyHash : BitVec 384

/-- Outcomes of ML-DSA-87 and ML-KEM-1024 on bytes: a signature under a public key, one under Efboran's debug key, and the run
key that a ciphertext and a wrapped key open to under the encapsulation key issued with a nonce (DESIGN CHOICE, log entry 35). -/
opaque Config.verifies : List Byte → List Byte → List Byte → Bool
opaque Config.vendorVerifies : List Byte → List Byte → Bool
opaque Config.unwraps : BitVec 256 → List Byte → List Byte → Option (BitVec 256)

/-- Bytes of a fresh encapsulation key by nonce, and of an IDK signature by the message signed (DESIGN CHOICE, log entry 36). -/
opaque Config.encapKey : BitVec 256 → Nat → Byte
/-- Bytes of the ciphertext that encapsulates a session's secret to a partner's key (R303; DESIGN CHOICE, log entry 36). -/
opaque Config.encapsulated : List Byte → Nat → Byte
opaque Config.signature : List Byte → Nat → Byte

end Sys2Proof
end

