-- ==== Sys2Proof/Machine/Trans.lean ====
section
/-! DEFINITION. The transcendental functions (R81, Table 3.4): a fixed-point value close enough to the exact one to bound
what the unit may deliver, and the unit's own choice within the bound. -/

namespace Sys2Proof.Machine

open Sys2Proof

/-- Fixed-point scale, 2^96. -/
def fxOne : Nat := 2 ^ 96

/-- ln 2 in units of 2^-96. -/
def fxLn2 : Nat := 54916777467707473351141471128

/-- e^r for 0 ≤ r < 1 in fixed point by its power series: the sum and the next term, `fuel` terms. -/
def fxExpSeries (fuel k r term acc : Nat) : Nat :=
  match fuel with
  | 0 => acc
  | n + 1 => let t := term * r / fxOne / k
             fxExpSeries n (k + 1) r t (acc + t)

def fxExp (r : Nat) : Nat := fxExpSeries 40 1 r fxOne fxOne

/-- The value of a number in fixed point, towards minus infinity. -/
def Num.toFx (x : Num) : Int :=
  match x with
  | .nan => 0
  | .val s m e =>
    let k : Int := e + 96
    let a : Int := if k ≥ 0 then ((m * 2 ^ k.toNat : Nat) : Int) else ((m / 2 ^ (-k).toNat : Nat) : Int)
    if s then -a else a

/-- e^x as a number: the whole powers of two taken out, the rest by the series. -/
def expVal (x : Num) : Num :=
  let v := x.toFx
  let n : Int := v / (fxLn2 : Int)
  let r : Int := v - n * (fxLn2 : Int)
  .val false (2 * fxExp r.toNat + 1) (n - 97)

/-- 2 * (u + u^3/3 + u^5/5 + ...) in fixed point. -/
def fxAtanhSeries (fuel k u2 term acc : Nat) : Nat :=
  match fuel with
  | 0 => acc
  | n + 1 => fxAtanhSeries n (k + 2) u2 (term * u2 / fxOne) (acc + term / k)

/-- ln x of a positive number other than 1. -/
def logVal (x : Num) : Num :=
  match x with
  | .nan => .nan
  | .val _ m e =>
    let l := bitLen m - 1
    let f := m * fxOne / 2 ^ l
    let u := (f - fxOne) * fxOne / (f + fxOne)
    let ln := 2 * fxAtanhSeries 60 1 (u * u / fxOne) u 0
    let v : Int := ((e + (l : Int)) * (fxLn2 : Int)) + (ln : Int)
    .val (decide (v < 0)) (2 * v.natAbs + 1) (-97)

/-- tanh x of a number of magnitude at least 2^-12: (E - 1) / (E + 1) with E = e^(2|x|). -/
def tanhVal (x : Num) : Num :=
  match x with
  | .nan => .nan
  | .val s m e =>
    let big := magLt 64 0 m e
    if big then .val s (2 ^ 96 - 1) (-96)
    else
      let v := (Num.val false m (e + 1)).toFx.toNat
      let n := v / fxLn2
      let ex := fxExp (v - n * fxLn2) * 2 ^ n
      .val s (2 * ((ex - fxOne) * fxOne / (ex + fxOne)) + 1) (-97)

/-- 1 / sqrt x of a positive number, and whether it is exact. -/
def rsqrtVal (x : Num) : Num × Bool :=
  match x with
  | .nan => (.nan, false)
  | .val _ m e =>
    let k : Nat := 2 * (bitLen m + 96)
    let e2 : Int := if e % 2 = 0 then e else e - 1
    let m2 := if e % 2 = 0 then m else 2 * m
    let v := 2 ^ k / m2
    let r := isqrt v
    let exact := r * r * m2 == 2 ^ k
    (.val false (2 * r + (if exact then 0 else 1)) (-(k : Int) / 2 - e2 / 2 - 1), exact)

/-- Does the FP32 magnitude code `k` lie within `b` units in the last place of the exact value (m, e)? The unit is that of
the exact value's binade. -/
def withinUlp (b k m : Nat) (e : Int) : Bool :=
  match fmtFP32.decode k with
  | .nan => false
  | .val _ km ke =>
    if km = 0 then false
    else
      let u : Int := (bitLen m : Int) - 24 + e
      let d := sumExact [.val false km ke, .val true m e]
      match d with
      | .nan => false
      | .val _ dm de => !magLt b u dm de

/-- What the unit delivers for an exact value: the correctly rounded zero or MAX where the rounding gives one; else the
code it chooses (`pick`) among those within the bound, or the nearest. NX unless the delivered value is exact. -/
def transResult (b pick : Nat) (x : Num) : Nat × FlagBits :=
  match x with
  | .nan => (fmtFP32.nanCode, flNV)
  | .val s m e =>
    let near := fmtFP32.round .rne (.val false m e)
    if near.1 = 0 ∨ near.2 &&& flOF ≠ 0 then (fmtFP32.signed s near.1, near.2)
    else
      let k := near.1 - 3 + pick % 7
      let code := if 0x00800000 ≤ k ∧ k ≤ fmtFP32.maxCode ∧ withinUlp b k m e then k else near.1
      let exact := match fmtFP32.decode code with
        | .val _ km ke => (sumExact [.val false km ke, .val true m e]).isZero
        | .nan => false
      (fmtFP32.signed s code, if exact then 0 else flNX)

/-- The FP32 result of EXP, LOG, RSQRT or TANH on one operand, with its singular operands (Table 2.7, R81). -/
def transOp (op : Nat) (x : Num) (code : Word) : Nat × FlagBits :=
  let pick := Config.transcendental op code
  match x with
  | .nan => (fmtFP32.nanCode, flNV)
  | .val s m _ =>
    match op with
    | 0x30 => transResult 2 pick (if m = 0 then .val false 1 0 else if magLt 128 0 m (match x with | .val _ _ e => e | .nan => 0)
        then (if s then .val false 1 (-200) else .val false 1 200) else expVal x)
    | 0x31 =>
      if m = 0 then (fmtFP32.signed true fmtFP32.maxCode, flOF ||| flNX)
      else if s then (fmtFP32.nanCode, flNV)
      else if Num.cmp x (.val false 1 0) = 0 then (0, 0) else transResult 2 pick (logVal x)
    | 0x34 =>
      if m = 0 then (fmtFP32.signed s fmtFP32.maxCode, flOF ||| flNX)
      else if s then (fmtFP32.nanCode, flNV) else transResult 1 pick (rsqrtVal x).1
    | _ =>
      if m = 0 then (fmtFP32.signed s 0, 0)
      else if magLt m (match x with | .val _ _ e => e | .nan => 0) 1 (-12) then ((fmtFP32.round .rne x).1, flNX)
      else transResult 2 pick (tanhVal x)

/-- x / y with its singular operands (Table 2.7): the value to round, and flags of its own. -/
def divOp (x y : Num) : Num × FlagBits :=
  match x, y with
  | .val s m _, .val t n _ =>
    if n = 0 then (if m = 0 then (.nan, flNV) else (.val (s != t) 1 400, flOF ||| flNX))
    else (Num.divBy x y, 0)
  | _, _ => (.nan, flNV)

end Sys2Proof.Machine
end

