-- ==== Sys2Proof/Machine/Vector.lean ====
section
/-! DEFINITION. What the vector engine and its transcendental unit compute (Table 3.3, R49, R50, R80 to R82), from the words
their reads delivered. -/

namespace Sys2Proof.Machine

open Sys2Proof

/-- An element of an operand: its value, its code, and its poison tag. -/
structure Elt where
  num : Num
  code : Word
  poison : Bool
  deriving DecidableEq, Repr

def eltOf (f : Nat) (e : ECode) : Elt := ⟨fmtDecode f e.code 127, BitVec.ofNat 32 e.code, e.poison⟩

/-- A result before packing. -/
structure RElt where
  code : Nat
  flags : FlagBits
  poison : Bool
  deriving DecidableEq, Repr

/-- Flags an operation can set (the Flags column of Table 3.3). -/
def vectorFlagMask (op : Nat) : FlagBits :=
  match op with
  | 0x24 => flNV | 0x25 => flNV | 0x27 => flNV | 0x28 => flNV | 0x2A => flNV
  | 0x31 => flNX ||| flOF ||| flNV
  | 0x33 => flNX ||| flNV
  | 0x34 => flNX ||| flOF ||| flNV
  | 0x35 => flNX ||| flUF ||| flNV
  | _ => 15

/-- Elements per cycle (Table 3.3): doubled for BF16 operands of opcodes 0x20 to 0x2B. -/
def vectorLanes (op : Nat) (bf16 : Bool) : Nat :=
  if op = 0x36 then 8 else if 0x30 ≤ op then 16 else if bf16 then 128 else 64

/-- Latency (Table 3.3). -/
def vectorLatency (op : Nat) : Nat :=
  match op with
  | 0x20 => 4 | 0x21 => 4 | 0x22 => 4 | 0x23 => 5 | 0x29 => 3 | 0x2A => 8 | 0x2B => 8 | 0x36 => 18
  | _ => if 0x30 ≤ op then 12 else 2

/-- Order of magnitudes and signs with -0 below +0 (R80). -/
def lessForMin (x y : Num) : Bool :=
  if x.isZero && y.isZero then x.neg && !y.neg else decide (Num.cmp x y < 0)

def numMin (x y : Num) : Num := if lessForMin y x then y else x
def numMax (x y : Num) : Num := if lessForMin x y then y else x

/-- Round a value to a destination slot's format: 0 FP32, 1 BF16. -/
def toDest (f : Nat) (x : Num) : Nat × FlagBits := (fmtFloat f).round .rne x

/-- The value 1.0, and +0. -/
def numOne : Num := .val false 1 0

/-- n of SCALE2: SUBOP as a signed byte. -/
def signed8 (v : Nat) : Int := if v < 128 then (v : Int) else (v : Int) - 256

/-- One element of an element-wise operation (Table 3.3, R49, R50, R80): the code in format f and the flags. -/
def vectorElt (op sub f : Nat) (x y z : Elt) : Nat × FlagBits :=
  let a := x.num
  let b := y.num
  let c := z.num
  let nan : Nat × FlagBits := ((fmtFloat f).nanCode, flNV)
  let two (r : Num) : Nat × FlagBits := if a.isNan || b.isNan then nan else toDest f r
  let viaF32 (r : Nat × FlagBits) : Nat × FlagBits :=
    if f = 1 then let q := toDest 1 (fmtFP32.decode r.1); (q.1, q.2 ||| r.2) else r
  let r : Nat × FlagBits := match op with
    | 0x20 => two (sumExact [a, b])
    | 0x21 => two (sumExact [a, b.negate])
    | 0x22 => two (a.mul b)
    | 0x23 => if a.isNan || b.isNan || c.isNan then nan else toDest f (sumExact [a.mul b, c])
    | 0x24 => if sub = 0 then two (numMin a b) else two (numMax a b)
    | 0x25 => if sub = 0 then toDest f a.abs else toDest f a.negate
    | 0x26 => toDest f (a.scale (signed8 sub))
    | 0x27 =>
      if a.isNan || b.isNan then (0, flNV)
      else
        let o := Num.cmp a b
        if (sub = 0 ∧ o < 0) ∨ (sub = 1 ∧ o = 0) ∨ (sub = 2 ∧ o > 0) then toDest f numOne else (0, 0)
    | 0x28 => if a.isNan || b.isNan || c.isNan then nan else toDest f (if a.isZero then c else b)
    | 0x29 => toDest f a
    | 0x32 =>
      let q := divOp numOne a
      let t := toDest f q.1
      (t.1, t.2 ||| q.2)
    | 0x33 =>
      if a.isZero then toDest f a else if a.isNan || a.neg then nan else toDest f a.sqrtOf
    | 0x36 =>
      let q := divOp a b
      let t := toDest f q.1
      (t.1, t.2 ||| q.2)
    | _ => viaF32 (transOp op a (if x.poison then 0 else x.code))
  (r.1, r.2 &&& vectorFlagMask op)

/-- A row's sum in index order, one rounding per addition, from the first element (R80, R82); NaN and NV if any element is
NaN. -/
def rowSum (xs : List Word) : Word × FlagBits :=
  match xs with
  | [] => (0, 0)
  | x :: r =>
    if (decF32 x).isNan then (0x7FC00000#32, flNV)
    else r.foldl (fun acc y =>
      if (decF32 acc.1).isNan then (acc.1, acc.2 ||| flNV)
      else let t := addF32 acc.1 y; (t.1, acc.2 ||| t.2)) (x, 0)

/-- The FP32 encoding of an element's value: exact, subnormals as zeros. -/
def asF32 (x : Num) : Word := (roundF32 x).1

/-- One group of ROWMAX or ROWSUM: an FP32 word (R82). -/
def vectorRow (op : Nat) (xs : List Elt) : RElt :=
  let p := xs.any Elt.poison
  if op = 0x2A then
    match xs with
    | [] => ⟨0, 0, p⟩
    | x :: r =>
      if xs.any (fun e => e.num.isNan) then ⟨fmtFP32.nanCode, flNV, p⟩
      else ⟨(toDest 0 (r.foldl (fun m e => numMax m e.num) x.num)).1, 0, p⟩
  else
    let t := rowSum (xs.map (fun e => asF32 e.num))
    ⟨t.1.toNat, t.2, p⟩

/-- All results of a vector operation (DEDUCED, log entry 72). -/
def vectorResults (op sub f : Nat) (xs ys zs : List Elt) : List RElt :=
  if op = 0x2A ∨ op = 0x2B then (pieces (32 * sub) xs).map (vectorRow op)
  else
    xs.zipIdx.map (fun (x, i) =>
      let y := ys.getD i ⟨.zero false, 0, false⟩
      let z := zs.getD i ⟨.zero false, 0, false⟩
      let r := vectorElt op sub f x y z
      ⟨r.1, r.2, x.poison || y.poison || z.poison⟩)

def wordsD (_ : Nat) : List PWord := []

/-- The words delivered for a slot so far. -/
def insOf (ins : SMap (List PWord)) (j : Nat) : List PWord := mapGet wordsD ins j

/-- Elements of a slot, as many of the first n as have been delivered. -/
def insElts (d : Desc) (ins : SMap (List PWord)) (j n : Nat) : List Elt :=
  let ws := insOf ins j
  (elemsOf (d.fmt j) ws (min n (32 * ws.length / fmtBits (d.fmt j)))).map (eltOf (d.fmt j))

def packResults (f : Nat) (rs : List RElt) : List PWord := packCodes f (rs.map (fun r => ⟨r.code, r.poison⟩))

def flagsOf (rs : List RElt) : FlagBits := rs.foldl (fun a r => a ||| r.flags) 0

/-- Result words by slot, and flags. -/
abbrev OpOut := SMap (List PWord) × FlagBits

/-- Format in which a vector operation packs its results. -/
def vectorFmt (d : Desc) : Nat := if isGrouped d.opcode then 0 else d.fmt 2

/-- A list's elements up to the last whole group. -/
def wholeGroups {α : Type} (g : Nat) (l : List α) : List α := l.take (l.length / g * g)

/-- What a vector operation writes, from the words delivered so far (DEDUCED, log entry 72; DEDUCED, log entry 74).
(DEDUCED, log entry 155.) -/
def vectorOut (d : Desc) (ins : SMap (List PWord)) : OpOut :=
  let src := vectorSources d.opcode
  let xs := insElts d ins 0 (32 * d.count)
  let ys := if src.contains 1 then insElts d ins 1 (32 * d.count) else []
  let zs := if src.contains 3 then insElts d ins 3 (32 * d.count) else []
  let n := min xs.length (min (if src.contains 1 then ys.length else xs.length) (if src.contains 3 then zs.length else xs.length))
  let rs := vectorResults d.opcode d.subop (vectorFmt d)
    (if isGrouped d.opcode then wholeGroups (32 * d.subop) (xs.take n) else xs.take n) ys zs
  ([(2, packResults (vectorFmt d) rs)], flagsOf rs)

end Sys2Proof.Machine
end

