-- ==== Sys2Proof/Machine/Quantiser.lean ====
section
/-! DEFINITION. What the quantiser, the sparsity walker, the reduction engine and the statistics engine compute (Table 3.5,
R51 to R54, R57, R82 to R84, R137 to R142), from the words their reads delivered. -/

namespace Sys2Proof.Machine

open Sys2Proof

/-- QUANT of one operation's elements to a floating-point format: codes, flags, generator (R54, R57). -/
def quantFloat (f : Nat) (sr : Bool) (g : Word) (xs : List Elt) : List ECode × FlagBits × Word :=
  let r := roundListSR (fun rnd x => (fmtFloat f).round rnd x) sr g (xs.map Elt.num)
  ((r.1.zip xs).map (fun ce => ⟨ce.1, ce.2.poison⟩), r.2.1, r.2.2)

/-- QUANT to UF4 or T2, block by block: scale bytes, element codes, flags, generator. A poisoned operand poisons its whole
block, whose scale depends on every element. -/
def quantBlocks (b : BlockFmt) (mean sr : Bool) (g : Word) (blocks : List (List Elt)) :
    List ECode × List ECode × FlagBits × Word :=
  match blocks with
  | [] => ([], [], 0, g)
  | xs :: r =>
    let p := xs.any Elt.poison
    let q := quantBlock b mean sr g (xs.map Elt.num)
    let t := quantBlocks b mean sr q.2.2.2 r
    (⟨q.1, p⟩ :: t.1, q.2.1.map (fun k => ⟨k, p⟩) ++ t.2.1, q.2.2.1 ||| t.2.2.1, t.2.2.2)

/-- What a QUANT writes (R51 to R54, R57): whole blocks only, with the generator state `g` it started with. -/
def quantOut (d : Desc) (g : Word) (ins : SMap (List PWord)) : OpOut :=
  let xs := insElts d ins 0 (32 * d.count)
  if fmtScaled (d.fmt 2) then
    let q := quantBlocks (fmtBlock (d.fmt 2)) (d.smode 2 && d.fmt 2 == 5) (d.rnd 2) g (pieces 32 (wholeGroups 32 xs))
    ([(2, packCodes (d.fmt 2) q.2.1), (3, packCodes 6 q.1)], q.2.2.1)
  else
    let q := quantFloat (d.fmt 2) (d.rnd 2) g xs
    ([(2, packCodes (d.fmt 2) q.1)], q.2.1)

/-- Draws a QUANT takes: one per element it writes, when it rounds stochastically (R57). -/
def quantDraws (d : Desc) : Nat := if d.rnd 2 then 32 * d.count else 0

/-- One element of DEQUANT: exact value to FP32 or BF16 (R54). -/
def dequantElt (f fm : Nat) (scales : List ECode) (i : Nat) (e : ECode) : RElt :=
  let sc := if fmtScaled f then scales.getD (i / 32) ⟨127, false⟩ else ⟨127, false⟩
  let r := toDest fm (fmtDecode f e.code sc.code)
  ⟨r.1, r.2, e.poison || sc.poison⟩

/-- What a DEQUANT writes. -/
def dequantOut (d : Desc) (ins : SMap (List PWord)) : OpOut :=
  let f := d.fmt 0
  let ws := insOf ins 0
  let es := elemsOf f ws (min (32 * d.count) (32 * ws.length / fmtBits f))
  let scales := elemsOf 6 (insOf ins 3) (4 * (insOf ins 3).length)
  let rs := es.zipIdx.map (fun ei => dequantElt f (d.fmt 2) scales ei.2 ei.1)
  ([(2, packResults (d.fmt 2) rs)], flagsOf rs)

/-! The sparsity walker. -/

/-- Numbers of the set bits of a word, offset by 32 times its index. -/
def maskBits (blk w : Nat) : List Nat := ((List.range 32).filter (fun i => w.testBit i)).map (fun i => 32 * blk + i)

/-- The walk of two mask planes (R140, R142): kept chunks in order, and whether a mask word was poisoned. -/
def walkMasks (a b : List PWord) : List Nat × Bool :=
  let both := (a.zip b).zipIdx
  ((both.map (fun m =>
      if m.1.1.poison || m.1.2.poison then [] else maskBits m.2 (m.1.1.w &&& m.1.2.w).toNat)).flatten,
    both.any (fun m => m.1.1.poison || m.1.2.poison))

/-- The index buffer (Tables 5.1, 5.2): header and one entry per kept chunk, with even parity. -/
def indexBuffer (kept : List Nat) (poison : Bool) : List PWord :=
  ((kept.length + 2 ^ 30 * b2n poison) :: kept).map (fun v => ⟨BitVec.ofNat 32 (withParity v), false⟩)

/-- What a WALK writes, once both planes are in; it raises no flags (R139 to R142). -/
def walkOut (ins : SMap (List PWord)) : OpOut :=
  let w := walkMasks (insOf ins 0) (insOf ins 1)
  ([(2, indexBuffer w.1 w.2)], 0)

/-! The reduction engine. -/

/-- The slot a reduction adds Y to: X, or for RED_ACC the result slot (Table 3.5). -/
def reduceSlot (op : Nat) : Nat := if op = 0x61 then 2 else 0

/-- RED_ADD and RED_ACC (Table 3.5): sums in the destination's format. -/
def reduceOut (d : Desc) (ins : SMap (List PWord)) : OpOut :=
  let xs := insElts d ins (reduceSlot d.opcode) (32 * d.count)
  let ys := insElts d ins 1 (32 * d.count)
  let rs := vectorResults 0x20 0 (d.fmt 2) (xs.take ys.length) ys []
  ([(2, packResults (d.fmt 2) rs)], flagsOf rs)

/-! The statistics engine. -/

/-- Elements per cycle of the statistics engine (Table 3.1). -/
def statLanes (d : Desc) : Nat := if d.fmt 0 = 1 then 128 else 64

/-- SUMSQ of one group (R82): each square rounded, then summed in order. A group that holds a NaN sets NV alone: the manual does
not say whether its other squares and sums set flags (DESIGN CHOICE, log entry 157). -/
def sumSqGroup (xs : List Elt) : RElt :=
  let p := xs.any Elt.poison
  if xs.any (fun e => e.num.isNan) then ⟨0x7FC00000, flNV, p⟩
  else
    let sq := xs.map (fun e => roundF32 (e.num.mul e.num))
    let t := rowSum (sq.map Prod.fst)
    ⟨t.1.toNat, sq.foldl (fun a q => a ||| q.2) t.2, p⟩

/-- AMAX of one group (R82). -/
def amaxGroup (xs : List Elt) : RElt :=
  let p := xs.any Elt.poison
  if xs.any (fun e => e.num.isNan) then ⟨0x7FC00000, flNV, p⟩
  else ⟨(asF32 (xs.foldl (fun m e => numMax m e.num.abs) (.zero false))).toNat, 0, p⟩

/-- Bin of an element (R83): its biased exponent in steps of four. -/
def histBin (x : Num) : Nat :=
  match x with
  | .nan => 63
  | .val _ m e =>
    if m = 0 then 0
    else
      let biased := ((bitLen m : Int) - 1 + e + 127).toNat
      min ((biased + 3) / 4) 62

/-- The 64 bins of one group. -/
def histGroup (xs : List Elt) : List RElt :=
  let p := xs.any Elt.poison
  let bins := xs.map (fun e => histBin e.num)
  (List.range 64).map (fun b => ⟨bins.countP (fun v => v == b), 0, p⟩)

/-- Is an element at or above MAX of a format, or NaN (R84)? -/
def satCounts (f : Nat) (x : Num) : Bool :=
  match x with
  | .nan => true
  | .val _ m e =>
    let top := if f = 4 then (Num.val false 1 2) else if f = 5 then numOne
      else (fmtFloat f).decode (fmtFloat f).maxCode
    match top with
    | .nan => false
    | .val _ tm te => !magLt m e tm te

/-- Results of a statistics operation, group by group; SATCNT counts its whole operation (R82 to R84). -/
def statResults (d : Desc) (xs : List Elt) : List RElt :=
  let gs := pieces (32 * d.subop) (wholeGroups (32 * d.subop) xs)
  match d.opcode with
  | 0x70 => gs.map sumSqGroup
  | 0x71 => gs.map amaxGroup
  | 0x72 => [⟨xs.countP (fun e => satCounts d.subop e.num), 0, xs.any Elt.poison⟩]
  | _ => (gs.map histGroup).flatten

def statOut (d : Desc) (ins : SMap (List PWord)) : OpOut :=
  let rs := statResults d (insElts d ins 0 (32 * d.count))
  ([(2, packResults 7 rs)], flagsOf rs)

end Sys2Proof.Machine
end

