-- ==== Sys2Proof/Machine/Matrix.lean ====
section
/-! DEFINITION. What the matrix array computes (R62 to R66, R72, R73, R77, R146, R147): dot products and tiles, from the words
the array's reads delivered. -/

namespace Sys2Proof.Machine

open Sys2Proof

/-- State of one dot product: accumulator, whether a NaN was met, flags. -/
structure DotAcc where
  acc : Word
  nan : Bool
  flags : FlagBits
  deriving DecidableEq, Repr

/-- FP32 MAX as a number. -/
def maxF32 : Num := decF32 0x7F7FFFFF#32

/-- One product of R63: saturated to FP32 MAX with OF and NX. -/
def dotTerm (a b : Num) : Num × FlagBits :=
  match a.mul b with
  | .val s m e =>
    match maxF32 with
    | .val _ mm me => if magLt mm me m e then (.val s mm me, flOF ||| flNX) else (.val s m e, 0)
    | .nan => (.nan, 0)
  | .nan => (.nan, 0)

/-- One chunk of R63 over its pairs of operands; NaN terms are excluded (R64). -/
def dotChunk (st : DotAcc) (pairs : List (Num × Num)) : DotAcc :=
  let nans := pairs.any (fun ab => ab.1.isNan || ab.2.isNan)
  let terms := (pairs.filter (fun ab => !(ab.1.isNan || ab.2.isNan))).map (fun ab => dotTerm ab.1 ab.2)
  let s := roundF32 (sumExact (terms.map Prod.fst))
  let t := roundF32 (sumExact [decF32 st.acc, decF32 s.1])
  ⟨t.1, st.nan || nans, terms.foldl (fun f x => f ||| x.2) (st.flags ||| s.2 ||| t.2)⟩

/-- The start of a dot product from acc0 (R63). -/
def dotStart (acc0 : Word) : DotAcc := if (decF32 acc0).isNan then ⟨0, true, 0⟩ else ⟨acc0, false, 0⟩

/-- The end of a dot product (R63, R64): the canonical NaN with NV if any NaN was met. -/
def DotAcc.finish (st : DotAcc) : Word × FlagBits :=
  if st.nan then (0x7FC00000#32, st.flags ||| flNV) else (st.acc, st.flags)

/-- A dot product over a list of chunks (R63). -/
def dot (chunksAB : List (List (Num × Num))) (acc0 : Word) : Word × FlagBits :=
  (chunksAB.foldl dotChunk (dotStart acc0)).finish

/-- A result of the array: FP32, or converted once to BF16 (R66). -/
def tileCode (f : Nat) (r : Word × FlagBits) : Nat × FlagBits :=
  if f = 1 then
    if (decF32 r.1).isNan then (fmtBF16.nanCode, r.2)
    else let t := toDest 1 (decF32 r.1); (t.1, t.2 ||| r.2)
  else (r.1.toNat, r.2)

/-- Cycles per chunk of an operand pair (Table 3.2). -/
def cyclesPerChunk (fa : Nat) : Nat :=
  match fa with
  | 5 => 2 | 4 => 4 | 1 => 16 | _ => 8

/-- Is chunk c of an operation among those it reads: all of a dense tile, the kept ones of a sparse tile? -/
def keptChunks (d : Desc) (sp : Option Sparse) : List Nat :=
  match sp with
  | none => List.range d.count
  | some x => x.kept

/-- Offsets of the words a tile reads of an operand with `rows` rows: the kept chunks of each row in order (R73, R146). -/
def operandWords (d : Desc) (j rows : Nat) (kept : List Nat) : List Nat :=
  let b := fmtBits (d.fmt j)
  ((List.range rows).map (fun i => (kept.map (fun ch => (List.range b).map (fun x =>
    (i * d.count + ch) * b + x))).flatten)).flatten

/-- Offsets of the words of a scale plane that hold a byte of a kept chunk, each once (R73, R146). -/
def planeWordsRead (d : Desc) (rows : Nat) (kept : List Nat) : List Nat :=
  (((List.range rows).map (fun i => kept.map (fun ch => (i * d.count + ch) / 4))).flatten).eraseDups

/-- Offsets of the words a tile reads of a slot (R73): A, B, C, SA and SB. -/
def tileWords (d : Desc) (j : Nat) (kept : List Nat) : List Nat :=
  match j with
  | 0 => operandWords d 0 64 kept
  | 1 => operandWords d 1 32 kept
  | 2 => List.range (fmtWords (d.fmt 2) 2048)
  | 3 => planeWordsRead d 64 kept
  | _ => planeWordsRead d 32 kept

/-- Words a slot of a tile spans, read or not. -/
def tileSpan (d : Desc) (j : Nat) : Nat :=
  match j with
  | 0 => 64 * rowWords (d.fmt 0) (32 * d.count)
  | 1 => 32 * rowWords (d.fmt 1) (32 * d.count)
  | 2 => fmtWords (d.fmt 2) 2048
  | 3 => planeWords 64 d.count
  | _ => planeWords 32 d.count

/-- The slots a tile reads: C where it starts from it and scale planes where the formats carry scales; with no chunk kept, C
alone (R74, R78, R144, R146). -/
def tileSlots (d : Desc) (kept : List Nat) : List Nat :=
  let c := if d.opcode = 0x11 then [] else [2]
  if kept.isEmpty then c
  else [0, 1] ++ c ++ (if fmtScaled (d.fmt 0) then [3] else []) ++ (if fmtScaled (d.fmt 1) then [4] else [])

/-- Scale byte of chunk ch of row i, from the words read of its plane. -/
def scaleByte (d : Desc) (rows : Nat) (kept : List Nat) (ws : List PWord) (i ch : Nat) : ECode :=
  let b := i * d.count + ch
  let w := ws.getD ((planeWordsRead d rows kept).idxOf (b / 4)) ⟨0, false⟩
  ⟨w.w.toNat / 2 ^ (8 * (b % 4)) % 2 ^ 8, w.poison⟩

/-- Chunk ch, the q-th kept one, of row (or column) i of operand j: 32 values, and whether a word read for it was poisoned
(R73). -/
def operandChunk (d : Desc) (j rows : Nat) (kept : List Nat) (ws sc : List PWord) (i q ch : Nat) : List Num × Bool :=
  let f := d.fmt j
  let b := fmtBits f
  let row := (ws.drop ((i * kept.length + q) * b)).take b
  let scale := if fmtScaled f then scaleByte d rows kept sc i ch else ⟨127, false⟩
  let es := elemsOf f row 32
  (es.map (fun e => fmtDecode f e.code scale.code), es.any ECode.poison || scale.poison)

/-- FP32 encoding of an accumulator read in BF16. -/
def accOf (f : Nat) (e : ECode) : Word := if f = 1 then (roundF32 (fmtBF16.decode e.code)).1 else BitVec.ofNat 32 e.code

/-- One element of C: row i, column j; a removed chunk takes part as one without terms (R146). -/
def tileElt (d : Desc) (kept : List Nat) (ins : SMap (List PWord)) (i j : Nat) : Nat × FlagBits :=
  let acc0 := if d.opcode = 0x11 then 0 else accOf (d.fmt 2) (elemAt (d.fmt 2) (insOf ins 2) (32 * i + j))
  let chunk (ch : Nat) : List (Num × Num) :=
    if kept.contains ch then
      let q := kept.idxOf ch
      ((operandChunk d 0 64 kept (insOf ins 0) (insOf ins 3) i q ch).1).zip
        ((operandChunk d 1 32 kept (insOf ins 1) (insOf ins 4) j q ch).1)
    else []
  tileCode (d.fmt 2) (dot ((List.range d.count).map chunk) acc0)

/-- Was any operand word that the tile read poisoned (R77)? A scale word counts for the bytes of kept chunks alone (R146), and each
word read holds one. -/
def tilePoison (ins : SMap (List PWord)) : Bool := (List.range 5).any (fun j => (insOf ins j).any PWord.poison)

/-- The words of C, and the flags of its 2,048 dot products; poison makes every element poisoned (R77, R148). -/
def tileOut (d : Desc) (sp : Option Sparse) (ins : SMap (List PWord)) : OpOut :=
  let kept := keptChunks d sp
  let p := tilePoison ins || (match sp with
    | some x => x.poison
    | none => false)
  let rs := ((List.range 64).map (fun i => (List.range 32).map (fun j => tileElt d kept ins i j))).flatten
  ([(2, packCodes (d.fmt 2) (rs.map (fun r => ⟨r.1, p⟩)))], rs.foldl (fun f r => f ||| r.2) 0)

end Sys2Proof.Machine
end

