-- ==== Sys2Proof/Machine/Crossbar.lean ====
section
/-! DEFINITION. The accesses of the engines to cluster memory, cycle by cycle (R74, R78, R79, R109 to R119): the reads and
writes an operation issues in each cycle, and their performance in the order of those cycles.

An access is performed in the cycle it is issued. Every access of one bank class reaches its bank the same number of cycles
later (R111) and a circular region lies in one class (R117), so at every bank and region the order of issue is the order of
effect (DEDUCED, log entry 75). -/

namespace Sys2Proof.Machine

open Sys2Proof

/-! Generators (R56): a START seeds those of every context of its partition. -/

/-- The generator of a local context: as last set since the partition's latest START, or as that START seeded it. -/
def State.gen (s : State) (c k : Nat) : Word :=
  let q := s.part (partNo (s.ownerOf c))
  if (s.ctx c k).genEpoch = q.seedEpoch then (s.ctx c k).lfsr else lfsrSeed (s.ctx c k).seed q.startStep

def State.setGen (s : State) (c k : Nat) (v : Word) : State :=
  let q := s.part (partNo (s.ownerOf c))
  s.modCtx c k (fun y => { y with lfsr := v, genEpoch := q.seedEpoch })

/-! Results. -/

/-- The descriptor of an operation. -/
def EngOp.d (o : EngOp) : Desc := ⟨o.desc, o.ws⟩

/-- Every result word poisoned. -/
def OpOut.spoil (x : OpOut) : OpOut := (x.1.map (fun kv => (kv.1, kv.2.map (fun _ => ⟨0, true⟩))), x.2)

/-- What an operation computes from the words delivered so far (DESIGN CHOICE, log entry 158). -/
def EngOp.compute (o : EngOp) : OpOut :=
  let x := match o.unit with
    | 1 => tileOut o.d o.sparse o.ins
    | 2 => vectorOut o.d o.ins
    | 3 => if o.opcode = 0x40 then quantOut o.d o.seed o.ins else dequantOut o.d o.ins
    | 4 => walkOut o.ins
    | 5 => reduceOut o.d o.ins
    | _ => statOut o.d o.ins
  if o.hap = .residue then OpOut.spoil x else x

/-- The results: formed once every input is in, or those so far. -/
def EngOp.result (o : EngOp) : OpOut := o.outs.getD o.compute

/-! Schedules. -/

/-- Reads of a slot whose words up to `upto k` have been read by the end of cycle k, over `n` cycles from `start`: from memory, or
whole lines at the tail of a region (R78, R109, R115) (DEDUCED, log entry 75). -/
def readBeats (slot start n : Nat) (loc : Loc) (upto : Nat → Nat) : List ReadBeat :=
  (List.range n).filterMap (fun k =>
    let a := if k = 0 then 0 else upto (k - 1)
    match loc with
    | .mem w =>
      if upto k ≤ a then none else some ⟨start + k, slot, .words ((List.range (upto k - a)).map (fun i => w + a + i))⟩
    | .reg r =>
      let l := linesOf (upto k) - linesOf a
      if l = 0 then none else some ⟨start + k, slot, .lines r l (allWords l)⟩)

/-- Writes of a slot with `total` result words of which `upto k` have been presented by the end of cycle k, over `n` cycles from
`base`: whole words to memory, whole lines to a region, and the rest with the last (R78, R109) (DEDUCED, log entry 75). -/
def writeBeats (slot base n total : Nat) (dst : Dest) (upto : Nat → Nat) : List WriteBeat :=
  let done (k : Nat) : Nat :=
    if n ≤ k + 1 then total
    else match dst with
      | .addr _ => upto k
      | .circ _ => upto k / 4 * 4
  (List.range n).filterMap (fun k =>
    let a := if k = 0 then 0 else done (k - 1)
    if done k ≤ a then none
    else
      let d := match dst with
        | .addr w => Dest.addr (w + a)
        | .circ r => .circ r
      some ⟨base + k, slot, d, a, done k - a, k⟩)

/-- Source and destination slots of a streaming operation with the elements of each, per element of the operation. -/
structure SlotFlow where
  slot : Nat
  fmt : Nat
  /-- Elements of the operation per element of the slot: 32 for scale planes. -/
  per : Nat
  deriving DecidableEq, Repr

/-- Words of a slot that hold what belongs to the first m elements. -/
def SlotFlow.words (x : SlotFlow) (m : Nat) : Nat := fmtWords x.fmt ((m + x.per - 1) / x.per)

/-- Source slots of a streaming operation. -/
def sourceFlows (d : Desc) : List SlotFlow :=
  match d.unit with
  | 2 => (vectorSources d.opcode).map (fun j => ⟨j, d.fmt j, 1⟩)
  | 3 =>
    if d.opcode = 0x40 then [⟨0, d.fmt 0, 1⟩]
    else ⟨0, d.fmt 0, 1⟩ :: (if fmtScaled (d.fmt 0) then [⟨3, 6, 32⟩] else [])
  | 4 => [⟨0, 8, 1⟩, ⟨1, 8, 1⟩]
  | 5 => [⟨reduceSlot d.opcode, d.fmt (reduceSlot d.opcode), 1⟩, ⟨1, d.fmt 1, 1⟩]
  | _ => [⟨0, d.fmt 0, 1⟩]

/-- Elements of an operation: mask blocks of a WALK. -/
def opElems (d : Desc) : Nat := if d.unit = 4 then d.count else 32 * d.count

/-- Elements per cycle, and latency (Tables 3.3, 3.5). -/
def opRate (d : Desc) : Nat :=
  match d.unit with
  | 2 => vectorLanes d.opcode ((vectorSources d.opcode).all (fun j => d.fmt j == 1))
  | 3 => 256
  | 4 => 4
  | 5 => 64
  | _ => statLanes d

def opLatency (d : Desc) : Nat :=
  match d.unit with
  | 2 => vectorLatency d.opcode
  | 3 => if d.opcode = 0x40 then 8 else 6
  | 4 => 4
  | 5 => 70
  | _ => match d.opcode with
    | 0x70 => 8 | 0x71 => 4 | 0x72 => 4 | _ => 10

/-- Result words of destination slot j that belong to the first m of n elements, all of them in: element-wise results; for a
grouped operation the words of the groups that are complete; SATCNT's word with the last element. -/
def outWords (d : Desc) (j n m : Nat) : Nat :=
  if isGrouped d.opcode && (d.unit == 2 || d.unit == 6) then
    m / (32 * max 1 d.subop) * (if d.opcode = 0x73 then 64 else 1)
  else if d.unit = 6 then (if m < n then 0 else 1)
  else if d.unit = 3 ∧ j = 3 then m / 32 / 4
  else m * fmtBits (d.fmt j) / 32

/-- All the result words of a destination slot. -/
def outTotal (d : Desc) (j n : Nat) : Nat :=
  if d.unit = 3 ∧ j = 3 then (d.count + 3) / 4
  else if isGrouped d.opcode && (d.unit == 2 || d.unit == 6) then outWords d j n n
  else if d.unit = 6 then 1
  else fmtWords (d.fmt j) n

/-- Destination slots: a QUANT to a scaled format also writes its scale plane. -/
def destSlots (d : Desc) : List Nat :=
  if d.unit = 3 ∧ d.opcode = 0x40 ∧ fmtScaled (d.fmt 2) then [2, 3] else [2]

/-- A streaming operation of descriptor `d` with its first reads in cycle `start` (R78, R79). A WALK's writes and last cycle are set
when both planes are in (R141). -/
def streamOp (cl : Cluster) (d : Desc) (start lat : Nat) : EngOp :=
  let n := opElems d
  let w := opRate d
  let cycles := (n + w - 1) / w
  let f := start + lat
  let base := f + opLatency d
  let upto (k : Nat) : Nat := min n ((k + 1) * w)
  { unit := d.unit, opcode := d.opcode, desc := d.index, ws := d.ws, f := f, t := 0, inLast := f + cycles - 1,
    last := base + cycles - 1, stage := .computing, mismatches := 0,
    reads := ((sourceFlows d).map (fun x => readBeats x.slot start cycles (slotAt cl d x.slot) (fun k => x.words (upto k)))).flatten,
    ins := [],
    writes := if d.unit = 4 then [] else
      ((destSlots d).map (fun j => writeBeats j base cycles (outTotal d j n) (slotAt cl d j).dest
        (fun k => outWords d j n (upto k)))).flatten,
    outs := none, seed := 0, gens := [], tails := [], arrive := if d.arriveEn && d.arriveAt then some d.arriveObj else none,
    groups := if d.unit = 5 then cycles else 0, judged := 0, failed := [], sparse := none, hap := .clean, reported := false }

/-- A WALK whose planes are in: N + 1 index words, the last presented at F + 4 + max(⌈COUNT / 4⌉, ⌈(N + 1) / 16⌉) - 1, at most 16
per cycle up to there and none before the planes are in, the header last (R140, R141) (DEDUCED, log entry 75). -/
def EngOp.walked (o : EngOp) (now : Nat) (dst : Dest) : EngOp :=
  let total := (insOf o.compute.1 2).length
  let last := o.f + 4 + max ((o.d.count + 3) / 4) ((total + 15) / 16) - 1
  let cycles := (total + 15) / 16
  let first := last + 1 - cycles
  let beats := (List.range cycles).map (fun k =>
    let a := 1 + 16 * k
    (⟨max (now + 1) (first + k), 2, (match dst with | .addr w => .addr (w + a) | .circ r => .circ r), a, min 16 (total - a), 0⟩ : WriteBeat))
  { o with last := last
           writes := beats.filter (fun b => decide (0 < b.n)) ++ [⟨last, 2, dst, 0, 1, 0⟩] }

/-! The accesses of one cycle. -/

/-- Does line `line` of slot `slot` lie among n words from place `off` of slot `at_`? -/
def lineIn (slot line at_ off n : Nat) : Bool := slot == at_ && decide (off / 4 ≤ line) && decide (line * 4 < off + n)

/-- Count a crossbar parity failure, class 0x05 (R350). -/
def State.xbarEvent (s : State) (c cause action : Nat) : State :=
  let s1 := s.count (counterKey 0x5100 7 (s.physSlot c)) 1
  (s1.elementEvent (elemCode 0x05 (s.slotBits c)) .marking true (s.ownerOf c) cause action 0).1

/-- A bank conflict drops an access: CONFLICT, and the cause when the access would have reached its bank (R112).
(DESIGN CHOICE, log entry 156.) -/
def State.bankConflict (s : State) (c desc delay : Nat) : State :=
  (s.modCluster c (fun x => { x with mem := { x.mem with conflict := true } })).clusterFaultIn c 0x08 desc delay

/-- What befalls a read of n words delivered from place `off` of a slot on: a line lost to a conflict delivers open words (R112)
(DESIGN CHOICE, log entry 156), one whose parity fails poison (R350). -/
def State.befallRead (s : State) (c : Nat) (o : EngOp) (slot off delay : Nat) (vs : List PWord) : List PWord × State :=
  let put (line : Nat) (v : Nat → PWord) : List PWord :=
    vs.zipIdx.map (fun vi => if (off + vi.2) / 4 = line then v vi.2 else vi.1)
  match o.hap with
  | .bankConflict sl line =>
    if lineIn sl line slot off vs.length then
      (put line (fun i => ⟨Config.freeWord (s.free + i), false⟩),
        { s.bankConflict c o.desc delay with free := (s.bankConflict c o.desc delay).free + vs.length })
    else (vs, s)
  | .xbarRead sl line =>
    if lineIn sl line slot off vs.length then (put line (fun _ => ⟨0, true⟩), s.xbarEvent c 0 3) else (vs, s)
  | _ => (vs, s)

/-- What befalls a write beat: a line lost to a conflict, or whose parity fails, is not written, and the cluster faults (R112,
R350) (DESIGN CHOICE, log entry 156). -/
def State.befallWrite (s : State) (c : Nat) (o : EngOp) (b : WriteBeat) (delay : Nat) : State :=
  match o.hap with
  | .bankConflict sl line => if lineIn sl line b.slot b.off b.n then s.bankConflict c o.desc delay else s
  | .xbarWrite sl line => if lineIn sl line b.slot b.off b.n then (s.xbarEvent c 0x11 4).clusterFaultIn c 0x11 o.desc delay else s
  | _ => s

/-- Does a write beat perform its i-th word? -/
def EngOp.keepsWord (o : EngOp) (b : WriteBeat) (i : Nat) : Bool :=
  match o.hap with
  | .bankConflict sl line | .xbarWrite sl line => !(sl == b.slot && line == (b.off + i) / 4)
  | _ => true

/-- Apply `f` to the operation with place i in a cluster's engines. -/
def State.modOpAt (s : State) (c i : Nat) (f : EngOp → EngOp) : State :=
  s.modCluster c (fun x => { x with ops := listMod x.ops i f })

/-- Lines of region r that the reads, and the writes, a cluster issues in PART_CYCLE t take (R118). -/
def readLines (ops : List EngOp) (r t : Nat) : Nat :=
  ops.foldl (fun acc o => o.reads.foldl (fun a b =>
    match b.src with
    | .lines q n _ => if b.cyc = t ∧ q = r then a + n else a
    | .words _ => a) acc) 0

/-- May a write beat go (R74, R96)? A tile's only after its verdict, a reduction group's only after its own. -/
def EngOp.mayWrite (o : EngOp) (b : WriteBeat) : Bool :=
  match o.unit with
  | 1 => o.stage == .pending
  | 5 => decide (b.group < o.judged) && !(o.failed.any (fun g => g.1 == b.group))
  | _ => true

def writeLines (ops : List EngOp) (r t : Nat) : Nat :=
  ops.foldl (fun acc o => o.writes.foldl (fun a b =>
    match b.dst with
    | .circ q => if b.cyc = t ∧ q = r ∧ o.mayWrite b then a + linesOf b.n else a
    | .addr _ => a) acc) 0

/-- Lines of scheduled landings into region r of cluster c whose write is issued in fabric cycle `fab` (R172). -/
def State.landLines (s : State) (c r fab : Nat) : Nat :=
  16 * s.fabric.landings.countP (fun l => l.c == c && l.circ == r && l.fcyc == fab)

/-- Does the partition of a cluster run, and is it not held? -/
def State.live (s : State) (c : Nat) : Bool :=
  match s.ownerOf c with
  | some p => (s.part p).running && !(s.part p).holdActive
  | none => false

/-- Lines written into region r in the present cycle that have not been tested yet: nothing of the engines in a hold. -/
def State.dueLines (s : State) (c r t : Nat) : Nat :=
  (if s.live c then writeLines (s.cluster c).ops r t else 0) + s.landLines c r s.clock.fab

/-- Note that accesses took banks in the present fabric cycle. -/
def State.takeBanks (s : State) (c : Nat) (ws : List Nat) : State :=
  s.modCluster c (fun x => { x with
    busyAt := s.clock.fab
    busyBanks := (if x.busyAt = s.clock.fab then x.busyBanks else []) ++ (ws.map bankOf).eraseDups })

/-- Perform one read beat of operation i (R118, R119): the words are delivered; a region that fails the empty test delivers
poison. `ok` says whether the region's test passed. -/
def State.doRead (s : State) (c i : Nat) (o : EngOp) (b : ReadBeat) (ok : Nat → Bool) : State :=
  let q (r : Nat) : Circ := (s.cluster c).region r
  let got : List PWord × List Nat × State := match b.src with
    | .words ws =>
      let x := (s.takeBanks c ws).readWords c ws
      (x.1, ws, x.2)
    | .lines r n sel =>
      let from_ := sel.map (fun k => (q r).wordAt ((q r).tail.toNat + k))
      if ok r then
        let x := ((s.takeBanks c from_).testRead c r n).circRead c r n sel
        (x.1, from_, x.2)
      else (sel.map (fun _ => ⟨0, true⟩), from_, (s.testRead c r n).circFault c r 0x0A o.desc)
  let delay := writeLat (got.2.1.headD 0)
  let x := got.2.2.befallRead c o b.slot (insOf o.ins b.slot).length delay got.1
  x.2.modOpAt c i (fun y => { y with
    reads := y.reads.filter (fun z => z != b)
    ins := mapMod wordsD y.ins b.slot (· ++ x.1)
    tails := match b.src with
      | .lines r _ _ => if y.unit = 1 then mapSet (natD 0) y.tails b.slot (q r).tail.toNat else y.tails
      | .words _ => y.tails })

/-- A Table 3.12 error of an engine without replay, class 0x04 (R102): counted, and the cluster faults. Table 12.7 numbers the
engines 0 vector, 1 quantiser, 2 statistics. The manual does not say in which cycle the error is found: here the one in which the
first result is presented (DESIGN CHOICE, log entry 158). -/
def State.engineError (s : State) (c : Nat) (o : EngOp) : State :=
  let eng := if o.unit = 2 then 0 else if o.unit = 3 then 1 else 2
  let s1 := s.modCluster c (fun x => { x with res := { x.res with
    otherMismatch := true, events := satInc 16 x.res.events } })
  let s2 := s1.count (counterKey 0x5100 3 (s.physSlot c)) 1
  let s3 := (s2.elementEvent (elemCode 0x04 (s.slotBits c + 2 ^ 13 * eng)) .marking true (s.ownerOf c) 0x05 4 0).1
  s3.clusterFault c 0x05 o.desc

/-- n words whose value is open, poison tag included (DESIGN CHOICE, log entry 32). -/
def State.freeWords (s : State) (n : Nat) : List PWord :=
  (List.range n).map (fun i => ⟨Config.freeWord (s.free + 2 * i), (Config.freeWord (s.free + 2 * i + 1)).getLsbD 0⟩)

def State.takeFree (s : State) (n : Nat) : State := { s with free := s.free + n }

/-- Has an index or mask word of a sparse tile changed since its issue (R143, Table 5.5)? -/
def State.unstable (s : State) (c : Nat) (o : EngOp) : Bool :=
  match o.sparse with
  | none => false
  | some x => !(x.stable.all (fun kv => s.peekWord c kv.1 == kv.2))

/-- The results of operation i, once its last read is done (DESIGN CHOICE, log entry 32 for a tile issued too early). -/
def State.form (s : State) (c i : Nat) (o : EngOp) : State :=
  if !o.reads.isEmpty || o.outs.isSome then s
  else
    let r := o.compute
    let early := match o.sparse with
      | some x => x.early
      | none => false
    let n := (insOf r.1 2).length
    if early then
      (s.modOpAt c i (fun x => { x with
        outs := some ([(2, s.freeWords n)], (Config.freeWord (s.free + 2 * n)).setWidth 4) })).takeFree (2 * n + 1)
    else if o.unit = 4 then
      let dst := (slotAt (s.cluster c) o.d 2).dest
      (s.modOpAt c i (fun x => { (x.walked (s.partCycleOf c) dst) with outs := some r })).modCluster c (fun x => { x with
        walk := x.walk.map (fun w => if w.addr = effAddr (s.cluster c).seq o.d 2 then { w with last := (o.walked 0 dst).last } else w) })
    else s.modOpAt c i (fun x => { x with outs := some r })

/-- The words a write beat writes: those of its slot's results, or open ones where a sparse tile's index or masks have changed
since its issue; a line lost to a bank conflict is not written (R112, R143) (DESIGN CHOICE, log entry 32). -/
def State.beatWords (s : State) (c : Nat) (o : EngOp) (b : WriteBeat) : List PWord :=
  if s.unstable c o then s.freeWords b.n else ((insOf o.result.1 b.slot).drop b.off).take b.n

/-- One write beat (R118, R119): its word writes are added to those of the cycle, or a failed full test drops them. -/
def State.doWrite (s : State) (c : Nat) (o : EngOp) (b : WriteBeat) (ok : Nat → Bool) (acc : List (Nat × PWord)) :
    State × List (Nat × PWord) :=
  let vs := s.beatWords c o b
  let delay := match b.dst with
    | .addr a => writeLat a
    | .circ r => ((s.cluster c).region r).delay
  let s1 := (if s.unstable c o then s.takeFree (2 * b.n) else s).befallWrite c o b delay
  let kept (l : List (Nat × PWord)) : List (Nat × PWord) :=
    (l.zipIdx.filter (fun x => o.keepsWord b x.2)).map Prod.fst
  match b.dst with
  | .addr a => (s1, acc ++ kept (vs.zipIdx.map (fun vi => (a + vi.2, vi.1))))
  | .circ r =>
    let q := (s1.cluster c).region r
    if ok r then
      ((s1.testWrite c r (linesOf b.n)).headPast c r b.n, acc ++ kept (q.placed q.head.toNat vs))
    else ((s1.testWrite c r (linesOf b.n)).circFault c r 0x09 o.desc, acc)

/-- Fold a step over operations with their places. -/
def foldOps (ops : List EngOp) (i : Nat) (f : State → Nat → EngOp → State) (s : State) : State :=
  match ops with
  | [] => s
  | o :: r => foldOps r (i + 1) f (f s i o)

/-- The accesses a cluster's engines issue in PART_CYCLE t, the clock standing there: reads, results formed, writes. A read sees
what earlier cycles wrote (R111) (DEDUCED, log entry 75). -/
def State.doCycle (s : State) (c t : Nat) : State :=
  let ops := (s.cluster c).ops
  let fab := s.clock.fab
  let okR (r : Nat) : Bool := ((s.cluster c).region r).admitsRead fab (readLines ops r t)
  let s1 := foldOps ops 0 (fun u i o =>
    (o.reads.filter (fun b => b.cyc == t)).foldl (fun v b =>
      v.doRead c i ((v.cluster c).ops.getD i o) b okR) u) s
  let s2 := foldOps (s1.cluster c).ops 0 (fun u i o => u.form c i o) s1
  let ops2 := (s2.cluster c).ops
  let okW (r : Nat) : Bool := ((s2.cluster c).region r).admitsWrite fab (s2.dueLines c r t)
  let s3 := foldOps ops2 0 (fun u i o =>
    if o.hap == .residue && !o.reported && o.writes.any (fun b => b.cyc == t) then
      (u.engineError c o).modOpAt c i (fun x => { x with reported := true })
    else u) s2
  let go (o : EngOp) (b : WriteBeat) : Bool := b.cyc == t && o.mayWrite b
  let w := ops2.foldl (fun a o => (o.writes.filter (go o)).foldl (fun x b => x.1.doWrite c o b okW x.2) a) (s3, [])
  let s4 := w.1.modCluster c (fun x => { x with ops := x.ops.map (fun o =>
    { o with writes := o.writes.filter (fun b => !go o b) }) })
  (s4.takeBanks c (w.2.map Prod.fst)).writeCycle c w.2

/-- The next cycle in which an engine of the cluster has something to issue. -/
def EngOp.nextDue (o : EngOp) : Option Nat :=
  let cs := o.reads.map ReadBeat.cyc ++ (o.writes.filter o.mayWrite).map WriteBeat.cyc
  cs.foldl (fun a c => match a with | none => some c | some b => some (min b c)) none

def Cluster.nextDue (x : Cluster) : Option Nat :=
  x.ops.foldl (fun a o => match a, o.nextDue with
    | some b, some c => some (min b c)
    | none, c => c
    | b, none => b) none

def State.settleFuel (fuel : Nat) (s : State) (c lim : Nat) : State :=
  match fuel with
  | 0 => s
  | k + 1 =>
    match (s.cluster c).nextDue with
    | none => s
    | some t =>
      if t < lim then
        State.settleFuel k (s.asOf (s.clock.fab + t - s.partCycleOf c) (fun u => u.doCycle c t)) c lim
      else s

/-- Bound on the cycles that remain to be performed: one per beat, and those a WALK adds. -/
def Cluster.beats (x : Cluster) : Nat :=
  x.ops.foldl (fun a o => a + o.reads.length + o.writes.length + (if o.unit = 4 then 2 * o.d.count + 2 else 0)) 0

/-- Perform every access the engines of cluster c issue before PART_CYCLE `lim`; nothing moves in a hold or a stop (R97). -/
def State.settleBefore (s : State) (c lim : Nat) : State :=
  if s.live c then State.settleFuel (s.cluster c).beats s c lim else s

/-- Perform every access the engines of cluster c have issued up to the present cycle (DEDUCED, log entry 75). -/
def State.settle (s : State) (c : Nat) : State := s.settleBefore c (s.partCycleOf c + 1)

/-- Bring a cluster to a PART_CYCLE, with every access issued up to there. -/
def State.toCycle (s : State) (c pc : Nat) : State := (s.atPart (partNo (s.ownerOf c)) pc).settle c

end Sys2Proof.Machine
end

