-- ==== Sys2Proof/Machine/Spine.lean ====
section
/-! DEFINITION. What the sequencer, the sync objects and the stream contexts do to each other: the wait test, the end of a
wait, arrivals, phases, and the halt of a context (R90, R182, R185, R219, R221, R280). -/

namespace Sys2Proof.Machine

open Sys2Proof

/-- The wait test of R90 on an object, by the modular comparison of R185. -/
def SyncObj.passes (o : SyncObj) : Bool := decide ((o.phase + 256 - o.seqArr) % 256 < 128)

/-- Move the cycles a cluster has waited from OPEN_WAIT to the cause of the event that ended the wait (R280) (DEDUCED, log entry 140). -/
def State.endWait (s : State) (c : Nat) (why : WaitCause) : State :=
  match s.ownerOf c with
  | none => s
  | some p =>
    s.modIdle p (fun i =>
      let n := mapGet (natD 0) i.openBy c
      if n = 0 then i
      else
        let j := { i with live := { i.live with openWait := i.live.openWait - BitVec.ofNat 64 n }
                          openBy := mapSet (natD 0) i.openBy c 0 }
        j.add why.sub n)

/-- The release or completion that ends a wait is delivered: the sequencer returns to RUN, and the waiting descriptor
issues no earlier than two cycles later (R90, R92). -/
def State.wake (s : State) (c : Nat) (why : WaitCause) : State :=
  let now := s.partCycleOf c
  (s.endWait c why).modCluster c (fun x => { x with seq := { x.seq with state := .run, wakeAt := some now } })

/-- Word w of stream descriptor i of local context k (R216), or none when it is uncorrectable. -/
def State.streamWord (s : State) (c k i w : Nat) : Option Nat :=
  (s.getByteCoded c (ctxBase k + 16 + 16 * i + w)).map BitVec.toNat

/-- Is a trigger that the context's own counts decide satisfied (R220)? TRIG codes of Table 7.12. -/
def Ctx.fires (x : Ctx) (trig : Nat) : Bool :=
  match trig with
  | 0 => true
  | 1 => decide (1 ≤ x.pendStart)
  | 2 => x.timerDone
  | 3 => decide (1 ≤ x.pendChain)
  | 4 => decide (1 ≤ x.pendSync)
  | _ => false

/-- A context has a descriptor that is ACTIVE or issued but not completed (R92, R224), or one whose trigger its counts
already satisfy and which is therefore ACTIVE in this cycle (R220), or is halted. -/
def State.ctxBusy (s : State) (c k : Nat) : Bool :=
  let x := s.ctx c k
  !x.descs.isEmpty || x.state == 3
    || (x.state == 1 && x.fires (bitsN ((s.streamWord c k x.cur 0).getD 0) 7 4))

/-- Test the waiting descriptor again, after a delivery on local object `obj` (some) or a completion of context `k`.
(DEDUCED, log entry 140.) -/
def State.retest (s : State) (c : Nat) (obj ctx : Option Nat) (why : WaitCause) : State :=
  let q := (s.cluster c).seq
  if q.state = .wait then
    match s.fetchDesc c q.pc with
    | none => s
    | some d =>
      let objOk := !d.waitEn || (s.sync (4 * c + d.waitObj)).passes
      let isSwait := d.unit == 7 && d.opcode == 0x81
      let ctxOk := !isSwait || !s.ctxBusy c d.ctx
      let mine := (d.waitEn && obj == some d.waitObj) || (isSwait && ctx == some d.ctx)
      if mine && objOk && ctxOk then s.wake c why else s
  else s

/-- A context halts (R219): HALTED with its cause, a record, and the sequencer in FAULT with STREAM_HALT (R92). A context
already halted keeps its cause. -/
def State.haltCtx (s : State) (c k cause : Nat) : State :=
  if (s.ctx c k).state = 3 then s
  else
    let s1 := s.modCtx c k (fun x => { x with state := 3, haltCause := cause })
    let s2 := s1.log 0x12 1 (partNo (s.ownerOf c)) cause 4 (elemCode 0x12 (partNo (s.ownerOf c) % 8)) 0
    s2.clusterFault c 0x06 (s.curDesc c)

/-- ENABLE of CTX_CTRL, CHAIN_SRC and SYNC_SRC. -/
def Ctx.enabled (x : Ctx) : Bool := x.ctrl.getLsbD 0
def Ctx.head (x : Ctx) : Nat := bitsN x.ctrl.toNat 6 1
def Ctx.chainSrc (x : Ctx) : Nat := bitsN x.ctrl.toNat 8 7
def Ctx.syncSrc (x : Ctx) : Nat := bitsN x.ctrl.toNat 10 9

/-- Which PEND count an event adds to (R221). -/
inductive Pend where
  | start | chain | sync
  deriving DecidableEq, Repr

/-- One event reaches a context's PEND count; a count that would reach 16 halts it with TRIG_OVERRUN (R221) (DEDUCED, log entry 140). -/
def State.addPend (s : State) (c k : Nat) (w : Pend) : State :=
  let x := s.ctx c k
  let v := match w with | .start => x.pendStart | .chain => x.pendChain | .sync => x.pendSync
  if v + 1 > 15 then s.haltCtx c k 5
  else s.modCtx c k (fun y => match w with
    | .start => { y with pendStart := v + 1 }
    | .chain => { y with pendChain := v + 1 }
    | .sync => { y with pendSync := v + 1 })

/-- Deliver a phase of local object `obj` to its cluster: PHASE increments, the contexts fed by the object count it, and a
sequencer waiting on it is tested again (R182, R183, R221). -/
def State.deliverPhase (s : State) (c obj : Nat) (why : WaitCause) : State :=
  let s1 := s.modSync (4 * c + obj) (fun o => { o with phase := (o.phase + 1) % 256, spineWait := false })
  let s2 := (List.range 4).foldl (fun t k =>
    if (t.ctx c k).syncSrc == obj then t.addPend c k .sync else t) s1
  s2.retest c (some obj) none why

/-- Complete a phase when PENDING has reached LOCAL_EXPECT and no group release is awaited (R182). -/
def State.tryPhase (s : State) (o : Nat) (why : WaitCause) : State :=
  let x := s.sync o
  if decide (0 < x.expect) && decide (x.expect ≤ x.pending) && !x.spineWait then
    let now := s.partCycleOf (o / 4)
    s.modSync o (fun y =>
      if y.scope then { y with pending := y.pending - y.expect, spineWait := true, owed := some now }
      else { y with pending := y.pending - y.expect, due := y.due ++ [(now + 4, why)] })
  else s

/-- An arrival on sync object o (R90, R182, R185), from the cluster's sequencer or from another source. -/
def State.arrive (s : State) (o : Nat) (fromSeq : Bool) (why : WaitCause) : State :=
  let x := s.sync o
  let c := o / 4
  if !x.en then s.clusterFault c 0x13 (s.curDesc c)
  else
    let ahead := (x.seqArr + 1 + 256 - x.phase) % 256
    if x.pending + 1 > 15 || (fromSeq && decide (15 < ahead) && decide (ahead < 128)) then
      s.clusterFault c 0x0E (s.curDesc c)
    else
      (s.modSync o (fun y => { y with
        pending := y.pending + 1
        seqArr := if fromSeq then (y.seqArr + 1) % 256 else y.seqArr })).tryPhase o why

/-- An arrival reaches spine group g from a member, with a payload when it is an update-engine port's sent in PART_CYCLE `at_` (R183, R247). -/
def State.groupArrive (s : State) (g at_ : Nat) (payload : Option (Nat × Word)) : State :=
  s.modGroup g (fun x => { x with
    arrived := x.arrived + 1
    lastArr := max x.lastArr at_
    payloads := match payload with
      | some (n, w) => mapSet wordD x.payloads n w
      | none => x.payloads })

/-- Sync objects that are members of group g (R183), among the listed ones. -/
def State.memberObjects (s : State) (g : Nat) : List Nat :=
  (s.syncs.filter (fun kv => kv.2.en && kv.2.scope && kv.2.group == g)).map Prod.fst

end Sys2Proof.Machine
end

