-- ==== Sys2Proof/Machine/Sequencer.lean ====
section
/-! DEFINITION. The sequencer: the issue of a descriptor, which every engine, stream and sequencer command shares (R78,
R79, R86 to R92), and the sequencer unit's own operations (Table 3.10). -/

namespace Sys2Proof.Machine

open Sys2Proof

/-- Guard of a command that names a logical cluster. -/
def onCluster (c : Nat) (t : State) : Answer :=
  onNumber "cluster" 4096 c t

/-- May the sequencer of cluster c issue? It runs or waits, its partition runs and is not held, and END has not issued
(R93, R97). -/
def State.canIssue (s : State) (c : Nat) : Bool :=
  let q := (s.cluster c).seq
  match s.ownerOf c with
  | none => false
  | some p =>
    (s.part p).running && !(s.part p).holdActive && (q.state == .run || q.state == .wait) && !q.ending

/-- The wait tests of a descriptor (R90, R92). -/
def State.issueTests (s : State) (c : Nat) (d : Desc) : Bool :=
  (!d.waitEn || (s.sync (4 * c + d.waitObj)).passes) && !(d.unit == 7 && d.opcode == 0x81 && s.ctxBusy c d.ctx)

/-- Does the operation write result words? (R91) -/
def Desc.writes (d : Desc) : Bool := decide (1 ≤ d.unit) && decide (d.unit ≤ 6)

/-- Is the current descriptor one that a command for (unit, opcode, subop test) issues? A descriptor whose opcode is
undefined is issued by whichever command comes (R86). -/
def Desc.isOp (d : Desc) (units : List Nat) (op : Nat) (sub : Option Nat) : Bool :=
  !opcodeDefined d.unit d.opcode d.subop
    || (units.contains d.unit && d.opcode == op && (match sub with | some v => d.subop == v | none => true))

/-- Branch or fall through after an issue (R89); past descriptor 4,095 the sequencer enters FAULT, but for an END, after which
SEQ_PC stays at 4,095 (DEDUCED, log entry 159). -/
def State.advancePc (s : State) (c : Nat) (d : Desc) : State :=
  let q := (s.cluster c).seq
  let l := mapGet loopD q.loops d.loopSel
  if d.loopEnd && l.set && decide (l.iter + 1 < l.count) then
    s.modCluster c (fun x => { x with seq := { x.seq with
      pc := d.target, loops := mapMod loopD x.seq.loops d.loopSel (fun y => { y with iter := y.iter + 1 }) } })
  else
    let s1 := if d.loopEnd then
        s.modCluster c (fun x => { x with seq := { x.seq with
          loops := mapMod loopD x.seq.loops d.loopSel (fun y => { y with iter := 0 }) } })
      else s
    if d.index = 4095 then (if d.unit = 0 && d.opcode = 0x03 then s1 else s1.clusterFaultIn c 0x01 4095 1)
    else s1.modCluster c (fun x => { x with seq := { x.seq with pc := d.index + 1 } })

/-- Issue cycle of descriptor d: ISSUE_DELTA after the descriptor before it, and no earlier than two cycles after the delivery
that ended a wait (R88, R90, R92). -/
def Seq.dueFor (q : Seq) (d : Desc) : Nat :=
  let at0 := q.lastIssue + d.delta
  match q.wakeAt with
  | some v => max at0 (v + 2)
  | none => at0

/-- The sequencer in the issue cycle: RUN, and the next descriptor is timed from here (R88). -/
def State.beginIssue (s : State) (c : Nat) : State :=
  s.modCluster c (fun x => { x with seq := { x.seq with state := .run, lastIssue := s.partCycleOf c, wakeAt := none } })

/-- What follows an operation's own effect in its issue: the arrival sent at issue, and the next index (R89 to R91); nothing once
the sequencer is in FAULT (DEDUCED, log entry 159). -/
def State.finishIssue (s : State) (c : Nat) (d : Desc) : State :=
  if (s.cluster c).seq.state = .fault then s
  else
    let s1 := if d.arriveEn && !(d.arriveAt && d.writes) then s.arrive (4 * c + d.arriveObj) true .slack else s
    if (s1.cluster c).seq.state = .fault then s1 else s1.advancePc c d

/-- Chunks the WALK of a descriptor keeps, its masks as they stand; 0 for any other operation (R140). -/
def State.walkKept (s : State) (c : Nat) (d : Desc) : Nat :=
  if d.unit = 4 ∧ d.opcode = 0x50 ∧ d.count ≤ 2048 then
    let q := (s.cluster c).seq
    let plane (j : Nat) : List PWord := (List.range d.count).map (fun i => s.peekWord c (effAddr q d j + i))
    (walkMasks (plane 0) (plane 1)).1.length
  else 0

/-- The issue of descriptor d in its cycle: the validity test, the operation's own effect, the arrival of an operation sent at
issue, and the next index. -/
def State.issueNow (s : State) (c : Nat) (d : Desc) (effect : Desc → State → State) : State :=
  if descInvalid (s.cluster c) (s.walkKept c d) d then s.clusterFault c 0x01 d.index
  else (effect d (s.beginIssue c)).finishIssue c d

/-- The issue of the next descriptor of cluster c, when it is one this command issues: the wait test, the issue cycle with every
access the engines have issued up to it, and the issue itself (DEDUCED, log entry 75). -/
def State.issue (s : State) (c : Nat) (mine : Desc → Bool) (effect : Desc → State → State) : State :=
  let s0 := s.settle c
  if !s0.canIssue c then s0
  else
    let q := (s0.cluster c).seq
    match s0.fetchDesc c q.pc with
    | none => s0.clusterFault c 0x03 q.pc
    | some d =>
      if !mine d then s0
      else if !s0.issueTests c d then s0.modCluster c (fun x => { x with seq := { x.seq with state := .wait } })
      else
        let s1 := s0.toCycle c (q.dueFor d)
        if s1.canIssue c then s1.issueNow c d effect else s1

/-! Engine operations at issue. -/

/-- Number of queued operations of a unit that have not begun (R79) (DEDUCED, log entry 75). -/
def State.queueLen (s : State) (c unit : Nat) : Nat :=
  ((s.cluster c).ops.filter (fun o => o.unit == unit && decide (s.partCycleOf c < o.f))).length

/-- Earliest F of a unit: the cycle after the last input word of its previous operation (R79). -/
def State.earliestF (s : State) (c unit : Nat) : Nat :=
  (s.cluster c).ops.foldl (fun acc o => if o.unit = unit then max acc (o.inLast + 1) else acc) 0

/-- Cycle of the first reads of an operation that issues now with a largest read latency `lat`: the issue cycle, or the earliest F
less `lat` if that is later (R79). -/
def State.firstReads (s : State) (c unit lat : Nat) : Nat := max (s.partCycleOf c) (s.earliestF c unit - lat)

/-- Put an operation into its engine, or QUEUE_OVERRUN when four wait (R79). -/
def State.submit (s : State) (c : Nat) (h : Hap) (o : EngOp) : State :=
  if s.queueLen c o.unit ≥ 4 then s.clusterFault c 0x02 o.desc
  else
    let hap := if h = .residue ∧ !(o.unit == 2 || o.unit == 3 || o.unit == 6) then Hap.clean else h
    s.modCluster c (fun x => { x with ops := x.ops ++ [{ o with hap := hap }] })

/-! The end of an operation. -/

/-- Remove the first operation a test selects. -/
def removeFirst (p : EngOp → Bool) (l : List EngOp) : List EngOp :=
  match l with
  | [] => []
  | o :: r => if p o then r else o :: removeFirst p r

/-- END completes once every engine of the cluster has written its last result (Table 3.10). -/
def State.checkEnd (s : State) (c : Nat) : State :=
  let x := s.cluster c
  if x.seq.ending && x.ops.isEmpty && x.seq.state == .run then
    s.modCluster c (fun y => { y with seq := { y.seq with state := .done, ending := false } })
  else s

/-- Send the arrival an operation sends with its last result word (R91); for a circular destination in the cycle the
last line's write takes effect. -/
def State.sendLast (s : State) (c : Nat) (o : EngOp) : State :=
  match o.arrive with
  | none => s
  | some obj =>
    let extra := match slotAt (s.cluster c) o.d 2 with
      | .reg r => ((s.cluster c).region r).delay
      | .mem _ => 0
    (if extra = 0 then s else s.atPart (partNo (s.ownerOf c)) (o.last + extra)).arrive (4 * c + obj) true .slack

/-! The sequencer unit's operations. -/

def isSeqOp (op : Nat) (d : Desc) : Bool := d.isOp [0] op none

/-- NOP: nothing (Table 3.10), on the sequencer unit or the sync unit. -/
def execNop (c : Nat) (s : State) : Answer :=
  onCluster c (s.issue c (fun d => d.isOp [0, 8] 0x00 none) (fun _ t => t))

/-- LOOP_SET: counter LOOP_SEL takes COUNT, ITER 0 and five strides (R87). -/
def execLoopSet (c : Nat) (s : State) : Answer :=
  onCluster c (s.issue c (isSeqOp 0x01) (fun d t =>
    t.modCluster c (fun x => { x with seq := { x.seq with
      loops := mapSet loopD x.seq.loops d.loopSel
        ⟨d.count, 0, (List.range 5).map (fun j => BitVec.ofNat 24 (d.addr j)), true⟩ } })))

/-- The step number a partition is computing: one more than its committed step (R20, R501). -/
def State.stepOf (s : State) (p : Nat) : Nat := s.committedStep p + 1

/-- STEP_MARK: load N and reseed every generator of the cluster (R56). -/
def execStepMark (c : Nat) (s : State) : Answer :=
  onCluster c (s.issue c (isSeqOp 0x02) (fun _ t =>
    let n := t.stepOf (partNo (t.ownerOf c))
    let t1 := t.modCluster c (fun x => { x with seq := { x.seq with stepN := n } })
    (List.range 4).foldl (fun u k => u.setGen c k (lfsrSeed (u.ctx c k).seed n)) t1))

/-- END: DONE once every engine of the cluster has written its last result. -/
def execEndQuire (c : Nat) (s : State) : Answer :=
  onCluster c (s.issue c (isSeqOp 0x03) (fun _ t =>
    (t.modCluster c (fun x => { x with seq := { x.seq with ending := true } })).checkEnd c))

/-- ARRIVE: arrive on ARRIVE_OBJ (R90); the arrival itself is the issue's (ARRIVE_EN set). -/
def execArrive (c : Nat) (s : State) : Answer :=
  onCluster c (s.issue c (fun d => d.isOp [0, 8] 0x04 none) (fun _ t => t))

/-- SSTART: one more start event for the local context CTX (R221). -/
def execSstart (c : Nat) (s : State) : Answer :=
  onCluster c (s.issue c (fun d => d.isOp [7] 0x80 none) (fun d t => t.addPend c d.ctx .start))

/-- SWAIT: its issue waits until the context has nothing active or uncompleted (R92); a halted context is a fault. -/
def execSwait (c : Nat) (s : State) : Answer :=
  onCluster c (s.issue c (fun d => d.isOp [7] 0x81 none) (fun _ t => t))

end Sys2Proof.Machine
end

