-- ==== Sys2Proof/Machine/Engines.lean ====
section
/-! DEFINITION. The engine descriptors' issue: the vector engine, the quantiser, the sparsity walker, the reduction engine, the
statistics engine and the matrix array (Tables 3.3, 3.5; R72 to R79, R139 to R149). Each puts one operation into its engine,
with the cycles of its reads and writes. -/

namespace Sys2Proof.Machine

open Sys2Proof

/-- Largest read latency of the source slots of a streaming operation (R78). -/
def streamLat (cl : Cluster) (d : Desc) : Nat := (sourceFlows d).foldl (fun a x => max a ((slotAt cl d x.slot).lat cl)) 0

/-- A streaming operation of descriptor d, issued now (R78, R79). -/
def State.streamIssued (s : State) (c : Nat) (d : Desc) : EngOp :=
  let cl := s.cluster c
  let lat := streamLat cl d
  streamOp cl d (s.firstReads c d.unit lat) lat

/-- The issue of a streaming operation. -/
def streamEffect (c : Nat) (h : Hap) (d : Desc) (s : State) : State := s.submit c h (s.streamIssued c d)

/-- A streaming command: issue of a descriptor of this unit and opcode (and SUBOP where it selects the operation). -/
def streamIssue (c : Nat) (h : Hap) (unit op : Nat) (sub : Option Nat) (s : State) : Answer :=
  onCluster c (s.issue c (fun d => d.isOp [unit] op sub) (streamEffect c h))

/-! The vector engine. -/

def execAdd (c : Nat) (h : Hap) (s : State) : Answer := streamIssue c h 2 0x20 none s
def execSub (c : Nat) (h : Hap) (s : State) : Answer := streamIssue c h 2 0x21 none s
def execMul (c : Nat) (h : Hap) (s : State) : Answer := streamIssue c h 2 0x22 none s
def execFma (c : Nat) (h : Hap) (s : State) : Answer := streamIssue c h 2 0x23 none s
def execMin (c : Nat) (h : Hap) (s : State) : Answer := streamIssue c h 2 0x24 (some 0) s
def execMax (c : Nat) (h : Hap) (s : State) : Answer := streamIssue c h 2 0x24 (some 1) s
def execAbs (c : Nat) (h : Hap) (s : State) : Answer := streamIssue c h 2 0x25 (some 0) s
def execNeg (c : Nat) (h : Hap) (s : State) : Answer := streamIssue c h 2 0x25 (some 1) s
def execScale2 (c : Nat) (h : Hap) (s : State) : Answer := streamIssue c h 2 0x26 none s
def execCmp (c : Nat) (h : Hap) (s : State) : Answer := streamIssue c h 2 0x27 none s
def execSel (c : Nat) (h : Hap) (s : State) : Answer := streamIssue c h 2 0x28 none s
def execCvt (c : Nat) (h : Hap) (s : State) : Answer := streamIssue c h 2 0x29 none s
def execRowmax (c : Nat) (h : Hap) (s : State) : Answer := streamIssue c h 2 0x2A none s
def execRowsum (c : Nat) (h : Hap) (s : State) : Answer := streamIssue c h 2 0x2B none s
def execExp (c : Nat) (h : Hap) (s : State) : Answer := streamIssue c h 2 0x30 none s
def execLog (c : Nat) (h : Hap) (s : State) : Answer := streamIssue c h 2 0x31 none s
def execRecip (c : Nat) (h : Hap) (s : State) : Answer := streamIssue c h 2 0x32 none s
def execSqrt (c : Nat) (h : Hap) (s : State) : Answer := streamIssue c h 2 0x33 none s
def execRsqrt (c : Nat) (h : Hap) (s : State) : Answer := streamIssue c h 2 0x34 none s
def execTanh (c : Nat) (h : Hap) (s : State) : Answer := streamIssue c h 2 0x35 none s
def execDiv (c : Nat) (h : Hap) (s : State) : Answer := streamIssue c h 2 0x36 none s

/-! The quantiser: a QUANT takes its draws from the generator of local context CTX (R54, R57). -/

/-- QUANT at issue: the operation starts from the generator's state, and its draws are taken (DEDUCED, log entry 160). -/
def quantEffect (c : Nat) (h : Hap) (d : Desc) (s : State) : State :=
  let g := s.gen c d.ctx
  (s.submit c h { s.streamIssued c d with seed := g }).setGen c d.ctx (lfsrIter (16 * quantDraws d) g)

def execQuant (c : Nat) (h : Hap) (s : State) : Answer :=
  onCluster c (s.issue c (fun d => d.isOp [3] 0x40 none) (quantEffect c h))

def execDequant (c : Nat) (h : Hap) (s : State) : Answer := streamIssue c h 3 0x41 none s

/-! The sparsity walker. -/

/-- WALK at issue (R139 to R143): it is the cluster's most recent one. -/
def walkEffect (c : Nat) (h : Hap) (d : Desc) (s : State) : State :=
  let q := (s.cluster c).seq
  let o := s.streamIssued c d
  (s.submit c h o).modCluster c (fun x => { x with
    walk := some ⟨effAddr q d 2, effAddr q d 0, effAddr q d 1, d.count, o.last⟩ })

def execWalk (c : Nat) (h : Hap) (s : State) : Answer :=
  onCluster c (s.issue c (fun d => d.isOp [4] 0x50 none) (walkEffect c h))

/-! The reduction engine. -/

def execRedAdd (c : Nat) (h : Hap) (s : State) : Answer := streamIssue c h 5 0x60 none s
def execRedAcc (c : Nat) (h : Hap) (s : State) : Answer := streamIssue c h 5 0x61 none s

/-! The statistics engine. -/

def execSumsq (c : Nat) (h : Hap) (s : State) : Answer := streamIssue c h 6 0x70 none s
def execAmax (c : Nat) (h : Hap) (s : State) : Answer := streamIssue c h 6 0x71 none s
def execSatcnt (c : Nat) (h : Hap) (s : State) : Answer := streamIssue c h 6 0x72 none s
def execHist (c : Nat) (h : Hap) (s : State) : Answer := streamIssue c h 6 0x73 none s

/-! The matrix array. -/

/-- Largest read latency of the slots a tile reads (R78, R144). -/
def tileLat (cl : Cluster) (d : Desc) (kept : List Nat) : Nat :=
  (tileSlots d kept).foldl (fun a j => max a ((slotAt cl d j).lat cl)) 0

/-- Reads of a tile, all issued with the first: the manual gives the cycle of the first reads and of the last word, and R76 keeps the
words as they are until the write-back (DEDUCED, log entry 75). -/
def tileReads (cl : Cluster) (d : Desc) (kept : List Nat) (start : Nat) : List ReadBeat :=
  (tileSlots d kept).map (fun j =>
    match slotAt cl d j with
    | .mem a => ⟨start, j, .words ((tileWords d j kept).map (a + ·))⟩
    | .reg r => ⟨start, j, .lines r (linesOf (tileSpan d j)) (tileWords d j kept)⟩)

/-- A tile whose first reads are issued in cycle `start`: verdict at F + T + 10, C written from F + T + 74 over 8 cycles, in order
(R72, R74). -/
def tileOp (cl : Cluster) (d : Desc) (kept : List Nat) (start t : Nat) (gens : List Word) (sp : Option Sparse) : EngOp :=
  let f := start + tileLat cl d kept
  let n := fmtWords (d.fmt 2) 2048
  { unit := 1, opcode := d.opcode, desc := d.index, ws := d.ws, f := f, t := t, inLast := f + t - 1, last := f + t + 81,
    stage := .computing, mismatches := 0, reads := tileReads cl d kept start, ins := [],
    writes := writeBeats 2 (f + t + 74) 8 n (slotAt cl d 2).dest (fun k => (k + 1) * (n / 8)),
    outs := none, seed := 0, gens := gens, tails := [], arrive := if d.arriveEn && d.arriveAt then some d.arriveObj else none,
    groups := 0, judged := 0, failed := [], sparse := sp, hap := .clean, reported := false }

/-- Generator states of the four local contexts. -/
def State.generators (s : State) (c : Nat) : List Word := (List.range 4).map (s.gen c)

/-- MMA and MMZ at issue (R72 to R74, R79). -/
def denseEffect (c : Nat) (h : Hap) (d : Desc) (s : State) : State :=
  let cl := s.cluster c
  let kept := List.range d.count
  let start := s.firstReads c 1 (tileLat cl d kept)
  s.submit c h (tileOp cl d kept start (d.count * cyclesPerChunk (d.fmt 0)) (s.generators c) none)

def execMma (c : Nat) (h : Hap) (s : State) : Answer :=
  onCluster c (s.issue c (fun d => d.isOp [1] 0x10 none) (denseEffect c h))

def execMmz (c : Nat) (h : Hap) (s : State) : Answer :=
  onCluster c (s.issue c (fun d => d.isOp [1] 0x11 none) (denseEffect c h))

/-- An index buffer as MMA_SP reads it: header and entries. -/
structure IndexRead where
  head : PWord
  entries : List PWord
  deriving DecidableEq, Repr

def goodParity (w : PWord) : Bool := !w.poison && evenParity w.w.toNat

/-- N of the header; a poisoned header delivers 0 (R129) (DEDUCED, log entry 169). -/
def IndexRead.n (x : IndexRead) : Nat := bitsN x.head.w.toNat 16 0

/-- A parity error in an index word (R149). -/
def IndexRead.parity (x : IndexRead) : Bool := (x.head :: x.entries).any (fun e => !e.poison && !evenParity e.w.toNat)

/-- POISON of a sound header, or a poisoned index word (R148). -/
def IndexRead.poison (x : IndexRead) : Bool :=
  (goodParity x.head && bitN x.head.w.toNat 30) || (x.head :: x.entries).any PWord.poison

/-- The buffer does not fit the tile: a sound header with N above KCHUNKS, or a sound entry with CHUNK not below it (R148).
(DEDUCED, log entry 169.) -/
def IndexRead.unfit (x : IndexRead) (k : Nat) : Bool :=
  (goodParity x.head && decide (k < x.n))
    || x.entries.any (fun e => goodParity e && decide (k ≤ bitsN e.w.toNat 15 0))

/-- The chunks the entries list, those the tile has; a poisoned entry lists none. -/
def IndexRead.kept (x : IndexRead) (k : Nat) : List Nat :=
  ((x.entries.filter (fun e => !e.poison)).map (fun e => bitsN e.w.toNat 15 0)).filter (fun ch => decide (ch < k))

/-- Read the index buffer of a walk through the walker's port: the header, then at most KCHUNKS entries (R144) (DEDUCED, log entry 169). -/
def State.readIndex (s : State) (c : Nat) (w : WalkRef) (k : Nat) : IndexRead × State :=
  let h := s.readWords c [w.addr]
  let hw := h.1.getD 0 ⟨0, true⟩
  let e := h.2.readWords c ((List.range (min (bitsN hw.w.toNat 16 0) k)).map (fun i => w.addr + 1 + i))
  (⟨hw, e.1⟩, e.2)

/-- T of a sparse tile that keeps n chunks (R145). -/
def sparseT (d : Desc) (n : Nat) : Nat := max n ((d.count + 7) / 8) * cyclesPerChunk (d.fmt 0)

/-- MMA_SP at issue (R143 to R149): the index buffer of the latest WALK, the first operand reads L_i + 1 cycles later. C and its
flags are open when it issues before the cycle after the walk's last index word (DESIGN CHOICE, log entry 32; DEDUCED, log entry 169). -/
def sparseEffect (c : Nat) (h : Hap) (d : Desc) (s : State) : State :=
  match (s.cluster c).walk with
  | none => s.clusterFault c 0x0B d.index
  | some w =>
    let x := s.readIndex c w d.count
    if x.1.unfit d.count then x.2.clusterFault c 0x0C d.index
    else
      let kept := x.1.kept d.count
      let start := max (s.partCycleOf c + readLat w.addr + 1) (s.earliestF c 1 - tileLat (s.cluster c) d kept)
      let words := (List.range (x.1.entries.length + 1)).map (w.addr + ·) ++ (List.range w.count).map (w.maskA + ·)
        ++ (List.range w.count).map (w.maskB + ·)
      x.2.submit c h (tileOp (s.cluster c) d kept start (sparseT d (min x.1.n d.count)) (s.generators c) (some
        { walk := w, kept := kept, parity := x.1.parity, poison := x.1.poison,
          early := decide (s.partCycleOf c ≤ w.last),
          stable := words.map (fun a => (a, s.peekWord c a)) }))

def execMmaSp (c : Nat) (h : Hap) (s : State) : Answer :=
  onCluster c (s.issue c (fun d => d.isOp [1] 0x12 none) (sparseEffect c h))

end Sys2Proof.Machine
end

