-- ==== Sys2Proof/Machine/HoldStop.lean ====
section
/-! DEFINITION. Verdicts, write-back, hold and replay (R74, R75, R91, R96 to R101). -/

namespace Sys2Proof.Machine

open Sys2Proof

/-- Apply `f` to every listed cluster of partition p. -/
def State.eachCluster (s : State) (p : Nat) (f : Nat → Cluster → Cluster) : State :=
  { s with clusters := mapAll clusterD s.clusters (fun c x => if s.owns p c then f c x else x) }

/-- Apply `f` to every listed context of partition p. -/
def State.eachCtx (s : State) (p : Nat) (f : Nat → Ctx → Ctx) : State :=
  { s with ctxs := mapAll ctxD s.ctxs (fun n x => if s.owns p (n / 4) then f n x else x) }

/-- Guard of a command that names a partition. -/
def onPartition (p : Nat) (t : State) : Answer := onNumber "partition" 8 p t

/-- Does any listed cluster of a partition request a hold? -/
def State.holding (s : State) (p : Nat) : Bool := s.clusters.any (fun kv => s.owns p kv.1 && kv.2.seq.holdReq)

/-- A cluster raises a hold (R97). -/
def State.raiseHold (s : State) (c : Nat) : State :=
  let s1 := s.modCluster c (fun x => { x with seq := { x.seq with holdReq := true } })
  match s.ownerOf c with
  | none => s1
  | some p =>
    if (s.part p).holdActive || (s.part p).holdRaised.isSome then s1
    else s1.modPart p (fun q => { q with holdRaised := some s.clock.fab })

/-- Update, or drop, the first operation a test selects. -/
def modFirst (p : EngOp → Bool) (f : EngOp → EngOp) (l : List EngOp) : List EngOp :=
  match l with
  | [] => []
  | o :: r => if p o then f o :: r else o :: modFirst p f r

def State.modOp (s : State) (c : Nat) (p : EngOp → Bool) (f : EngOp → EngOp) : State :=
  s.modCluster c (fun x => { x with ops := modFirst p f x.ops })

def State.dropOp (s : State) (c : Nat) (p : EngOp → Bool) : State :=
  s.modCluster c (fun x => { x with ops := removeFirst p x.ops })

/-- ELEMENT of the matrix core (row, logical slot) of a cluster (Table 12.7), and of a reduction lane. -/
def State.coreElement (s : State) (c row slot : Nat) : Nat :=
  elemCode 0x01 (s.slotBits c + 2 ^ 13 * row + 2 ^ 15 * physCore (mapGet (natD 8) (s.cluster c).guard row) slot)
def State.laneElement (s : State) (c lane : Nat) : Nat := elemCode 0x02 (s.slotBits c + 2 ^ 13 * lane)

/-- RES_STATUS as a word, for fault records. -/
def ResRegs.word (r : ResRegs) : Word :=
  BitVec.ofNat 32 (b2n r.mxMismatch + 2 * b2n r.rdMismatch + 4 * b2n r.otherMismatch + 8 * r.lastRow + 32 * r.lastSlot
    + 512 * r.lastLane)

/-- Element a checker names (Table 12.7): a core, the walker for an index parity error (R149), or a reduction lane. -/
def State.misElement (s : State) (c : Nat) (m : Mis) : Nat :=
  match m with
  | .core row slot => s.coreElement c row slot
  | .index => elemCode 0x03 (s.slotBits c)
  | .lane n => s.laneElement c n

/-- RES_STATUS after a mismatch. An index parity error names no core, and LAST_CORE_ROW and LAST_SLOT keep what they held (DESIGN
CHOICE, log entry 161). -/
def Cluster.resAfter (x : Cluster) (m : Mis) : ResRegs :=
  let r := { x.res with events := satInc 16 x.res.events }
  match m with
  | .core row slot => { r with mxMismatch := true, lastRow := row, lastSlot := physCore (mapGet (natD 8) x.guard row) slot }
  | .index => { r with mxMismatch := true }
  | .lane n => { r with rdMismatch := true, lastLane := n }

/-- Count a mismatch (R96, R100, R149): registers, the per-slot counter, and the event on the element the checker names. -/
def State.mismatch (s : State) (c : Nat) (m : Mis) : State :=
  let s1 := s.modCluster c (fun x => { x with res := x.resAfter m })
  let sub := match m with | .lane _ => 2 | _ => 1
  let s2 := s1.count (counterKey 0x5100 sub (s.physSlot c)) 1
  (s2.elementEvent (s.misElement c m) .marking false (s.ownerOf c) 0 1 (s1.cluster c).res.word).1

def tileComputing (o : EngOp) : Bool := o.unit == 1 && o.stage == .computing
def tilePending (o : EngOp) : Bool := o.unit == 1 && o.stage == .pending
def tileFailed (o : EngOp) : Bool := o.unit == 1 && o.stage == .failed
def redJudging (o : EngOp) : Bool := o.unit == 5 && decide (o.judged < o.groups)
def redFailed (o : EngOp) : Bool := o.unit == 5 && !o.failed.isEmpty
def opFailed (o : EngOp) : Bool := tileFailed o || redFailed o

/-- PENDING_TILES in PART_CYCLE pc: tiles whose verdict has been formed and whose write-back has not begun (R75). -/
def Cluster.pendingTiles (x : Cluster) (pc : Nat) : Nat :=
  x.ops.countP (fun o => o.unit == 1 && o.stage != .computing && decide (pc < o.f + o.t + 74))

/-- Is the C of a tile poisoned: by an operand word, or by its index (R77, R148)? -/
def EngOp.poisoned (o : EngOp) : Bool :=
  tilePoison o.ins || (match o.sparse with
    | some x => x.poison
    | none => false)

/-- The mismatch that fails a tile: what the checker found, or a parity error of its index. A poisoned tile is not replayed, and no
mismatch of it is counted (R77, R148) (DEDUCED, log entry 162). -/
def EngOp.fails (o : EngOp) (m : Option Mis) : Option Mis :=
  if o.poisoned then none
  else match m, o.sparse with
    | some (.core r sl), _ => some (.core r sl)
    | some .index, some _ => some .index
    | _, some x => if x.parity then some .index else none
    | _, none => none

/-- TILE_VERDICT: at F + T + 10 the verdict of the oldest computing tile is formed (R74, R75, R77, R96, R149). -/
def tileVerdictEffect (c : Nat) (m : Option Mis) (s : State) : State :=
  match (s.cluster c).ops.find? tileComputing with
  | none => s
  | some o =>
    if !s.live c then s
    else
      let s1 := s.toCycle c (o.f + o.t + 10)
      match (s1.cluster c).ops.find? tileComputing with
      | none => s1
      | some o1 =>
        if (s1.cluster c).pendingTiles (s1.partCycleOf c) ≥ 8 then (s1.dropOp c tileComputing).clusterFault c 0x07 o1.desc
        else
          match o1.fails m with
          | some x =>
            ((s1.mismatch c x).modOp c tileComputing (fun y => { y with stage := .failed, mismatches := y.mismatches + 1 })).raiseHold c
          | none => (s1.setFlags c 1 o1.result.2).modOp c tileComputing (fun y => { y with stage := .pending })

def execTileVerdict (c : Nat) (m : Option Mis) (s : State) : Answer := onCluster c (tileVerdictEffect c m s)

/-- TILE_WRITEBACK: the oldest pending tile has written C, from F + T + 74 over 8 cycles; its ARRIVE_AT arrival goes with the last
(R74, R91). -/
def tileWritebackEffect (c : Nat) (s : State) : State :=
  match (s.cluster c).ops.find? tilePending with
  | none => s
  | some o =>
    if !s.live c then s
    else
      let s1 := s.toCycle c o.last
      ((s1.dropOp c tilePending).sendLast c o).checkEnd c

def execTileWriteback (c : Nat) (s : State) : Answer := onCluster c (tileWritebackEffect c s)

/-- REDUCTION_VERDICT: the verdict of the next group of 64 elements, 6 cycles after its inputs (R96). A mismatch suppresses the group
alone. -/
def reductionVerdictEffect (c : Nat) (mm : Option Nat) (s : State) : State :=
  match (s.cluster c).ops.find? redJudging with
  | none => s
  | some o =>
    if !s.live c then s
    else
      let s1 := s.toCycle c (o.f + o.judged + 6)
      match mm with
      | some lane =>
        ((s1.mismatch c (.lane lane)).modOp c redJudging (fun y =>
          { y with judged := y.judged + 1, failed := y.failed ++ [(y.judged, 1)] })).raiseHold c
      | none => s1.modOp c redJudging (fun y => { y with judged := y.judged + 1 })

def execReductionVerdict (c : Nat) (mm : Option Nat) (s : State) : Answer :=
  onCluster c (reductionVerdictEffect c mm s)

/-- The oldest operation of a unit without write-back phase. -/
def unitOp (unit : Nat) (o : EngOp) : Bool := o.unit == unit && o.unit != 1

/-- The end of operation o of a unit in its last cycle, all its writes issued: flags, the ARRIVE_AT arrival, and a waiting END. -/
def State.finishOp (s : State) (c unit : Nat) (o : EngOp) : State :=
  ((((s.dropOp c (unitOp unit)).setFlags c unit o.result.2).sendLast c o)).checkEnd c

/-- ENGINE_LAST_RESULT: the oldest operation of a unit issues the write of its last result word (R78, R91, R109). A reduction's groups
write only once their verdicts match (R96). -/
def engineLastEffect (c unit : Nat) (s : State) : State :=
  match (s.cluster c).ops.find? (unitOp unit) with
  | none => s
  | some o =>
    if !s.live c then s
    else
      let s1 := s.toCycle c o.inLast
      match (s1.cluster c).ops.find? (unitOp unit) with
      | none => s1
      | some o1 =>
        let s2 := s1.toCycle c o1.last
        match (s2.cluster c).ops.find? (unitOp unit) with
        | none => s2
        | some o2 => if o2.writes.isEmpty && o2.reads.isEmpty then s2.finishOp c unit o2 else s2

def execEngineLastResult (c unit : Nat) (s : State) : Answer := onCluster c (engineLastEffect c unit s)

/-- Do `f` for every listed cluster of partition p, in order. -/
def State.overClusters (s : State) (p : Nat) (f : State → Nat → State) : State :=
  ((s.clusters.filter (fun kv => s.owns p kv.1)).map Prod.fst).foldl f s

/-- The generators of a cluster whose failed tile is about to be replayed return to the state they had when the tile started, and what
the freeze found is kept (R58, R98). -/
def State.tileGens (s : State) (c : Nat) : State :=
  match (s.cluster c).ops.find? tileFailed with
  | none => s
  | some o =>
    let s1 := s.modCluster c (fun x => { x with seq := { x.seq with frozenGens := s.generators c } })
    o.gens.zipIdx.foldl (fun u g => u.setGen c g.2 g.1) s1

/-- The partition resumes: the frozen generators go on (R99). -/
def State.thawGens (s : State) (c : Nat) : State :=
  let s1 := (s.cluster c).seq.frozenGens.zipIdx.foldl (fun u g => u.setGen c g.2 g.1) s
  s1.modCluster c (fun x => { x with seq := { x.seq with frozenGens := [] } })

/-- Flits of a partition in PART_CYCLE pc: one whose departure slot is still to come has not been launched, and a hold parks it (R97,
R98). -/
def Flit.park (f : Flit) (p pc : Nat) : Flit := if f.part = p ∧ pc ≤ f.slot then { f with parked := true } else f

/-- A parked flit when its partition resumes in PART_CYCLE pc at fabric cycle `fab`. -/
def Flit.unpark (f : Flit) (p pc fab : Nat) : Flit :=
  if f.part = p ∧ f.parked then { f with parked := false, fcyc := fab + f.pcyc - pc } else f

/-- HOLD_DELIVERED: 48 cycles after the raise every sequencer of the partition in RUN, WAIT or DONE enters HOLD and the
partition's counts stop (R97). What would be issued in that cycle waits. -/
def holdDeliveredEffect (p : Nat) (s : State) : State :=
  match (s.part p).holdRaised with
  | none => s
  | some v =>
    if !(s.part p).running then s
    else
      let s0 := s.atFab (v + 48)
      let pc := (s0.part p).partCycle
      let s1 := s0.overClusters p (fun u c => u.settleBefore c pc)
      let s2 := s1.eachCluster p (fun _ x =>
        let q := if x.seq.state = .run ∨ x.seq.state = .wait ∨ x.seq.state = .done
          then { x.seq with held := x.seq.state, state := .hold } else x.seq
        { x with seq := if q.holdReq then { q with replayFrom := s1.clock.fab } else q })
      let s3 := s2.overClusters p (fun u c => u.tileGens c)
      let s4 := { s3 with fabric := { s3.fabric with flits := s3.fabric.flits.map (fun f => Flit.park f p pc) } }
      let s5 := s4.modPart p (fun q => { q with holdRaised := none, holdActive := true })
      (s5.count (counterKey 0x5011 1 0) 1).count (counterKey (0x5200 + p) 1 0) 1

def execHoldDelivered (p : Nat) (s : State) : Answer := onPartition p (holdDeliveredEffect p s)

/-- Bank words of slot j of a tile that a replay reads (R98). -/
def EngOp.replayWords (o : EngOp) (cl : Cluster) (j : Nat) (kept : List Nat) : List Nat :=
  match slotAt cl o.d j with
  | .mem a => (tileWords o.d j kept).map (a + ·)
  | .reg r => (tileWords o.d j kept).map (fun i => (cl.region r).wordAt (mapGet (natD 0) o.tails j + i))

/-- What a replay of a sparse tile takes its chunks from (R149): after a parity error the masks, walked again; else its index words.
Answers the kept chunks and the poison of the walk. -/
def State.rewalk (s : State) (c : Nat) (x : Sparse) : (List Nat × Bool) × State :=
  if x.parity then
    let a := s.readWords c ((List.range x.walk.count).map (x.walk.maskA + ·))
    let b := a.2.readWords c ((List.range x.walk.count).map (x.walk.maskB + ·))
    (walkMasks a.1 b.1, b.2)
  else
    let r := s.readWords c ((List.range (x.kept.length + 1)).map (x.walk.addr + ·))
    ((x.kept, x.poison), r.2)

/-- Fabric cycles from the freeze to the verdict of a tile's replay (R98, R149). -/
def EngOp.replayLat (o : EngOp) (cl : Cluster) (kept : List Nat) : Nat :=
  let lo := tileLat cl o.d kept
  match o.sparse with
  | none => 1 + lo + o.t + 10
  | some x =>
    if x.parity then max (readLat x.walk.maskA) (readLat x.walk.maskB) + 6 + lo + sparseT o.d kept.length + 10
    else 1 + readLat x.walk.addr + 1 + lo + o.t + 10

/-- The replay of a tile reads its operands again and rebuilds C (R98, R149). -/
def State.replayTile (s : State) (c : Nat) (o : EngOp) (kept : List Nat) (poison : Bool) : EngOp × State :=
  let cl := s.cluster c
  let r := (tileSlots o.d kept).foldl (fun (acc : SMap (List PWord) × State) j =>
    let x := acc.2.readWords c (o.replayWords cl j kept)
    (mapSet wordsD acc.1 j x.1, x.2)) ([], s)
  let o1 := { o with ins := r.1, sparse := o.sparse.map (fun (x : Sparse) => { x with kept := kept, poison := poison }) }
  ({ o1 with outs := if o.sparse.any Sparse.early then o.outs else some o1.compute }, r.2)

/-- A replay that mismatches for the third time (R100): the element the checker names is recorded for retirement. -/
def State.replayLimit (s : State) (c : Nat) (m : Mis) (sel : EngOp → Bool) (desc : Nat) : State :=
  let el := s.misElement c m
  let s1 := if (mapGet elemD s.faults.elems el).marked then s else s.markElement el (s.ownerOf c) 0x04 (s.cluster c).res.word
  (s1.dropOp c sel).clusterFault c 0x04 desc

/-- Replay again from this cycle (R100). -/
def State.replayAgain (s : State) (c : Nat) : State :=
  s.modCluster c (fun x => { x with seq := { x.seq with replayFrom := s.clock.fab } })

/-- A replayed result has matched: the cluster goes on with what else it holds, and raises release once no cluster of the partition
holds (R99). -/
def State.replayMatched (s : State) (c p : Nat) : State :=
  let more := (s.cluster c).ops.any opFailed
  let s1 := s.modCluster c (fun x => { x with seq := { x.seq with holdReq := more, replayFrom := s.clock.fab } })
  let s2 := if more then s1.tileGens c else s1
  if s2.holding p then s2 else s2.modPart p (fun q => { q with releaseRaised := some s2.clock.fab })

/-- The verdict of a replayed tile. -/
def replayTileEffect (c p : Nat) (m : Option Mis) (o : EngOp) (s : State) : State :=
  let freeze := (s.cluster c).seq.replayFrom
  let x := match o.sparse with
    | none => ((List.range o.d.count, false), s)
    | some sp => s.asOfPair (freeze + 1) (fun u => u.rewalk c sp)
  let rewalked := o.sparse.any Sparse.parity
  if rewalked && x.1.1.any (fun ch => decide (o.d.count ≤ ch)) then
    (x.2.dropOp c tileFailed).clusterFault c 0x0C o.desc
  else
    let y := x.2.asOfPair (freeze + 1) (fun u => u.replayTile c o x.1.1 x.1.2)
    let s1 := (y.2.atFab (freeze + o.replayLat (s.cluster c) x.1.1)).count (counterKey 0x5011 2 0) 1
    match (if y.1.poisoned then none else m) with
    | some e =>
      let s2 := s1.mismatch c e
      if o.mismatches + 1 ≥ 3 then s2.replayLimit c e tileFailed o.desc
      else (s2.modOp c tileFailed (fun z => { z with mismatches := z.mismatches + 1 })).replayAgain c
    | none =>
      ((s1.setFlags c 1 y.1.result.2).modOp c tileFailed (fun _ => { y.1 with stage := .pending })).replayMatched c p

/-- The verdict of a replayed reduction group: its inputs are in the engine, and the 6 cycles of the pipeline follow (R98) (DEDUCED,
log entry 77). -/
def replayGroupEffect (c p : Nat) (m : Option Mis) (o : EngOp) (g : Nat × Nat) (s : State) : State :=
  let s1 := (s.atFab ((s.cluster c).seq.replayFrom + 7)).count (counterKey 0x5011 2 0) 1
  match m with
  | some e =>
    let s2 := s1.mismatch c e
    if g.2 + 1 ≥ 3 then s2.replayLimit c e redFailed o.desc
    else (s2.modOp c redFailed (fun z => { z with
      failed := z.failed.map (fun h => if h.1 = g.1 then (h.1, h.2 + 1) else h) })).replayAgain c
  | none => (s1.modOp c redFailed (fun z => { z with failed := z.failed.filter (fun h => h.1 != g.1) })).replayMatched c p

/-- REPLAY_VERDICT: the verdict of the replayed tile or group, with what the checker names if it mismatches again (R98 to R100).
(DEDUCED, log entry 77). -/
def replayVerdictEffect (c : Nat) (m : Option Mis) (s : State) : State :=
  let p := partNo (s.ownerOf c)
  if !(s.part p).holdActive || (s.cluster c).seq.state != .hold then s
  else
    match (s.cluster c).ops.find? opFailed with
    | none => s
    | some o =>
      if o.unit = 1 then replayTileEffect c p m o s
      else
        match o.failed with
        | [] => s
        | g :: _ => replayGroupEffect c p m o g s

def execReplayVerdict (c : Nat) (m : Option Mis) (s : State) : Answer := onCluster c (replayVerdictEffect c m s)

/-- HOLD_RELEASE_DELIVERED: 48 cycles after the last release is raised every held sequencer returns to its state and every
count goes on (R99). -/
def holdReleaseEffect (p : Nat) (s : State) : State :=
  match (s.part p).releaseRaised with
  | none => s
  | some q =>
    if !(s.part p).holdActive || s.holding p then s
    else
      let s1 := s.atFab (q + 48)
      let s2 := s1.eachCluster p (fun _ x =>
        if x.seq.state = .hold then { x with seq := { x.seq with state := x.seq.held } } else x)
      let s3 := s2.overClusters p (fun u c => u.thawGens c)
      let s4 := { s3 with fabric := { s3.fabric with
        flits := s3.fabric.flits.map (fun f => Flit.unpark f p (s3.part p).partCycle s3.clock.fab) } }
      s4.modPart p (fun r => { r with holdActive := false, releaseRaised := none })

def execHoldReleaseDelivered (p : Nat) (s : State) : Answer := onPartition p (holdReleaseEffect p s)

end Sys2Proof.Machine
end

