-- ==== Sys2Proof/Machine/ClusterRegs.lean ====
section
/-! DEFINITION. Writes to the control pages of a cluster (R70, R103, R117, R120, R121, R133 to R136), the end of zeroing
(R123) and the unscheduled accesses (R113, R119). -/

namespace Sys2Proof.Machine

open Sys2Proof

/-- Bits of a written word. -/
def fld (v : Word) (hi lo : Nat) : Nat := bitsN v.toNat hi lo

/-- CORE_MAP_WRITE: refused whoever writes what in whatever state; MAP_REFUSED is set (R70). -/
def execCoreMapWrite (c k : Nat) (_v : Word) (who : Writer) (s : State) : Answer :=
  if k < 4 then
    onCluster c (s.guardedBy who (s.modCluster c (fun x => { x with seq := { x.seq with mapRefused := true } })))
  else .fault (.noSuchElement "core row" k)

/-- A refused write of the memory control page sets CFG_REFUSED. -/
def State.cfgRefused (s : State) (c : Nat) : State :=
  s.modCluster c (fun x => { x with mem := { x.mem with cfgRefused := true } })

/-- May the circular-region registers be written (R120)? -/
def State.circWritable (s : State) (c : Nat) (who : Writer) : Bool :=
  who == .binding || !((s.cluster c).seq.state == .run || (s.cluster c).seq.state == .wait || (s.cluster c).seq.state == .hold)

/-- A region with its CFG written (Table 4.7). -/
def Circ.withCfg (q : Circ) (v : Word) : Circ :=
  { q with base := v.setWidth 24, sizeLog2 := fld v 28 24, en := v.getLsbD 29 }

/-- CIRC_REGISTER_WRITE (R117, R120). -/
def circWriteEffect (c r : Nat) (which : CircReg) (v : Word) (who : Writer) (s : State) : State :=
  if !s.circWritable c who then s.cfgRefused c
  else
    match which with
    | .cfg =>
      let q := ((s.cluster c).region r).withCfg v
      if q.en && !q.legal then s.cfgRefused c else s.modCirc c r (fun x => x.withCfg v)
    | .head => s.modCirc c r (fun x => { x with head := v.setWidth 24 })
    | .tail => s.modCirc c r (fun x => { x with tail := v.setWidth 24 })

def execCircRegisterWrite (c r : Nat) (which : CircReg) (v : Word) (who : Writer) (s : State) : Answer :=
  if r < 8 then onCluster c (s.guardedBy who (circWriteEffect c r which v who (s.settle c)))
  else .fault (.noSuchElement "circular region" r)

/-- A bound of a resident range: a multiple of 4 within the banks (R121) (DEDUCED, log entry 164). -/
def resBound (v : Nat) : Bool := v % 4 == 0 && decide (v ≤ 0xA00000)

/-- RES_REGISTER_WRITE: by binding load; a management write is refused, and so is a bound out of its range (R121) (DEDUCED, log entry
164). -/
def resWriteEffect (c n : Nat) (which : ResReg) (v : Word) (who : Writer) (s : State) : State :=
  if who != .binding || !resBound (fld v 23 0) then s.cfgRefused c
  else s.modCluster c (fun x => { x with resid := mapMod resD x.resid n (fun q =>
    match which with
    | .base => { q with base := fld v 23 0, en := v.getLsbD 31 }
    | .limit => { q with limit := fld v 23 0 }) })

def execResRegisterWrite (c n : Nat) (which : ResReg) (v : Word) (who : Writer) (s : State) : Answer :=
  if n < 4 then onCluster c (s.guardedBy who (resWriteEffect c n which v who s))
  else .fault (.noSuchElement "resident range" n)

/-- In MANUFACTURE or DEBUG (Table 13.4). -/
def State.testState (s : State) : Bool := s.trust.lifecycle == 0 || s.trust.lifecycle == 3

/-- FLIP_REGISTER_WRITE (R133, R134). -/
def flipWriteEffect (c : Nat) (which : FlipReg) (v : Word) (who : Writer) (s : State) : State :=
  if who != .binding && !s.testState then s.cfgRefused c
  else s.modCluster c (fun x => { x with flip :=
    match which with
    | .data => { x.flip with data := v }
    | .ctrl => { x.flip with check := v.setWidth 7, arm := v.getLsbD 7, word := fld v 9 8, bank := fld v 19 10,
                             bankEn := v.getLsbD 20, armedAt := s.clock.fab } })

def execFlipRegisterWrite (c : Nat) (which : FlipReg) (v : Word) (who : Writer) (s : State) : Answer :=
  onCluster c (s.guardedBy who (flipWriteEffect c which v who s))

/-- MEM_STATUS.ZERO_BUSY (R123). -/
def State.zeroBusy (s : State) (c : Nat) : Bool := s.boot.memZeroing || (s.cluster c).zeroBusy

/-- ZEROING_COMPLETE: the last zeroing write has taken effect (R123, Table 4.6). The zeroing of cold power-on runs in all
clusters in parallel and ends in all in one cycle; the links begin to train after it (R449, Table 16.3) (DEDUCED, log entry 118). -/
def zeroingCompleteEffect (c : Nat) (s : State) : State :=
  if s.boot.memZeroing then
    if s.boot.step ≥ 7 then
      let s1 := s.atFab s.boot.memZeroUntil
      ({ s1 with boot := { s1.boot with memZeroing := false, step := max s1.boot.step 8 } }).lightPorts
    else s
  else if (s.cluster c).zeroBusy then
    let s1 := s.atFab (s.cluster c).zeroUntil
    s1.modCluster c (fun x => { x with zeroBusy := false })
  else s

def execZeroingComplete (c : Nat) (s : State) : Answer := onCluster c (zeroingCompleteEffect c s)

/-! Unscheduled accesses. -/

/-- Lines the unscheduled ports move in one access (Table 4.3). -/
def accessWords : Nat := 64

/-- Order of the requesters (R113): contexts by number, then landings. -/
def StageSrc.rank (s : StageSrc) : Nat := match s with | .ctx k => k | .landing => 4

/-- Have accesses taken one of these banks in fabric cycle `fab` (R113)? -/
def Cluster.banksBusy (x : Cluster) (fab : Nat) (ws : List Nat) : Bool :=
  x.busyAt == fab && ws.any (fun w => x.busyBanks.contains (bankOf w))

/-- Words a staged access writes next. -/
def Staged.nextWords (g : Staged) (x : Cluster) : List Nat :=
  (List.range (min accessWords g.words.length)).map (fun i =>
    match g.dest with
    | .addr a => a + i
    | .circ r => (x.region r).wordAt ((x.region r).head.toNat + i))

/-- Is a staged access one of the wanted kind that may move in fabric cycle `fab`: to a circular region (with room, R118) or to plain
words, its banks free of other accesses (R113); a context of a held partition moves nothing (R227)? -/
def Staged.ready (g : Staged) (x : Cluster) (fab : Nat) (held circ : Bool) : Bool :=
  (match g.dest with
    | .addr _ => !circ
    | .circ r => circ && (x.region r).en && (x.region r).hasRoom fab (linesOf (min accessWords g.words.length)))
    && !(held && g.src != .landing) && !x.banksBusy fab (g.nextWords x)

/-- Landings of different ports and host queues do not wait for one another (R296, R341). -/
def Staged.line (g : Staged) : Option (Bool × Nat) := g.land.map (fun l => (l.host, l.n))

/-- The first ready access in the order of R113, with its place in the list. An access waits behind earlier ones of its
own requester (DESIGN CHOICE, log entry 80). -/
def pickStaged (x : Cluster) (fab : Nat) (held circ : Bool) : Option (Staged × Nat) :=
  let heads := x.staged.zipIdx.filter (fun gi =>
    !((x.staged.take gi.2).any (fun h => h.src == gi.1.src && h.line == gi.1.line)) && gi.1.ready x fab held circ)
  (List.range 5).foldl (fun acc r => acc.or (heads.find? (fun gi => gi.1.src.rank == r))) none

/-- A request of a context has been written whole at its destination (R223, R224). -/
def Ctx.reqDone (x : Ctx) (idx : Nat) : Ctx :=
  match x.reqs.find? (fun r => r.idx == idx) with
  | none => x
  | some r =>
    { x with reqs := x.reqs.filter (fun q => q.idx != idx)
             descs := x.descs.map (fun d => if d.ord = r.ord then { d with done := d.done + 1 } else d) }

/-- Do accesses of a cluster wait: its partition is held (R101), or asleep (R418)? -/
def State.heldCluster (s : State) (c : Nat) : Bool :=
  match s.ownerOf c with
  | some p => (s.part p).holdActive || (s.wakeOf p).w != 0
  | none => false

/-- Stage an unscheduled write; a region that is not enabled faults its cluster (R171) (DESIGN CHOICE, log entry 78). -/
def State.stageWrite (s : State) (c : Nat) (g : Staged) : State :=
  match g.dest with
  | .circ r =>
    if (s.cluster c).region r |>.en then s.modCluster c (fun x => { x with staged := x.staged ++ [g] })
    else s.clusterFault c 0x14 (s.curDesc c)
  | .addr _ => s.modCluster c (fun x => { x with staged := x.staged ++ [g] })

end Sys2Proof.Machine
end

