-- ==== Sys2Proof/Machine/Mesh.lean ====
section
/-! DEFINITION. The mesh (R152 to R181): link classes and slot owners, scheduled departures, forwarding and landings,
elastic queues with their credits, link codes and lanes, lost links and the remap window. Routers are named by logical
cluster; tables 0 to 3 are OUT_N, OUT_E, OUT_S, OUT_W and table 4 is LAND. -/

namespace Sys2Proof.Machine

open Sys2Proof

def flitsD (_ : Nat) : List Flit := []
def laneD (_ : Nat) : LaneEntry := ⟨0, false⟩

def State.modFabric (s : State) (f : Fabric → Fabric) : State := { s with fabric := f s.fabric }

/-! Topology. -/

/-- The router on side d of router c, or none at an edge of the plate (R152). -/
def neighbour (c d : Nat) : Option Nat :=
  let r := c / 64
  let k := c % 64
  match d with
  | 0 => if r = 0 then none else some (c - 64)
  | 1 => if k = 63 then none else some (c + 1)
  | 2 => if r = 63 then none else some (c + 64)
  | _ => if k = 0 then none else some (c - 1)

/-- The side a link enters on at its far end. -/
def opposite (d : Nat) : Nat := (d + 2) % 4

/-- Number of the edge link on side d of an edge router (R191). -/
def edgeIndex (c d : Nat) : Nat :=
  match d with
  | 0 => c % 64
  | 1 => c / 64
  | 2 => 63 - c % 64
  | _ => 63 - c / 64

/-- Cluster edge link j of an edge attaches to (R191). -/
def edgeCluster (edge j : Nat) : Nat :=
  match edge with
  | 0 => j
  | 1 => 64 * j + 63
  | 2 => 64 * 63 + (63 - j)
  | _ => 64 * (63 - j)

/-- Attach cluster of an optical port (R154, R285). -/
def attachCluster (n : Nat) : Nat :=
  64 * (8 * (n / 32) + 1 + 4 * (n % 4 / 2)) + 8 * (n / 4 % 8) + 1 + 4 * (n % 2)

/-- The port whose link carries the frames of port n: its spare once it is lost and substituted (R316). -/
def State.outPort (s : State) (n : Nat) : Nat :=
  match (s.port n).sub with
  | some m => if (s.port n).state = 7 then m else n
  | none => n

/-- The port whose flows the frames received on port n belong to: the lost port that a spare stands in for (R316). -/
def State.inPort (s : State) (n : Nat) : Nat :=
  match (s.port n).sub with
  | some m => if (s.port m).state = 7 then m else n
  | none => n

/-- Class of a link direction (R164, R193). -/
inductive LinkClass where
  | home (p : Nat)
  | shared
  | unused
  deriving DecidableEq, Repr

/-- Class of the link that output d of router c drives. Links join different partitions only between bands, on N and
S. -/
def State.linkClass (s : State) (c d : Nat) : LinkClass :=
  match s.ownerOf c, neighbour c d with
  | none, _ => .unused
  | some p, none => .home p
  | some p, some n =>
    match s.ownerOf n with
    | none => .unused
    | some q =>
      if p = q then .home p
      else
        let k := min (c / 512) (n / 512)
        let i := 64 * k + c % 64
        if (s.pmap.boundary.getD (i / 8) 0).toNat.testBit (i % 8) then .shared else .unused

/-- Class of the link that enters router c on side d: that of the output at its far end. -/
def State.inClass (s : State) (c d : Nat) : LinkClass :=
  match neighbour c d with
  | some n => s.linkClass n (opposite d)
  | none => match s.ownerOf c with
    | some p => .home p
    | none => .unused

/-- Slot number with its 8 bits reversed. -/
def bitRev8 (v : Nat) : Nat := (List.range 8).foldl (fun acc i => acc + if v.testBit i then 2 ^ (7 - i) else 0) 0

/-- Partitions in the order of R165: decreasing share, then increasing number. -/
def shareOrder (shares : List Nat) : List Nat :=
  let ps := (List.range 8).filter (fun p => shares.getD p 0 ≠ 0)
  ps.foldl (fun acc p =>
    let before := acc.filter (fun q => shares.getD p 0 ≤ shares.getD q 0)
    before ++ [p] ++ acc.drop before.length) []

def slotOwnerIn (shares order : List Nat) (pos base : Nat) : Option Nat :=
  match order with
  | [] => none
  | p :: r => if pos < base + shares.getD p 0 then some p else slotOwnerIn shares r pos (base + shares.getD p 0)

/-- Owner of position `slot` of a frame of 256 divided by shares (R165). -/
def slotOwner (shares : List Nat) (slot : Nat) : Option Nat := slotOwnerIn shares (shareOrder shares) (bitRev8 slot) 0

/-- Owner of a slot of a link of some class. -/
def State.slotOwnerOf (s : State) (k : LinkClass) (slot : Nat) : Option Nat :=
  match k with
  | .home p => some p
  | .shared => slotOwner s.pmap.meshShare slot
  | .unused => none

/-- Partitions owning some slot of a link (R168). -/
def State.linkOwners (s : State) (k : LinkClass) : List Nat :=
  match k with
  | .home p => [p]
  | .shared => (List.range 8).filter (fun p => s.pmap.meshShare.getD p 0 ≠ 0)
  | .unused => []

/-! Table entries. -/

def tableKey (c t slot : Nat) : Nat := (c * 5 + t) * 256 + slot

/-- Entry of a slot table, without its parity bit. -/
def State.entry (s : State) (c t slot : Nat) : Nat := (mapGet wordD s.fabric.tables (tableKey c t slot)).toNat

/-- The stored entry with its parity bit, as an upset has left it. -/
def State.upsetEntry (s : State) (c t slot : Nat) (upset : Word) : Nat := withParity (s.entry c t slot) ^^^ upset.toNat

def outSrc (e : Nat) : Nat := bitsN e 2 0
def outCirc (e : Nat) : Nat := bitsN e 5 3
def outClass (e : Nat) : Nat := bitsN e 6 6
def landEn (e d : Nat) : Bool := e.testBit (5 * d)
def landCirc (e d : Nat) : Nat := bitsN e (5 * d + 3) (5 * d + 1)
def landClass (e d : Nat) : Nat := bitsN e (5 * d + 4) (5 * d + 4)

/-- A fabric cause reaches partition p: reported by the first of the named clusters that is p's, else by none, in which
case the record names the link or router (R187). -/
def State.fabricFault (s : State) (p cause : Nat) (at_ : List Nat) (element : Nat) : State :=
  match at_.find? (fun c => s.owns p c) with
  | some c => s.clusterFault c cause (s.curDesc c)
  | none => (s.log (element / 2 ^ 56) 1 p cause 4 element 0).raiseStop p stopFault

/-- ELEMENT of a link direction entering router c on side d, and of one of its lanes (Table 12.7). -/
def State.linkElement (s : State) (c d : Nat) : Nat := elemCode 0x08 (s.slotBits c + 2 ^ 13 * d)
def State.linkLaneElement (s : State) (c d lane : Nat) : Nat := elemCode 0x07 (s.slotBits c + 2 ^ 13 * d + 2 ^ 15 * lane)

/-- A slot-table entry of router c fails its parity when it is reached: TABLE_PARITY for the partition that owns the slot;
an entry nobody owns is only logged (R187). `far` is the cluster at the other end of the entry's output. -/
def State.tableParity (s : State) (c : Nat) (owner : Option Nat) (far : Option Nat) : State :=
  let el := elemCode 0x10 (s.slotBits c)
  match owner with
  | some p => s.fabricFault p 0x10 ([c] ++ far.toList) el
  | none => s.log 0x10 1 255 0x10 0 el 0

/-- No flit moves, yet the entry a table reaches in the present cycle is checked (R187): table t of router c, whose slots the owners
of class k have. -/
def State.checkIdle (s : State) (k : LinkClass) (c t : Nat) (far : Option Nat) (upset : Word) : State :=
  let slot := match k with
    | .home p => (s.part p).partCycle % 256
    | _ => s.clock.fab % 256
  if evenParity (s.upsetEntry c t slot upset) then s else s.tableParity c (s.slotOwnerOf k slot) far

/-- Does partition p move flits now: running and not held (R97, R163)? -/
def State.moving (s : State) (p : Nat) : Bool := (s.part p).running && !(s.part p).holdActive

def Fabric.busyTo (f : Fabric) (c t : Nat) : Nat := mapGet (natD 0) f.lastSlot (c * 5 + t)
def State.markSlot (s : State) (c t fab : Nat) : State :=
  s.modFabric (fun f => { f with lastSlot := mapSet (natD 0) f.lastSlot (c * 5 + t) (fab + 1) })

/-- The far end of output d of a router, as Fabric.lost names it: a physical slot plus 1, or an edge link. -/
def State.farMark (s : State) (c d : Nat) : Nat :=
  match neighbour c d with
  | some n => s.physSlot n + 1
  | none => 4225

/-- Is output d of a router lost: the wires to the slot it now selects (R156, R168, R181)? -/
def State.isLost (s : State) (c d : Nat) : Bool := mapGet (natD 0) s.fabric.lost (s.physSlot c * 4 + d) == s.farMark c d

/-- Where Fabric.lost keeps the edge link into router c on side d. -/
def State.edgeLostKey (s : State) (c d : Nat) : Nat := (4224 + s.physSlot c) * 4 + d

/-! Scheduled traffic. -/

/-- Words of a flit (R153). -/
def flitWords : Nat := 64

/-- A line of a flit that a bank conflict drops: its words are open on a read (R112) (DESIGN CHOICE, log entry 156). -/
def State.dropLine (s : State) (line : Option Nat) (vs : List PWord) : List PWord :=
  match line with
  | none => vs
  | some l => vs.zipIdx.map (fun vi => if vi.2 / 4 = l then ⟨Config.freeWord (s.free + vi.2), false⟩ else vi.1)

/-- The report of a bank conflict on a line of a flit (R112). -/
def State.lineConflict (s : State) (c r : Nat) (line : Option Nat) : State :=
  match line with
  | none => s
  | some _ =>
    let s1 := s.bankConflict c (s.curDesc c) ((s.cluster c).region r).delay
    { s1 with free := s1.free + flitWords }

/-- A departure of output d of cluster c whose slot is PART_CYCLE `t` (R171): the read is issued L + 1 cycles before the
slot, and tested with what else reads the region in that cycle (R118). A region not enabled faults; an occupancy below 64 words
sends an idle flit. The flit leaves on every output whose entry in the slot selects the same departure. -/
def State.depart (s : State) (p c d t e : Nat) (conflict : Option Nat) : State :=
  let r := outCirc e
  let q := (s.cluster c).region r
  if !q.en then s.clusterFault c 0x14 (s.curDesc c)
  else if !q.admitsRead s.clock.fab 16 then s
  else
    let ahead := t - (s.part p).partCycle
    let from_ := (allWords 16).map (fun i => q.wordAt (q.tail.toNat + i))
    let rd := ((s.takeBanks c from_).testRead c r 16).circRead c r 16 (allWords 16)
    let ws := rd.2.dropLine conflict rd.1
    let outs := (List.range 4).filter (fun o =>
      o == d || (outSrc (s.entry c o (t % 256)) == 5 && outClass (s.entry c o (t % 256)) == 0
        && outCirc (s.entry c o (t % 256)) == r && s.linkClass c o == .home p))
    let fs := outs.filterMap (fun o =>
      match neighbour c o with
      | some n => if s.isLost c o then none else some ({ part := p, c := n, d := opposite o, pcyc := t + 2, fcyc := s.clock.fab + ahead + 2, slot := t, parked := false, mask := 0xFFFF, words := ws, cargo := .plain } : Flit)
      | none => none)
    let s1 := outs.foldl (fun u o => u.markSlot c o (s.clock.fab + ahead)) (rd.2.lineConflict c r conflict)
    s1.modFabric (fun f => { f with flits := f.flits ++ fs })

/-- SCHEDULED_DEPARTURE: the next slot of OUT_d whose entry is a scheduled local departure and whose read can still be
issued (DESIGN CHOICE, log entry 78). -/
def departureEffect (c d : Nat) (upset : Word) (conflict : Option Nat) (s : State) : State :=
  match s.linkClass c d with
  | .home p =>
    if !s.moving p then s
    else
      let now := (s.part p).partCycle
      let lead (e : Nat) : Nat := readLat ((s.cluster c).region (outCirc e)).base.toNat + 1
      let pick := (List.range 512).find? (fun i =>
        let e := s.entry c d ((now + i) % 256)
        outSrc e == 5 && outClass e == 0 && decide (lead e ≤ i) && decide (s.fabric.busyTo c d ≤ s.clock.fab + i))
      match pick with
      | none => s.checkIdle (.home p) c d (neighbour c d) upset
      | some i =>
        let t := now + i
        let e := s.upsetEntry c d (t % 256) upset
        let s1 := ((s.atPart p (t - lead (s.entry c d (t % 256)))).settle c).markSlot c d (s.clock.fab + i)
        if !evenParity e then s1.tableParity c (some p) (neighbour c d)
        else if outSrc e = 5 ∧ outClass e = 0 then s1.depart p c d t e conflict
        else s1
  | k => s.checkIdle k c d (neighbour c d) upset

def execScheduledDeparture (c d : Nat) (upset : Word) (s : State) (conflict : Option Nat := none) : Answer :=
  if d < 4 then onCluster c (departureEffect c d upset conflict s) else .fault (.noSuchElement "mesh side" d)

/-- The scheduled flit that next meets input d of router c. -/
def Fabric.nextFlit (f : Fabric) (c d : Nat) : Option Flit :=
  (f.flits.filter (fun x => x.c == c && x.d == d && !x.parked)).foldl (fun acc x =>
    match acc with
    | none => some x
    | some y => if x.fcyc < y.fcyc then some x else some y) none

/-- What the entries of one input register cycle do with a flit: outputs that forward it and the landing. The upset
strikes the first selecting entry, in the order N, E, S, W, LAND. -/
def State.selecting (s : State) (x : Flit) : List Nat :=
  ((List.range 4).filter (fun o =>
    let e := s.entry x.c o ((x.pcyc + 2) % 256)
    outClass e == 0 && outSrc e == x.d + 1)) ++
  (let e := s.entry x.c 4 (x.pcyc % 256)
   if landEn e x.d && landClass e x.d == 0 then [4] else [])

/-- Forward a flit on output o, or start its landing (table 4) (R170, R176, R177). -/
def State.actOn (s : State) (x : Flit) (o : Nat) : State :=
  if o = 4 then
    let r := landCirc (s.entry x.c 4 (x.pcyc % 256)) x.d
    let q := (s.cluster x.c).region r
    if !q.en then s.clusterFault x.c 0x14 (s.curDesc x.c)
    else
      let l : Landing := { part := x.part, c := x.c, d := x.d, circ := r, fcyc := x.fcyc + 1, words := x.words }
      s.modFabric (fun f => { f with landings := f.landings ++ [l] })
  else
    match neighbour x.c o with
    | none => s
    | some n =>
      if s.isLost x.c o then s
      else s.modFabric (fun f => { f with flits := f.flits ++
        [{ x with c := n, d := opposite o, pcyc := x.pcyc + 4, fcyc := x.fcyc + 4 }] })

/-- SCHEDULED_FLIT_ARRIVAL: a flit meets its input register; the entries of its compiled cycle forward it, land it, or
leave it unrouted (R98, R170, R173, R187) (DESIGN CHOICE, log entry 78). -/
def flitArrivalEffect (c d : Nat) (upset : Word) (s : State) : State :=
  match s.fabric.nextFlit c d with
  | none => s
  | some x =>
    let s1 := (s.atFab x.fcyc).modFabric (fun f => { f with flits := removeFirstFlit x f.flits })
    let sel := s1.selecting x
    match sel with
    | [] =>
      if (s1.part x.part).running then s1.fabricFault x.part 0x0D [c] (s1.linkElement c d) else s1
    | t :: rest =>
      let slot := if t = 4 then x.pcyc % 256 else (x.pcyc + 2) % 256
      if evenParity (s1.upsetEntry c t slot upset) then sel.foldl (fun u o => u.actOn x o) s1
      else
        let s2 := s1.tableParity c (some x.part) (if t = 4 then none else neighbour c t)
        if rest.isEmpty && (s2.part x.part).running then s2.fabricFault x.part 0x0D [c] (s2.linkElement c d)
        else rest.foldl (fun u o => u.actOn x o) s2
where
  /-- Drop the first flit equal to x. -/
  removeFirstFlit (x : Flit) (l : List Flit) : List Flit :=
    match l with
    | [] => []
    | y :: r => if y = x then r else y :: removeFirstFlit x r

def execScheduledFlitArrival (c d : Nat) (upset : Word) (s : State) : Answer :=
  if d < 4 then onCluster c (flitArrivalEffect c d upset s) else .fault (.noSuchElement "mesh side" d)

/-! Link codes (R180). -/

/-- Lane a syndrome names in word i of a flit: data lanes 0 to 2,047, check lanes 2,048 to 2,495 (DESIGN CHOICE, log entry 40). -/
def laneOf (i syndrome : Nat) : Nat :=
  match dataBitAt code39.maxPos 1 0 syndrome with
  | some b => 32 * i + b
  | none =>
    let k := if syndrome = 0 then 6 else bitLen syndrome - 1
    2048 + 7 * i + k

/-- Count one link event on input d of router c (R180, R187): LINK_EVENTSd and the counter of the physical slot. -/
def State.linkEvent (s : State) (c d : Nat) : State :=
  let k := s.physSlot c * 4 + d
  (s.modFabric (fun f => { f with linkEvents := mapMod (natD 0) f.linkEvents k (satInc 16) })).count
    (counterKey 0x5101 (d + 1) (s.physSlot c)) 1

/-- Spare lanes that input d of a physical slot needs: those in use, and those its retired lanes wait for (R181, R356). -/
def State.sparesUsed (s : State) (slot d : Nat) : Nat :=
  ((List.range 16).filter (fun i => (mapGet laneD s.fabric.lanes ((slot * 4 + d) * 16 + i)).en)).length
    + s.faults.recs.countP (fun r =>
      r.state == 0 && r.element / 2 ^ 56 == 0x07 && r.element % 2 ^ 15 == slot % 66 + 128 * (slot / 66) + 2 ^ 13 * d)

/-- A link direction is lost: the link that enters router c on side d, or with `out` the edge link that leaves it there (R168,
R187). Every partition owning a slot on it faults; a slot retirement is proposed in the record (Table 12.2). -/
def State.loseLink (s : State) (c d : Nat) (out : Bool) : State :=
  let far := neighbour c d
  let owners := s.linkOwners (if out then s.linkClass c d else s.inClass c d)
  let at_ : Nat × Nat := if out then (s.physSlot c * 4 + d, 4225) else match far with
    | some n => (s.physSlot n * 4 + opposite d, s.physSlot c + 1)
    | none => (s.edgeLostKey c d, 1)
  let s1 := s.modFabric (fun f => { f with lost := mapSet (natD 0) f.lost at_.1 at_.2 })
  let s2 := s1.log 0x08 1 (partNo (s.ownerOf c)) 0x0F 9 (s.linkElement c d) 0
  owners.foldl (fun u p => u.fabricFault p 0x0F ([c] ++ far.toList) (s.linkElement c d)) s2

def linkLostEffect (c d : Nat) (s : State) : State :=
  let dead := match neighbour c d with
    | some n => s.isLost n (opposite d)
    | none => mapGet (natD 0) s.fabric.lost (s.edgeLostKey c d) != 0
  if dead then s else s.loseLink c d false

/-- LINK_LOST: a link direction is lost, detected at its receiving end (R168). -/
def execLinkLost (c d : Nat) (s : State) : Answer :=
  if d < 4 then onCluster c (linkLostEffect c d s) else .fault (.noSuchElement "mesh side" d)

/-- Decode word i of a flit at the end of a link, changed by an error pattern on its 39 bits (R180): one that lands from input d of
router c, or with `out` one that leaves the mesh there (R205) (DESIGN CHOICE, log entry 78). -/
def State.landWord (s : State) (c d : Nat) (out : Bool) (i : Nat) (w : PWord) (err : Nat) : PWord × State :=
  let data := (if w.poison then 0 else w.w.toNat) ^^^ (err % 2 ^ 32)
  let check := (if w.poison then poisonCheck39 else code39.check w.w.toNat) ^^^ (err / 2 ^ 32 % 128)
  let r := code39.decode poison39 data check
  match r.outcome with
  | .clean => (⟨r.word.w, w.poison⟩, s)
  | .poison => (r.word, s)
  | .corrected =>
    let el := s.linkLaneElement c d (laneOf i r.syndrome)
    let e := (s.linkEvent c d).elementEvent el .marking false (s.ownerOf c) 0 2 0
    let s1 := if e.2 && decide (16 < e.1.sparesUsed (s.physSlot c) d) then e.1.loseLink c d out else e.1
    (r.word, s1)
  | .uncorrectable =>
    let e := (s.linkEvent c d).elementEvent (s.linkElement c d) .plain true (s.ownerOf c) 0 3 0
    (r.word, if e.2 then e.1.loseLink c d out else e.1)

def wideD (_ : Nat) : BitVec 39 := 0

def State.landWords (s : State) (c d : Nat) (out : Bool) (i : Nat) (ws : List PWord) (err : SMap (BitVec 39)) : List PWord × State :=
  match ws with
  | [] => ([], s)
  | w :: r =>
    let a := s.landWord c d out i w (mapGet wideD err i).toNat
    let b := a.2.landWords c d out (i + 1) r err
    (a.1 :: b.1, b.2)

/-- Write the lines of a landed flit at the head of its region; a line lost to a bank conflict is not written (R112). -/
def State.landLinesAt (s : State) (c r : Nat) (vs : List PWord) (conflict : Option Nat) : State :=
  let q := (s.cluster c).region r
  let all := (q.placed q.head.toNat vs).zipIdx
  let kept := (all.filter (fun x => some (x.2 / 4) != conflict)).map Prod.fst
  ((((s.takeBanks c (all.map (fun x => x.1.1))).testWrite c r 16).writeCycle c kept).headPast c r vs.length).lineConflict c r conflict

/-- SCHEDULED_LANDING: the landing write of a valid flit is issued (R172, R176, R177, R180). It is tested with every scheduled line
written into its region in the cycle (R118). After a stop, a landing that would fail its test is discarded without a cause
(R94). Nothing lands while the cluster zeroes its memory (R123). -/
def landingEffect (c d : Nat) (err : SMap (BitVec 39)) (conflict : Option Nat) (s : State) : State :=
  match s.fabric.landings.find? (fun l => l.c == c && l.d == d) with
  | none => s
  | some l =>
    let s0 := (s.atFab l.fcyc).settle c
    let due := max 16 (s0.dueLines c l.circ (s0.partCycleOf c))
    let s1 := s0.modFabric (fun f => { f with landings := dropFirst c d f.landings })
    let r := s1.landWords c d false 0 l.words err
    let q := (r.2.cluster c).region l.circ
    if r.2.zeroBusy c then r.2
    else if !q.en then (if (r.2.part l.part).running then r.2.clusterFault c 0x14 (r.2.curDesc c) else r.2)
    else if q.admitsWrite r.2.clock.fab due then r.2.landLinesAt c l.circ r.1 conflict
    else if (r.2.part l.part).running then (r.2.testWrite c l.circ 16).circFault c l.circ 0x09 (r.2.curDesc c)
    else r.2
where
  /-- Drop the first landing of input d of cluster c. -/
  dropFirst (c d : Nat) (l : List Landing) : List Landing :=
    match l with
    | [] => []
    | y :: r => if y.c == c && y.d == d then r else y :: dropFirst c d r

def execScheduledLanding (c d : Nat) (err : SMap (BitVec 39)) (s : State) (conflict : Option Nat := none) : Answer :=
  if d < 4 then onCluster c (landingEffect c d err conflict s) else .fault (.noSuchElement "mesh side" d)

/-! Elastic traffic (R174, R178). -/

def queueKey (c i p : Nat) : Nat := (c * 4 + i) * 8 + p

def State.elasticQ (s : State) (c i p : Nat) : List Flit := mapGet flitsD s.fabric.queues (queueKey c i p)
def State.departQ (s : State) (c k : Nat) : List Flit := mapGet flitsD s.fabric.departs (4 * c + k)
def State.creditOf (s : State) (k : Nat) : Nat := mapGet (natD 2) s.fabric.credits k

/-- REMAP_BUSY: a remap window is open (R161). -/
def State.remapBusy (s : State) : Bool := decide (s.clock.fab < s.fabric.remapUntil)

/-- The slot index of a link in i fabric cycles' time: the owner's PS on a home link, FRAME_SLOT on a shared one (R164). -/
def State.indexIn (s : State) (k : LinkClass) (i : Nat) : Nat :=
  match k with
  | .home p => ((s.part p).partCycle + i) % 256
  | _ => (s.clock.fab + i) % 256

/-- The flit an elastic entry would take at fabric cycle `fab` for partition p, if one waits: from an input's queue or from
a local context's departures. An elastic hop takes at least five cycles (R178). -/
def State.elasticHead (s : State) (c p e fab : Nat) : Option Flit :=
  let src := outSrc e
  if src = 5 then (s.departQ c (bitsN e 4 3)).head?.filter (fun x => x.part == p)
  else if 1 ≤ src ∧ src ≤ 4 then (s.elasticQ c (src - 1) p).head?.filter (fun x => decide (x.fcyc + 2 ≤ fab))
  else none

/-- Take the head of a queue, whose place is reported back 4 cycles later (R174) (DEDUCED, log entry 79). -/
def State.popQueue (s : State) (c i p fab : Nat) : State :=
  let k := queueKey c i p
  s.modFabric (fun f => { f with
    queues := mapMod flitsD f.queues k (fun l => l.drop 1)
    creditsDue := f.creditsDue ++ [(k, fab + 4)] })

/-- An edge switch passes on the flits it holds for an edge link while the queue they enter has room and the link is not lost (R174,
R193) (DEDUCED, log entry 79). -/
def State.feedEdge (s : State) (k : Nat) : State :=
  (List.range 2).foldl (fun t _ =>
    match mapGet flitsD t.fabric.edges k with
    | [] => t
    | x :: r =>
      if decide (0 < t.creditOf k) && mapGet (natD 0) t.fabric.lost (t.edgeLostKey x.c x.d) == 0 then
        t.modFabric (fun f => { f with
          edges := mapSet flitsD f.edges k r
          credits := mapMod (natD 2) f.credits k (fun v => v - 1)
          queues := mapMod flitsD f.queues k (fun l => l ++ [{ x with fcyc := t.clock.fab + 3 }]) })
      else t) s

/-- ELASTIC_CREDIT_RETURN: the credit of a freed place of queue (c, d, p) reaches its sender (R174). -/
def creditReturnEffect (c d p : Nat) (s : State) : State :=
  let k := queueKey c d p
  match s.fabric.creditsDue.find? (fun x => x.1 == k) with
  | none => s
  | some x =>
    ((s.atFab x.2).modFabric (fun f => { f with
      creditsDue := dropDue k f.creditsDue
      credits := mapMod (natD 2) f.credits k (fun v => v + 1) })).feedEdge k
where
  /-- Drop the first credit of queue k. -/
  dropDue (k : Nat) (l : List (Nat × Nat)) : List (Nat × Nat) :=
    match l with
    | [] => []
    | y :: r => if y.1 = k then r else y :: dropDue k r

def execElasticCreditReturn (c d p : Nat) (s : State) : Answer :=
  if d < 4 then (if p < 8 then onCluster c (creditReturnEffect c d p s) else .fault (.noSuchElement "partition" p))
  else .fault (.noSuchElement "mesh side" d)

/-- The valid lines of a flit (R174). -/
def validWords (mask : BitVec 16) (ws : List PWord) : List PWord :=
  (ws.zipIdx.filter (fun wi => mask.getLsbD (wi.2 / 4))).map Prod.fst

/-- Put a frame into a port's send queue (R297). -/
def State.queueFrame (s : State) (n : Nat) (f : Frame) : State := s.modPort n (fun x => { x with sendQ := x.sendQ ++ [f] })

/-! Lanes and the remap window. -/

/-- Is an element's retirement record committed with its spare not yet in effect (R356)? -/
def State.pendingRec (s : State) (element : Nat) : Option RetRec :=
  s.faults.recs.find? (fun r => r.element == element && r.state == 0 && r.committed)

/-- Rewrite the guard-map record (Table 16.2). -/
def State.saveGuards (s : State) : State :=
  let cores := s.clusters.foldl (fun m kv => kv.2.guard.foldl (fun n rg => mapSet (natD 8) n (4 * kv.1 + rg.1) rg.2) m) []
  s.nvPut 3 0 (.guardMap s.fabric.guards cores s.fabric.lanes)

/-- A spare takes the element's place (R353, R528): its stamps and mark go, its record is rewritten with the new state,
the change is logged, and the guard-map record follows. -/
def State.closeRecord (s : State) (element state action : Nat) : State :=
  let open_ (r : RetRec) : Bool := r.element == element && r.state != 1
  let part := partNo ((s.faults.recs.find? open_).map RetRec.part)
  let s1 := s.log (element / 2 ^ 56) 1 part 0 action element 0
  let s2 := { s1 with
    faults := { s1.faults with
      recs := s1.faults.recs.map (fun r =>
        if open_ r then { r with state := state, stateNs := s1.localNs, committed := false } else r)
      elems := if state = 1 then mapSet elemD s1.faults.elems element Elem.reset else s1.faults.elems } }
  if state = 1 then s2.saveGuards else s2

/-- ELEMENT of lane `lane` of input d of a physical slot. -/
def laneElementOf (slot d lane : Nat) : Nat :=
  elemCode 0x07 (slot % 66 + 128 * (slot / 66) + 2 ^ 13 * d + 2 ^ 15 * lane)

/-- LANE_MAP_UPDATE: at the next FRAME_SLOT 0 spare lane i of input d of a physical slot takes the retired lane's signal
(R181, Table 12.2), once its record is committed (R356). -/
def laneMapEffect (slot d i lane : Nat) (s : State) : State :=
  let key := (slot * 4 + d) * 16 + i
  let el := laneElementOf slot d lane
  if (s.pendingRec el).isNone || (mapGet laneD s.fabric.lanes key).en then s
  else
    let s1 := s.advance ((256 - s.clock.fab % 256) % 256)
    (s1.modFabric (fun f => { f with lanes := mapSet laneD f.lanes key ⟨lane, true⟩ })).closeRecord el 1 6

def execLaneMapUpdate (slot d i lane : Nat) (s : State) : Answer :=
  if slot < 4224 then
    if d < 4 then
      if i < 16 then (if lane < 2560 then .next (laneMapEffect slot d i lane s) else .fault (.noSuchElement "lane" lane))
      else .fault (.noSuchElement "spare lane" i)
    else .fault (.noSuchElement "mesh side" d)
  else .fault (.noSuchElement "cluster slot" slot)

/-- Does partition p's stop allow a change of its rows: no owner, or not running (R158)? -/
def State.rowStopped (s : State) (r : Nat) : Bool :=
  match s.ownerOf (64 * r) with
  | some p => !(s.part p).running
  | none => true

/-- The last fabric cycle in which an elastic flit in flight ends its hop (R161). -/
def State.lastHop (s : State) : Nat :=
  s.fabric.queues.foldl (fun a kv => kv.2.foldl (fun b x => max b x.fcyc) a) s.clock.fab

/-- Length of a remap window, at most, in fabric cycles (R161). -/
def remapWindow : Nat := 1024

/-- A change of ROW_GUARD is one the module may make: a legal pair, of a row whose partition is stopped (R158). -/
def State.remapLegal (s : State) (row a b : Nat) : Bool := decide (a < b) && decide (b ≤ 65) && s.rowStopped row

/-- The guard slots of core rows go with the physical slot when a row's guard map changes (R69). -/
def State.moveCores (s : State) (row : Nat) (old g : RowGuard) : State :=
  (List.range 64).foldl (fun t k =>
    if physCol old k = physCol g k then t
    else
      let cores := match (List.range 64).find? (fun j => physCol old j == physCol g k) with
        | some j => (s.cluster (64 * row + j)).guard
        | none => []
      t.modCluster (64 * row + k) (fun x => { x with guard := cores })) s

/-- REMAP_SWITCH: a remap window opens; the elastic flits in flight complete their hops, and the bypass selections of row r switch to
new spares in one cycle (R155, R158, R161). The window lasts its 1,024 cycles (DEDUCED, log entry 79). A shifted cluster starts
from zeroed memory, and the guard slots of its core rows go with the physical slot (R69, R125, R159). -/
def remapEffect (row a b : Nat) (ar br : Bool) (s : State) : State :=
  if !s.remapLegal row a b then s
  else
    let old := s.rowGuard row
    let g : RowGuard := ⟨a, b, ar, br⟩
    let s1 := s.atFab (min s.lastHop (s.clock.fab + remapWindow))
    let s2 := s1.modFabric (fun f => { f with guards := mapSet guardD f.guards row g, remapUntil := s.clock.fab + remapWindow })
    (List.range 64).foldl (fun t k =>
      if physCol old k = physCol g k then t else t.zeroing (64 * row + k) (fun _ => true) true) (s2.moveCores row old g)

/-- The guard-map record follows a change that is made, and no other (R158). -/
def execRemapSwitch (row a b : Nat) (ar br : Bool) (s : State) : Answer :=
  onNumber "row" 64 row (if s.remapLegal row a b then (remapEffect row a b ar br s).saveGuards else s)

end Sys2Proof.Machine
end

