-- ==== Sys2Proof/Machine/Store.lean ====
section
/-! DEFINITION. The parameter store (R189 to R215): store addresses and pages, blocks with their code and poison, access
rules, the request contexts and the arbiter of each pseudo-channel. -/

namespace Sys2Proof.Machine

open Sys2Proof

/-! Addresses (Table 7.3). -/

def saPch (a : Nat) : Nat := bitsN a 14 9
def saPage (a : Nat) : Nat := bitsN a 35 21
def saStack (a : Nat) : Nat := bitsN a 40 36
def saView (a : Nat) : Bool := a.testBit 47

/-- Is a store address populated (R195)? -/
def saPopulated (a : Nat) : Bool :=
  decide (saStack a < 24) && decide (saPage a < 24576) && decide (bitsN a 46 41 = 0)

/-- Is a run of n bytes from `a` populated and inside one stack? -/
def saRun (a n : Nat) : Bool :=
  decide (0 < n) && saPopulated a && saPopulated (a + n - 1) && decide (saStack a = saStack (a + n - 1))
    && decide (saView a = saView (a + n - 1))

/-- Physical page of an addressable page: a spare when it is remapped (R204). -/
def State.physPage (s : State) (stack page : Nat) : Nat :=
  let g := s.page stack page
  if g.remapped then 24576 + g.spareIdx else page

/-- Physical page of the system page of partition p (R190, R240). -/
def systemPage (p : Nat) : Nat := 24696 + p

/-! Blocks. -/

/-- Where the bytes of 64-bit word w of a physical page start in State.smem. -/
def storeCell (stack phys w : Nat) : Nat := ((stack * 24704 + phys) * 2 ^ 18 + w) * 16

/-- What a read of one 64-bit word finds (R205 to R208). -/
def State.storeWord (s : State) (stack phys w : Nat) : Decoded :=
  let b := storeCell stack phys w
  code72.decode poison72 (leNat (s.smem.readList b 8)) (s.smem.read (b + 8)).toNat

/-- Store 64 data bits with their check field. -/
def State.putStoreWord (s : State) (stack phys w v check : Nat) : State :=
  { s with smem := s.smem.writeList (storeCell stack phys w) (leBytes 8 v ++ [BitVec.ofNat 8 check]) }

/-- The eight words of 64 B block b of a page, as a read finds them. -/
def State.storeBlock (s : State) (stack phys b : Nat) : List Decoded :=
  (List.range 8).map (fun i => s.storeWord stack phys (8 * b + i))

/-- Outcome of reading a block: poison delivered whole when a word is a poison read (R208), else uncorrectable, else
corrected (R206). -/
def blockOutcome (ds : List Decoded) : CodeOutcome :=
  if ds.any (fun d => d.outcome == .poison) then .poison
  else if ds.any (fun d => d.outcome == .uncorrectable) then .uncorrectable
  else if ds.any (fun d => d.outcome == .corrected) then .corrected
  else .clean

def poisonBlock : List PWord := List.replicate 16 ⟨0, true⟩

/-- The sixteen 32-bit words of a block read without error or corrected. -/
def blockWords (ds : List Decoded) : List PWord :=
  ds.flatMap (fun d => [⟨BitVec.ofNat 32 d.data, false⟩, ⟨BitVec.ofNat 32 (d.data / 2 ^ 32), false⟩])

/-- The words a read of a block delivers once any retry is over. -/
def deliverBlock (ds : List Decoded) : List PWord :=
  match blockOutcome ds with
  | .clean | .corrected => blockWords ds
  | .poison | .uncorrectable => poisonBlock

/-- Store a block of sixteen words; any poisoned word poisons the block (R208). -/
def State.putBlock (s : State) (stack phys b : Nat) (ws : List PWord) : State :=
  if ws.any PWord.poison then
    (List.range 8).foldl (fun t i => t.putStoreWord stack phys (8 * b + i) 0 poisonCheck72) s
  else
    (List.range 8).foldl (fun t i =>
      let v := (ws.getD (2 * i) ⟨0, false⟩).w.toNat + 2 ^ 32 * (ws.getD (2 * i + 1) ⟨0, false⟩).w.toNat
      t.putStoreWord stack phys (8 * b + i) v (code72.check v)) s

/-- Consecutive blocks from block b up. -/
def State.putBlocks (s : State) (stack phys b : Nat) (ws : List PWord) : State :=
  ((pieces 16 ws).zipIdx).foldl (fun t wi => t.putBlock stack phys (b + wi.2) wi.1) s

/-- Words of n blocks from block b, as their reads deliver them. -/
def State.getBlocks (s : State) (stack phys b n : Nat) : List PWord :=
  (List.range n).flatMap (fun i => deliverBlock (s.storeBlock stack phys (b + i)))

/-- Zero a physical page (R201): data 0 with correct check bits, which is what an unlisted byte reads as. -/
def State.zeroPage (s : State) (stack phys : Nat) : State :=
  { s with smem := mapClear s.smem (fun a => a / 16 / 2 ^ 18 == stack * 24704 + phys) }

/-! Events of a stack (R206 to R208). -/

/-- STACK_LAST_ERR of a block of a page. -/
def stackErr (page blk : Nat) (uncorr retried : Bool) : Word :=
  BitVec.ofNat 32 (page + 2 ^ 15 * (blk / 8 % 64) + 2 ^ 21 * (blk / 512) + 2 ^ 27 * b2n uncorr + 2 ^ 28 * b2n retried
    + 2 ^ 29 * (blk % 8))

/-- One event of a page and its pseudo-channel (R206, R207). -/
def State.pageEvent (s : State) (stack page blk : Nat) (uncorr retried : Bool) : State :=
  let err := stackErr page blk uncorr retried
  let pch := blk / 8 % 64
  let s1 := s.modStack stack (fun x => if uncorr then
      { x with ueSeen := true, ueEvents := satInc 16 x.ueEvents, lastErr := err }
    else { x with ceSeen := true, ceEvents := satInc 16 x.ceEvents, lastErr := err })
  let s2 := s1.count (counterKey 0x5110 (if uncorr then 2 else 1) stack) 1
  let act := if !uncorr then 2 else if retried then 1 else 3
  let own := s.pageOwner stack page
  let s3 := (s2.elementEvent (elemCode 0x09 (stack + 2 ^ 5 * page)) .marking uncorr own 0 act err).1
  (s3.elementEvent (elemCode 0x0A (stack + 2 ^ 5 * pch)) .marking uncorr own 0 act err).1

/-- Update-engine registers of a stack as an owner change of its pages or a load resets them (R61, R268). -/
def Stack.resetUe (x : Stack) : Stack :=
  { x with ueFlags := 0, residueSeen := false, uePoisonSeen := false, untouchedSeen := false, excessSeen := false, ueEvents2 := 0 }

/-- A poisoned block read (R208). -/
def State.poisonRead (s : State) (stack : Nat) : State :=
  ((s.modStack stack (fun x => { x with poisonSeen := true })).count (counterKey 0x5110 4 stack) 1).count
    (counterKey 0x5011 4 0) 1

/-- What the reads of n blocks leave behind. `retry`: this is the second read of R207. Answers whether a first read has to
be retried. -/
def State.noteBlocks (s : State) (stack page phys b n : Nat) (retry : Bool) : Bool × State :=
  (List.range n).foldl (fun (acc : Bool × State) i =>
    match blockOutcome (s.storeBlock stack phys (b + i)) with
    | .clean => acc
    | .corrected => (acc.1, if retry then acc.2 else acc.2.pageEvent stack page (b + i) false false)
    | .poison => (acc.1, if retry then acc.2 else acc.2.poisonRead stack)
    | .uncorrectable =>
      if retry then (acc.1, acc.2.pageEvent stack page (b + i) true false)
      else (true, (acc.2.pageEvent stack page (b + i) true true).count (counterKey 0x5110 3 stack) 1)) (false, s)

/-! Access rules (R200). -/

/-- Class of a requester, and its number, for the order of R211. -/
def Requester.cls (r : Requester) : Nat :=
  match r with
  | .updateEngine _ => 0 | .exporter _ => 1 | .context .. => 2 | .peer .. => 2 | .hostDma .. => 3 | .management => 4

def Requester.num (r : Requester) : Nat :=
  match r with
  | .updateEngine n => n | .exporter n => n | .context c k _ => 4 * c + k | .peer n .. => 16384 + n | .hostDma n .. => n
  | .management => 0

/-- Table 7.5. `view` is VIEW of the address, `running` says whether the page's partition runs. -/
def pageAllows (g : Page) (who : Requester) (op : StoreOp) (view running : Bool) : Bool :=
  let rd := op == .read
  let wr := op == .write
  let dbuf := g.kind == 1 || g.kind == 2
  let viewOk := !view || g.kind == 1
  viewOk &&
  match who with
  | .context .. => (g.kind == 0 && (rd || wr)) || (dbuf && rd && view) || (g.kind == 3 && op == .reduce) || (g.kind == 5 && (rd || wr))
  | .peer .. => (g.kind == 0 && ((rd && g.peerRead) || (wr && g.peerWrite))) || (dbuf && rd && view && g.peerRead)
      || (g.kind == 3 && op == .reduce && g.peerWrite)
  | .updateEngine _ => ((dbuf || g.kind == 3) && (rd || wr)) || (g.kind == 4 && wr)
  | .exporter _ => g.kind == 4 && rd
  | .hostDma .. =>
    if running then (dbuf && rd && view) || (g.kind == 5 && (rd || wr))
    else (g.kind == 4 && rd) || (g.kind != 4 && (rd || wr))
  | .management => false

/-! The system page of a partition (R240). -/

def accD (_ : Nat) : Acc := ⟨0, 0, 0, 0, 0, 0⟩

/-- Word from fields, each with its lowest bit. -/
def packWord (fs : List (Nat × Nat)) : Nat := fs.foldl (fun a f => a + f.1 * 2 ^ f.2) 0

/-- Word i of an ACC entry (Table 8.2). -/
def accWord (a : Acc) (i : Nat) : Nat :=
  match i with
  | 0 => packWord [(a.kind, 0), (a.ctx, 2), (a.port, 16)]
  | 1 => a.flow
  | 2 => a.expect
  | 3 => a.count
  | _ => 0

/-- Word i of the parameter block (Table 8.3). -/
def paramWord (q : Param) (shards i : Nat) : Nat :=
  match i with
  | 0 => q.lrPeak.toNat
  | 1 => q.lrMin.toNat
  | 2 => q.warmup
  | 3 => q.decay
  | 4 => q.clipNorm.toNat
  | 5 => q.skipNorm.toNat
  | 6 => q.ueSeed.toNat
  | 7 => shards
  | 8 => packWord [(q.normScope, 0), (q.normGroup, 3), (q.commitGroup, 11)]
  | 10 => q.startStep % 2 ^ 32
  | 11 => q.startStep / 2 ^ 32
  | 12 => q.startApplied % 2 ^ 32
  | 13 => q.startApplied / 2 ^ 32
  | _ => if 16 ≤ i then (q.lrTable.getD (i - 16) 0).toNat else 0

/-- Word i of the commit record (Table 8.8). -/
def Uep.recordWord (x : Uep) (i : Nat) : Nat :=
  match i with
  | 0 => (x.committed.setWidth 32).toNat
  | 1 => (x.committed >>> 32).toNat
  | 2 => (x.applied.setWidth 32).toNat
  | 3 => (x.applied >>> 32).toNat
  | 4 => (x.skipped.setWidth 32).toNat
  | 5 => (x.skipped >>> 32).toNat
  | 6 => b2n x.copySel + 256 * b2n x.lastSkipped
  | 7 => x.recEpoch.toNat
  | 8 => (x.recTT.setWidth 32).toNat
  | 9 => (x.recTT >>> 32).toNat
  | 10 => x.normSq.toNat
  | 11 => x.clip.toNat
  | 12 => x.lr.toNat
  | _ => 0

/-- A plane word (R242). -/
def planeWord (pl : Plane) : Nat := packWord [(pl.page, 0), (pl.off, 15)]

/-- Word i of a shard descriptor (Tables 8.4 and 8.5). -/
def shardWord (h : Shard) (i : Nat) : Nat :=
  match i with
  | 0 => packWord [(h.rule, 0), (b2n h.firstMom, 2), (h.cc0Fmt, 3), (h.cc1Fmt, 7), (b2n h.ccSr, 11), (b2n h.ccMean, 12),
      (b2n h.momSr, 13), (b2n h.exportEn, 14), (b2n h.exportMom, 15)]
  | 1 => h.nEl
  | 2 => h.nc
  | 3 => planeWord h.wPlane
  | 4 => planeWord h.mPlane
  | 5 => planeWord h.sPlane
  | 6 => planeWord h.cc0Plane
  | 7 => planeWord h.cc1Plane
  | 8 => planeWord h.gPlane
  | 9 => packWord [(h.mark, 0), (b2n h.markEn, 31)]
  | 10 => h.b1.toNat
  | 11 => h.b2.toNat
  | 12 => h.eps.toNat
  | 13 => h.lambda.toNat
  | 14 => h.gscale.toNat
  | _ => h.lrMult.toNat

/-- Word i of a run of bits. -/
def bitsWord (f : Nat → Bool) (i : Nat) : Nat := (List.range 32).foldl (fun a j => a + if f (32 * i + j) then 2 ^ j else 0) 0

/-- Word i of the system page (Table 8.1). -/
def Uep.systemWord (x : Uep) (i : Nat) : Nat :=
  let o := 4 * i
  if o < 0x100000 then bitsWord (fun b => mapGet boolD x.touched b) i
  else if o < 0x110000 then accWord (mapGet accD x.acc ((o - 0x100000) / 32)) (i % 8)
  else if o < 0x111000 then paramWord x.param x.shards.length ((o - 0x110000) / 4)
  else if o < 0x111040 then x.recordWord ((o - 0x111000) / 4)
  else if o < 0x120000 then 0
  else if o < 0x160000 then
    match x.shards[(o - 0x120000) / 64]? with
    | some h => shardWord h (i % 16)
    | none => 0
  else if o < 0x200000 then bitsWord x.marks.contains ((o - 0x160000) / 4)
  else 0

/-- Slot of a REDUCE page among those of its partition in a stack, in increasing page number (R232). -/
def State.reduceSlot (s : State) (stack p page : Nat) : Nat :=
  let r := s.pmap.pages.getD (8 * stack + p) (0, 0)
  ((List.range (page - r.1)).filter (fun i => (s.page stack (r.1 + i)).kind == 3)).length

def Uep.accAt (x : Uep) (slot : Nat) : Acc := mapGet accD x.acc slot

/-- Is a requester the single source of a REDUCE page (R229)? A page whose EXPECT is 0 has none (R235). -/
def accAdmits (a : Acc) (who : Requester) : Bool :=
  a.expect != 0 && match who with
  | .context c k _ => a.kind == 1 && a.ctx == 4 * c + k
  | .peer n _ flow => a.kind == 2 && a.port == n && a.flow == flow
  | _ => false

/-- The page a request acts on, by COPY_SEL of the owner when VIEW is set (R198). -/
def State.viewPage (s : State) (stack page p : Nat) (view : Bool) : Nat :=
  if view && (s.uep stack p).copySel then page + 1 else page

/-- May a request be served (R200, R229)? A retired or untrained stack refuses every request (R358). The management class reads the
system page of the partition it names, its address the offset there, and no other page. -/
def State.serves (s : State) (r : StoreReq) : Bool :=
  let page := saPage r.addr
  let g := s.page r.stack page
  let k := s.stack r.stack
  k.trained && !k.retired &&
  if r.who = .management then r.op == .read && decide (r.addr + r.len ≤ 2 ^ 21) else
    s.pageOwner r.stack page == some r.part
    && pageAllows g r.who r.op (saView r.addr) (s.part r.part).running
    && (r.op != .reduce || accAdmits ((s.uep r.stack r.part).accAt (s.reduceSlot r.stack r.part page)) r.who)

/-! The arbiter. -/

def prioD (_ : Nat) : Prio := Prio.reset
/-- No PART_PRIO value on its way; no write carries AGE_LIMIT 0 (R501). -/
def prioNone (_ : Nat) : Prio := ⟨0, 0, 0, 0, 0⟩
def State.prio (s : State) (stack p : Nat) : Prio := mapGet prioD s.store.prios (8 * stack + p)
/-- Rounds a pseudo-channel has begun (R210, R211) (DESIGN CHOICE, log entry 81). -/
def State.round (s : State) (stack pch : Nat) : Nat := mapGet (natD 0) s.store.rounds (64 * stack + pch)

def State.modStore (s : State) (f : Store → Store) : State := { s with store := f s.store }

/-- Priority of a request, sampled now (R213, R301). -/
def State.reqPrio (s : State) (r : StoreReq) : Nat :=
  match r.who with
  | .context c k _ => (s.ctx c k).prio
  | .peer .. => r.prio
  | .updateEngine _ => (s.prio r.stack r.part).update
  | .exporter _ => (s.prio r.stack r.part).exp
  | .hostDma .. => (s.prio r.stack r.part).host
  | .management => (s.prio r.stack r.part).mgmt

/-- Effective priority (R212). -/
def State.effPrio (s : State) (r : StoreReq) : Nat :=
  if (s.prio r.stack r.part).ageLimit ≤ r.age then 7 else s.reqPrio r

/-- Does request a beat request b, a standing earlier in the list (R211)? -/
def State.beats (s : State) (a b : StoreReq) : Bool :=
  let pa := s.effPrio a
  let pb := s.effPrio b
  if pa ≠ pb then decide (pa > pb)
  else if a.age ≠ b.age then decide (a.age > b.age)
  else if a.who.cls ≠ b.who.cls then decide (a.who.cls < b.who.cls)
  else decide (a.who.num ≤ b.who.num)

/-- Do two requests come from one requester (R196)? Those of a port, whose order R19 keeps, count as one (DESIGN CHOICE, log entry 81). -/
def Requester.same (a b : Requester) : Bool :=
  match a, b with
  | .context c k _, .context e l _ => c == e && k == l
  | .peer n _ _, .peer m _ _ => n == m
  | .hostDma _ q _, .hostDma _ r _ => q == r
  | x, y => x == y

/-- Do two requests touch one 64 B block (R196)? -/
def StoreReq.meets (a b : StoreReq) : Bool :=
  let at_ (r : StoreReq) : Nat := r.addr % 2 ^ 47
  decide (at_ a / 64 < (at_ b + b.len + 63) / 64) && decide (at_ b / 64 < (at_ a + a.len + 63) / 64)

/-- Must a request wait for an earlier one of its requester to the same block (R196, R230)? -/
def State.behind (s : State) (i : Nat) (r : StoreReq) : Bool :=
  (s.store.reqs.take i).any (fun q =>
    q.who.same r.who && q.meets r && (q.status != .granted || (q.op == .reduce && !q.refused && !q.data.isEmpty)))

/-- Requests with their place in the list, and the winner of a round. -/
def State.winner (s : State) (p stack pch : Nat) : Option Nat :=
  let cs := s.store.reqs.zipIdx.filter (fun ri =>
    ri.1.stack == stack && ri.1.pch == pch && ri.1.part == p && ri.1.status == .arrived && !s.behind ri.2 ri.1)
  (cs.foldl (fun (acc : Option (StoreReq × Nat)) ri =>
    match acc with
    | none => some ri
    | some b => if s.beats b.1 ri.1 then some b else some ri) none).map Prod.snd

def State.modReq (s : State) (i : Nat) (f : StoreReq → StoreReq) : State :=
  s.modStore (fun t => { t with reqs := listMod t.reqs i f })

/-- Block number of a store address within its page. -/
def saBlock (a : Nat) : Nat := bitsN a 20 6

/-- Is a page block in the current compute copy of some shard of partition p (R362)? Planes are runs of 512 B units over
every second page (R242). -/
def inPlane (pl : Plane) (bytes page off : Nat) : Bool :=
  let k := (page - pl.page) / 2
  decide (pl.page / 2 ≤ page / 2) &&
    (let b := k * 2 ^ 21 + off
     decide (pl.off * 512 ≤ b) && decide (b < pl.off * 512 + bytes))

/-- Bytes of a compute-copy plane (R242). -/
def copyBytes (fmt nEl : Nat) : Nat :=
  match fmt with
  | 1 => 2 * nEl
  | 2 => nEl
  | 4 => nEl / 2 + nEl / 32
  | 5 => nEl / 4 + nEl / 32
  | _ => 0

def Uep.isCopy (x : Uep) (page off : Nat) : Bool :=
  x.shards.any (fun h => inPlane h.cc0Plane (copyBytes h.cc0Fmt h.nEl) page off
    || inPlane h.cc1Plane (copyBytes h.cc1Fmt h.nEl) page off)

/-- A context has read a poisoned block of a compute copy: the stack lists it; an overflow past 256 sets
START_BLOCKED (R362). -/
def State.listPoison (s : State) (stack p page blk : Nat) : State :=
  let x := s.uep stack p
  if x.isCopy page (blk * 64) then
    if x.poisonBlocks.contains (page * 32768 + blk) then s
    else if x.poisonBlocks.length ≥ 256 then s.modUep stack p (fun y => { y with poisonOverflow := true, startBlocked := true })
    else s.modUep stack p (fun y => { y with poisonBlocks := y.poisonBlocks ++ [page * 32768 + blk] })
  else s

def Requester.isContext (r : Requester) : Bool :=
  match r with
  | .context .. => true
  | .peer .. => true
  | _ => false

/-- Perform a granted request on its page: a read takes its data, a write stores its words; a REDUCE waits for its
contribution (R237). A first read that is uncorrectable waits for its retry, of the page its grant resolved (R198, R207). -/
def State.perform (s : State) (i : Nat) (r : StoreReq) (retry : Bool) : State :=
  let page := r.page.getD (s.viewPage r.stack (saPage r.addr) r.part (saView r.addr))
  let phys := s.physPage r.stack page
  let b := saBlock r.addr
  let n := r.len / 64
  if r.who = .management then
    s.modReq i (fun x => { x with
      status := .granted
      data := (List.range (r.len / 4)).map (fun j =>
        ⟨BitVec.ofNat 32 ((s.uep r.stack r.part).systemWord (r.addr / 4 + j)), false⟩) })
  else
  match r.op with
  | .reduce => s.modReq i (fun x => { x with status := .granted })
  | .write => (s.putBlocks r.stack phys b r.data).modReq i (fun x => { x with status := .granted })
  | .read =>
    let out := s.noteBlocks r.stack page phys b n retry
    if out.1 then out.2.modReq i (fun x => { x with status := .retry, page := some page })
    else
      let s1 := if r.who.isContext then
          (List.range n).foldl (fun t k =>
            if (deliverBlock (s.storeBlock r.stack phys (b + k))).any PWord.poison
            then t.listPoison r.stack r.part page (b + k) else t) out.2
        else out.2
      s1.modReq i (fun x => { x with status := .granted, data := s.getBlocks r.stack phys b n })

/-- Refuse a request: it moves no data and is reported (R200). -/
def State.refuseReq (s : State) (i : Nat) (r : StoreReq) : State :=
  ((s.modStack r.stack (fun x => { x with refused := true })).count (counterKey 0x5110 6 r.stack) 1).modReq i
    (fun x => { x with status := .granted, refused := true })

/-- A grant of a host READ by VIEW: MIXED once COPY_SEL differs from what the entry's first grant saw (R336). -/
def State.noteCopySel (s : State) (r : StoreReq) : State :=
  match r.who, r.op, saView r.addr with
  | .hostDma _ q _, .read, true =>
    let c := (s.uep r.stack r.part).copySel
    s.modHostQ q (fun x => { x with job := x.job.map (fun j =>
      match j.copySel with
      | none => { j with copySel := some c }
      | some d => { j with mixed := j.mixed || c != d }) })
  | _, _, _ => s

/-- PART_PRIO values on their way to a stack reach it in one of its rounds: the sample of that round is made, and the next sees them
(R213, R215) (DESIGN CHOICE, log entry 81). -/
def State.prioArrives (s : State) (stack : Nat) : State :=
  s.modStore (fun t => { t with
    prios := (List.range 8).foldl (fun m p => match mapFind t.prioNext (8 * stack + p) with
      | some v => mapSet prioD m (8 * stack + p) v
      | none => m) t.prios
    prioNext := t.prioNext.filter (fun kv => kv.1 / 8 != stack) })

/-- The waiting requests of a round's owner that are not granted age by one (R212). -/
def State.ageOthers (s : State) (stack pch p i : Nat) : State :=
  s.modStore (fun t => { t with reqs := t.reqs.zipIdx.map (fun ri =>
    if ri.2 ≠ i ∧ ri.1.stack = stack ∧ ri.1.pch = pch ∧ ri.1.part = p ∧ ri.1.status = .arrived
    then { ri.1 with age := min 255 (ri.1.age + 1) } else ri.1) })

/-- A read of partition p on a pseudo-channel that waits for its retry: the partition's next round there is the retry's (R207). -/
def State.retryOf (s : State) (stack pch p : Nat) : Option (StoreReq × Nat) :=
  s.store.reqs.zipIdx.find? (fun ri => ri.1.stack == stack && ri.1.pch == pch && ri.1.part == p && ri.1.status == .retry)

/-- A round of a pseudo-channel that partition p owns: a retry, or its best request; the others age (R207, R211, R212). -/
def State.ownedRound (s : State) (stack pch p : Nat) : State :=
  match s.retryOf stack pch p with
  | some ri => (s.ageOthers stack pch p ri.2).perform ri.2 ri.1 true
  | none =>
    match s.winner p stack pch with
    | none => s
    | some i =>
      let s2 := s.ageOthers stack pch p i
      match s.store.reqs[i]? with
      | none => s2
      | some r => if s.serves r then (s2.noteCopySel r).perform i r false else s2.refuseReq i r

def State.setRound (s : State) (stack pch n : Nat) : State :=
  s.modStore (fun t => { t with rounds := mapSet (natD 0) t.rounds (64 * stack + pch) n })

/-- STORE_ROUND_GRANT: one round of a pseudo-channel. Its owner's best request is granted; the others age (R210 to R214).
(DESIGN CHOICE, log entry 81.) -/
def roundGrantEffect (stack pch : Nat) (s : State) : State :=
  if s.power.selfRefresh then s else
  let rd := s.round stack pch
  let s1 := s.setRound stack pch (rd + 1)
  (match slotOwner s.pmap.storeShare (rd % 256) with
  | none => s1
  | some p => s1.ownedRound stack pch p).prioArrives stack

/-- Guard of a command that names a stack and a pseudo-channel. -/
def onPch (stack pch : Nat) (t : State) : Answer :=
  if stack < 24 then onNumber "pseudo-channel" 64 pch t else .fault (.noSuchElement "stack" stack)

def execStoreRoundGrant (stack pch : Nat) (s : State) : Answer := onPch stack pch (roundGrantEffect stack pch s)

/-- Rounds until the next one owned by partition p (R207, R210). -/
def State.roundsTo (s : State) (stack pch p : Nat) : Nat :=
  ((List.range 256).find? (fun i => slotOwner s.pmap.storeShare ((s.round stack pch + i) % 256) == some p)).getD 0

/-- STORE_READ_RETRY: the second read of an uncorrectable read, in the partition's next round (R207). -/
def readRetryEffect (stack pch : Nat) (s : State) : State :=
  match s.store.reqs.find? (fun r => r.stack == stack && r.pch == pch && r.status == .retry) with
  | none => s
  | some r =>
    if s.power.selfRefresh then s
    else ((s.setRound stack pch (s.round stack pch + s.roundsTo stack pch r.part + 1)).ownedRound stack pch r.part).prioArrives stack

def execStoreReadRetry (stack pch : Nat) (s : State) : Answer := onPch stack pch (readRetryEffect stack pch s)

/-- Requests of partition p that hold request contexts of a stack. -/
def State.ctxHeld (s : State) (stack p : Nat) : Nat :=
  s.store.reqs.countP (fun r => r.stack == stack && r.part == p && r.status != .queued && r.who != .management)

/-! The deckle ring (R194). -/

/-- The corner bridge, with its direction, that a transfer at edge switch a takes to edge switch b, and the switch it comes to: the
way with fewer bridges, clockwise between opposite edges. None at its goal. -/
def bridgeFrom (a b : Nat) : Option (Nat × Nat) :=
  if a = b then none
  else if (b + 4 - a) % 4 = 3 then some (2 * a + 1, (a + 3) % 4)
  else some (2 * a, (a + 1) % 4)

/-- A transfer of partition p takes the next slot of a bridge's frame that its store share gives it; slots before it stay idle or are
their owners' (R165, R194). None for a partition without a share (DESIGN CHOICE, log entry 81). -/
def State.bridgeSlot (s : State) (p key : Nat) : Option State :=
  let n := mapGet (natD 0) s.store.bridges key
  ((List.range 256).find? (fun i => slotOwner s.pmap.storeShare ((n + i) % 256) == some p)).map (fun i =>
    s.modStore (fun t => { t with bridges := mapSet (natD 0) t.bridges key (n + i + 1) }))

/-- Cross the bridges from edge switch a to edge switch b, at most two, one slot each (DESIGN CHOICE, log entry 81). -/
def State.cross (s : State) (p a b : Nat) : Option State :=
  match bridgeFrom a b with
  | none => some s
  | some x =>
    match s.bridgeSlot p x.1 with
    | none => none
    | some t =>
      match bridgeFrom x.2 b with
      | none => some t
      | some y => t.bridgeSlot p y.1

/-- STORE_REQUEST_ARRIVAL: the oldest queued request of partition p comes to its stack's edge switch and takes a request context
of the stack, within CTX_QUOTA; context 63 is the management class's (R194, R209, R212). -/
def requestArrivalEffect (stack p : Nat) (s : State) : State :=
  let free (r : StoreReq) : Bool :=
    if r.who = .management then
      !(s.store.reqs.any (fun q => q.stack == stack && q.who == .management && q.status != .queued))
    else decide (s.ctxHeld stack p < s.pmap.ctxQuota.getD p 0)
  match s.store.reqs.zipIdx.find? (fun ri =>
      ri.1.stack == stack && ri.1.part == p && ri.1.status == .queued && free ri.1) with
  | none => s
  | some ri =>
    match s.cross p ri.1.at_ (stack / 6) with
    | none => s
    | some t => t.modReq ri.2 (fun r => { r with status := .arrived, age := 0, at_ := stack / 6 })

/-- Answer the request of a context (R223). -/
def Ctx.answer (x : Ctx) (idx denied : Nat) (data : List PWord) : Ctx :=
  { x with reqs := x.reqs.map (fun r => if r.idx = idx then { r with answered := true, denied := denied, data := data } else r) }

/-- STATUS codes of a frame (Table 10.4). -/
def statusOk : Nat := 0
def statusDenied : Nat := 1
def statusRange : Nat := 2
def statusNoFlow : Nat := 3

/-- Bytes of words, in memory order. -/
def bytesOfWords (ws : List PWord) : List Byte := ws.flatMap (fun w => leBytes 4 w.w.toNat)

/-- A sequenced frame before it is numbered. -/
def mkFrame (ty len flow tag prio status : Nat) (addr : Nat) (pl : Payload) : Frame :=
  { ty := ty, last := true, len := len, seq := 0, ack := 0, creditReq := 0, flow := flow, tag := tag, prio := prio,
    status := status, addr := BitVec.ofNat 48 addr, unseq := false, gen := 0, creditRsp := 0, payload := pl }

/-- The response to a peer's request (Table 10.5). -/
def responseFrame (r : StoreReq) (tag flow : Nat) : Frame :=
  match r.op with
  | .read =>
    if r.refused then mkFrame 0x02 0 flow tag 0 statusDenied r.addr (.words [])
    else mkFrame 0x02 r.len flow tag 0 statusOk r.addr (.words r.data)
  | _ => mkFrame 0x06 0 flow tag 0 (if r.refused then statusDenied else statusOk) r.addr .empty

/-- A store request of a host entry completes: bytes moved, data read with poisoned blocks as zeros, or the refusal that ends
the entry with DENIED and withdraws its later requests (R333, R336). -/
def State.hostDone (s : State) (q idx : Nat) (r : StoreReq) : State :=
  let mine (x : StoreReq) : Bool := match x.who with | .hostDma _ m _ => m == q | _ => false
  let s1 := if r.refused then
      s.modStore (fun t => { t with reqs := t.reqs.filter (fun x => !mine x || x.status == .granted || x.status == .retry) })
    else s
  let bad := ((pieces 16 r.data).filter (fun b => b.any PWord.poison)).length
  let clean := (pieces 16 r.data).flatMap (fun b => if b.any PWord.poison then List.replicate 16 ⟨0, false⟩ else b)
  s1.modHostQ q (fun x => { x with job := x.job.map (fun j =>
    if r.refused then { j with finished := j.finished + 1, status := if j.status = 0 then 1 else j.status }
    else
      { j with
        finished := j.finished + 1
        moved := j.moved + r.len
        poison := if r.op = .read then j.poison + bad else j.poison
        read := if r.op = .read then mapSet (fun _ => []) j.read idx clean else j.read }) })

/-- The elastic flits that carry words: 64 each, one without lines for none (R153, R174). -/
def mkFlits (p c d fab : Nat) (ws : List PWord) (cargo : Bool → Cargo) : List Flit :=
  let ps := if ws.isEmpty then [[]] else pieces flitWords ws
  ps.zipIdx.map (fun wi =>
    { part := p, c := c, d := d, pcyc := 0, fcyc := fab, slot := 0, parked := false,
      mask := BitVec.ofNat 16 (2 ^ ((wi.1.length + 3) / 4) - 1), words := wi.1, cargo := cargo (wi.2 + 1 == ps.length) })

/-- Read data of a context goes back over the bridges to the edge link it was asked by, as elastic flits (R218); a context of a
partition that no longer runs discards it (R217). -/
def State.returnData (s : State) (c k idx : Nat) (r : StoreReq) : State :=
  if !(s.part r.part).running then s.modCtx c k (fun x => x.answer idx 0 r.data)
  else
    let edge := r.link / 64
    let at_ := edgeCluster edge (r.link % 64)
    let key := queueKey at_ edge r.part
    let s1 := (s.cross r.part (r.stack / 6) edge).getD s
    (s1.modFabric (fun f => { f with edges := mapMod flitsD f.edges key (· ++
      mkFlits r.part at_ edge s.clock.fab r.data (fun last => .toCtx (4 * c + k) idx last)) })).feedEdge key

/-- STORE_BURST_COMPLETE: the granted request of a pseudo-channel completes, frees its request context and answers its
requester (R209, R218, R223, R300). A REDUCE completes once its contribution has been performed. -/
def burstCompleteEffect (stack pch : Nat) (s : State) : State :=
  let ready (r : StoreReq) : Bool :=
    r.stack == stack && r.pch == pch && r.status == .granted && (r.op != .reduce || r.refused || r.data.isEmpty)
  match s.store.reqs.zipIdx.find? (fun ri => ready ri.1) with
  | none => s
  | some ri =>
    let r := ri.1
    let s1 := s.modStore (fun t => { t with reqs := t.reqs.eraseIdx ri.2 })
    match r.who with
    | .context c k idx =>
      if r.op = .read ∧ !r.refused then s1.returnData c k idx r
      else s1.modCtx c k (fun x => x.answer idx (if r.refused then 3 else 0) [])
    | .peer n tag flow => (s1.queueFrame (s1.outPort n) (responseFrame r tag flow)).modPort (s1.outPort n) (fun x => { x with oweReq := x.oweReq + 1 + r.len / 64 })
    | .hostDma _ q idx => s1.hostDone q idx r
    | .management => if r.op = .read then s1.emit (.bytes (bytesOfWords r.data)) else s1
    | _ => s1

def execStoreBurstComplete (stack pch : Nat) (s : State) : Answer := onPch stack pch (burstCompleteEffect stack pch s)

/-- Fields of a PART_PRIO word. -/
def prioOf (v : Nat) : Prio := ⟨bitsN v 2 0, bitsN v 5 3, bitsN v 8 6, bitsN v 11 9, bitsN v 19 12⟩
def Prio.word (x : Prio) : Nat := x.update + 8 * x.exp + 64 * x.host + 512 * x.mgmt + 4096 * x.ageLimit

/-- Send PART_PRIO of partition p to every stack, which it reaches on its own, and set the dictionary's (R213, R215, R501). -/
def State.setPrio (s : State) (p v : Nat) : State :=
  if (prioOf v).ageLimit = 0 then s
  else
    let s1 := (List.range 24).foldl (fun t k => t.modStore (fun st =>
      { st with prioNext := mapSet prioNone st.prioNext (8 * k + p) (prioOf v) })) s
    s1.setSetting (0x3410 + p) 1 (v % 2 ^ 20)

/-- PART_PRIO_WRITE: refused as a whole when AGE_LIMIT is 0 (R501) (DEDUCED, log entry 133). -/
def execPartPrioWrite (p : Nat) (v : Word) (who : Writer) (s : State) : Answer :=
  onNumber "partition" 8 p (s.guardedBy who (s.setPrio p v.toNat))

end Sys2Proof.Machine
end

