-- ==== Sys2Proof/Machine/Elastic.lean ====
section
/-! DEFINITION. Elastic traffic of the mesh (R154, R166, R174, R175, R178, R205, R218): flits that carry a context's requests to an
edge link or a port's attach cluster, read data on their way back, and data that lands where an entry says. -/

namespace Sys2Proof.Machine

open Sys2Proof

/-! A context's request in the mesh. -/

/-- Words of a context's request have come out of the mesh (R180). -/
def Ctx.gather (x : Ctx) (idx : Nat) (ws : List PWord) : Ctx :=
  { x with reqs := x.reqs.map (fun r => if r.idx = idx then { r with got := r.got ++ ws } else r) }

/-- The request of a context with a number. -/
def Ctx.req (x : Ctx) (idx : Nat) : Option CtxReq := x.reqs.find? (fun r => r.idx == idx)

/-- The store request a context's request makes at an edge switch, with the words that came (R211, R218). -/
def CtxReq.storeReq (r : CtxReq) (p c k link at_ : Nat) (ws : List PWord) : StoreReq :=
  { stack := saStack r.storeAddr, pch := saPch r.storeAddr, part := p, who := .context c k r.idx,
    op := match r.op with | 0 => .read | 1 => .write | _ => .reduce
    addr := r.storeAddr, len := r.len, data := ws, status := .queued, age := 0, prio := 0, refused := false, page := none,
    link := link, at_ := at_ }

/-- Words of a request leave the mesh by an edge link; with the last of them the request is at the edge switch (R192, R205, R218). -/
def State.enterRing (s : State) (p ctx idx link : Nat) (ws : List PWord) (last : Bool) : State :=
  let c := ctx / 4
  let k := ctx % 4
  let s1 := s.modCtx c k (fun x => x.gather idx ws)
  if !last then s1
  else
    match (s1.ctx c k).req idx with
    | none => s1
    | some r => s1.modStore (fun t => { t with reqs := t.reqs ++ [r.storeReq p c k link (link / 64) r.got] })

/-- Words of a remote request come to the attach cluster of its port; with the last of them the frame takes its place in the port's
send queue (R154, R180, R218). -/
def State.enterPort (s : State) (n ctx idx : Nat) (ws : List PWord) (frame : Option Frame) : State :=
  let s1 := s.modCtx (ctx / 4) (ctx % 4) (fun x => x.gather idx ws)
  match frame with
  | none => s1
  | some f =>
    let got := match (s1.ctx (ctx / 4) (ctx % 4)).req idx with
      | some r => r.got
      | none => []
    s1.queueFrame (s1.outPort n) { f with payload := match f.payload with
      | .words _ => .words got
      | x => x }

/-- Read data comes to its context: the last of it answers the request (R218, R223). -/
def State.enterCtx (s : State) (ctx idx : Nat) (ws : List PWord) (last : Bool) : State :=
  s.modCtx (ctx / 4) (ctx % 4) (fun x =>
    let y := x.gather idx ws
    if last then { y with reqs := y.reqs.map (fun r => if r.idx = idx then { r with answered := true, data := r.got } else r) }
    else y)

/-! Sending. -/

/-- Send one elastic flit on output d: into the next router's queue; off the mesh at an edge link, its words decoded there (R205). -/
def State.sendElastic (s : State) (c d p e : Nat) (x : Flit) (err : SMap (BitVec 39)) : State :=
  let fab := s.clock.fab
  let s1 := if outSrc e = 5 then
      s.modFabric (fun f => { f with departs := mapMod flitsD f.departs (4 * c + bitsN e 4 3) (fun l => l.drop 1) })
    else s.popQueue c (outSrc e - 1) p fab
  match neighbour c d with
  | none =>
    let r := s1.landWords c d true 0 x.words err
    match x.cargo with
    | .toStore ctx idx last => r.2.enterRing p ctx idx (64 * d + edgeIndex c d) (validWords x.mask r.1) last
    | _ => r.2
  | some n =>
    let k := queueKey n (opposite d) p
    s1.modFabric (fun f => { f with
      credits := mapMod (natD 2) f.credits k (fun v => v - 1)
      queues := mapMod flitsD f.queues k (fun l => l ++ [{ x with c := n, d := opposite d, fcyc := fab + 3 }]) })

/-- Does a slot of OUT_d in i fabric cycles' time send an elastic flit: an elastic entry that finds a flit of its owner and a credit
(R166, R174)? Shared slots stay idle in a remap window (R161). -/
def State.canSend (s : State) (c d : Nat) (k : LinkClass) (i : Nat) : Option (Nat × Nat × Flit) :=
  let slot := s.indexIn k i
  match s.slotOwnerOf k slot with
  | none => none
  | some p =>
    let e := s.entry c d slot
    let credit : Bool := match neighbour c d with
      | some n => decide (0 < s.creditOf (queueKey n (opposite d) p))
      | none => true
    if outClass e == 1 && !(k == .shared && decide (s.clock.fab + i < s.fabric.remapUntil)) && s.moving p
        && decide (s.fabric.busyTo c d ≤ s.clock.fab + i) && credit then
      (s.elasticHead c p e (s.clock.fab + i)).map (fun x => (p, slot, x))
    else none

/-- Fabric cycles in which every slot of a frame is reached, with the cycles a hop takes. -/
def slotSearch : Nat := 264

/-- ELASTIC_FLIT_SEND: the next slot of OUT_d that sends one. With nothing to send, the entry of the present slot is checked all the
same (R187); a lost link moves nothing (DEDUCED, log entry 79; DESIGN CHOICE, log entry 78). -/
def elasticSendEffect (c d : Nat) (upset : Word) (err : SMap (BitVec 39)) (s : State) : State :=
  let k := s.linkClass c d
  if s.isLost c d then s
  else
    match (List.range slotSearch).findSome? (fun i => (s.canSend c d k i).map (fun r => (i, r))) with
    | none => s.checkIdle k c d (neighbour c d) upset
    | some (i, p, slot, x) =>
      let s1 := (s.advance i).markSlot c d (s.clock.fab + i)
      let e := s.upsetEntry c d slot upset
      if !evenParity e then s1.tableParity c (some p) (neighbour c d)
      else s1.sendElastic c d p (s.entry c d slot) x err

def execElasticFlitSend (c d : Nat) (upset : Word) (s : State) (err : SMap (BitVec 39) := []) : Answer :=
  if d < 4 then onCluster c (elasticSendEffect c d upset err s) else .fault (.noSuchElement "mesh side" d)

/-! Landing. -/

/-- Does a slot of LAND in i fabric cycles' time land an elastic flit from input d (R170, R174)? Nothing lands in a cluster that zeroes
its memory (R123). -/
def State.canLand (s : State) (c d : Nat) (k : LinkClass) (i : Nat) : Option (Nat × Nat × Flit) :=
  let slot := s.indexIn k i
  match s.slotOwnerOf k slot with
  | none => none
  | some p =>
    let e := s.entry c 4 slot
    if landEn e d && landClass e d == 1 && s.moving p && !s.zeroBusy c then
      ((s.elasticQ c d p).head?.filter (fun x => decide (x.fcyc ≤ s.clock.fab + i))).map (fun x => (p, slot, x))
    else none

/-- What a landed flit does: read data of the cluster's own context; data for a port attached here; host data of a flow that lands
here (R341); any other writes its valid lines
to the region the entry names, by the port-fed landing path (R113, R154, R174). -/
def State.landElastic (s : State) (c circ : Nat) (x : Flit) (ws : List PWord) : State :=
  let plain := s.stageWrite c { src := .landing, dest := .circ circ, words := ws, idx := 0, land := none }
  match x.cargo with
  | .toPort n ctx idx frame => if attachCluster (s.outPort n) = c then s.enterPort n ctx idx ws frame else plain
  | .toCtx ctx idx last => if ctx / 4 = c then s.enterCtx ctx idx ws last else plain
  | .toFlow a q f r =>
    if a = c then s.stageWrite c { src := .landing, dest := .circ r, words := ws, idx := 0, land := some ⟨true, q, f, 0⟩ }
    else plain
  | .toStore .. => plain
  | .plain => plain

/-- ELASTIC_LANDING: the next slot of LAND that lands a flit from input d takes the oldest of its partition's queue; its words are
decoded (R174, R180). With none to land, the entry of the present slot is checked all the same; one whose parity fails lands nothing
(R187) (DESIGN CHOICE, log entry 78). -/
def elasticLandEffect (c d : Nat) (upset : Word) (err : SMap (BitVec 39)) (s : State) : State :=
  let k := s.inClass c d
  match (List.range slotSearch).findSome? (fun i => (s.canLand c d k i).map (fun r => (i, r))) with
  | none => s.checkIdle k c 4 none upset
  | some (i, p, slot, x) =>
    if !evenParity (s.upsetEntry c 4 slot upset) then (s.advance i).tableParity c (some p) none
    else
      let s1 := (s.advance i).popQueue c d p (s.clock.fab + i)
      let r := s1.landWords c d false 0 x.words err
      r.2.landElastic c (landCirc (s.entry c 4 slot) d) x (validWords x.mask r.1)

def execElasticLanding (c d : Nat) (err : SMap (BitVec 39)) (s : State) (upset : Word := 0) : Answer :=
  if d < 4 then onCluster c (elasticLandEffect c d upset err s) else .fault (.noSuchElement "mesh side" d)

end Sys2Proof.Machine
end

