-- ==== Sys2Proof/Machine/Landing.lean ====
section
/-! DEFINITION. What a peer's request frame does once it is accepted: its checks, its store request or its landing, and the
order in which a port's requests proceed (R229, R296, R299 to R302); and the unscheduled accesses that move landings and
context data into cluster memory (R113, R118, R119). -/

namespace Sys2Proof.Machine

open Sys2Proof

/-- Partition owning a port (R286). -/
def State.portOwner (s : State) (n : Nat) : Option Nat := s.ownerOf (512 * (n / 32))

/-! Flows. -/

/-- What a flow-table entry says (R299, R340). -/
structure Flow where
  en : Bool
  store : Bool
  circ : Nat
  arriveEn : Bool
  obj : Nat
  log2 : Nat
  deriving DecidableEq, Repr

def flowOf (v : Nat) : Flow := ⟨v.testBit 0, v.testBit 1, bitsN v 4 2, v.testBit 5, bitsN v 7 6, bitsN v 12 8⟩
def hflowOf (v : Nat) : Flow := ⟨v.testBit 0, false, bitsN v 3 1, v.testBit 12, bitsN v 14 13, bitsN v 19 15⟩

/-- FLOW[f] of port n, and HFLOW[f]. -/
def State.flow (s : State) (n f : Nat) : Flow := flowOf (mapGet wordD (s.port (s.inPort n)).flows f).toNat
def State.hflowWord (s : State) (f : Nat) : Nat := (mapGet wordD s.host.flows f).toNat

/-- The cluster a host flow lands in (R340). -/
def State.hflowCluster (s : State) (f : Nat) : Nat := edgeCluster (bitsN (s.hflowWord f) 5 4) (bitsN (s.hflowWord f) 11 6)

/-- The flow of a landing (DEDUCED, log entry 103). -/
def State.landFlow (s : State) (l : Land) : Flow := if l.host then hflowOf (s.hflowWord l.flow) else s.flow l.n l.flow

/-- Bytes of a flow landed since binding load (R302, R340). -/
def State.landedBytes (s : State) (l : Land) : Nat :=
  if l.host then mapGet (natD 0) s.host.landed l.flow else mapGet (natD 0) (s.port l.n).landed l.flow

def State.addLanded (s : State) (l : Land) (n : Nat) : State :=
  if l.host then { s with host := { s.host with landed := mapMod (natD 0) s.host.landed l.flow (· + n) } }
  else s.modPort l.n (fun x => { x with landed := mapMod (natD 0) x.landed l.flow (· + n) })

/-- Arrivals made when n more bytes of a flow land: one for each further 64 * 2^ARRIVE_LOG2 bytes (R299, R302). -/
def arrivalsFor (q : Flow) (old n : Nat) : Nat :=
  if q.arriveEn then (old + n) / (64 * 2 ^ q.log2) - old / (64 * 2 ^ q.log2) else 0

/-- Make k arrivals on a sync object of a landing cluster, credited to the peer (Table 9.5). -/
def State.arriveMany (s : State) (o k : Nat) : State := (List.range k).foldl (fun t _ => t.arrive o false .peer) s

/-! Request frames. -/

/-- Credits a frame takes from its pool (R294). -/
def frameCredits (f : Frame) : Nat := 1 + f.len / 64

/-- Bytes of a frame on the fibre (R289). -/
def frameBytes (f : Frame) : Nat :=
  let pl := if f.ty = 0x01 then 0 else f.len
  32 + pl + pl / 32 + 16

/-- The 256 KiB send queue of a port has room for a full frame (R326) (DEDUCED, log entry 93). -/
def Port.queueRoom (x : Port) : Bool := decide (x.sendQ.foldl (fun acc f => acc + frameBytes f) 0 + 1104 ≤ 262144)

/-- Words a frame carries. -/
def frameWords (f : Frame) : List PWord := match f.payload with | .words ws => ws | _ => []

/-- STATUS of a request frame before it is served (R299, R300): no such flow; no common run, or a flow that does not admit
the type; a length or address no store has; else OK (DEDUCED, log entry 82). -/
def State.requestStatus (s : State) (n : Nat) (f : Frame) : Nat :=
  let q := s.flow n f.flow
  let isSend := f.ty == 0x05
  let a := f.addr.toNat
  if decide (1024 ≤ f.flow) || !q.en then statusNoFlow
  else if !(s.port n).runMatch || q.store == isSend then statusDenied
  else if f.len = 0 ∨ f.len % 64 ≠ 0 then statusRange
  else if isSend then (if 1024 < f.len then statusRange else statusOk)
  else if decide (512 < f.len) || decide (a % 64 ≠ 0) || decide (512 < a % 512 + f.len) || !saRun a f.len then statusRange
  else statusOk

/-- The response that refuses a request frame (R300). -/
def refusalFrame (f : Frame) (status : Nat) : Frame :=
  if f.ty = 0x01 then mkFrame 0x02 0 f.flow f.tag 0 status f.addr.toNat (.words [])
  else mkFrame 0x06 0 f.flow f.tag 0 status f.addr.toNat .empty

/-- Free the receive-buffer space of a request frame: its credits are to be returned (R294). -/
def State.freeRequest (s : State) (n : Nat) (f : Frame) : State :=
  s.modPort n (fun x => { x with oweReq := x.oweReq + frameCredits f })

/-- A landing of port n waits for its region. -/
def State.landingWaits (s : State) (n : Nat) : Bool :=
  (s.cluster (attachCluster (s.inPort n))).staged.any (fun g =>
    match g.land with
    | some l => !l.host && l.n == s.inPort n
    | none => false)

/-- A store request of port n waits for a request context (R209). -/
def State.storeWaits (s : State) (n : Nat) : Bool :=
  s.store.reqs.any (fun r => r.status == .queued && (match r.who with | .peer m .. => m == s.inPort n | _ => false))

/-- Can the next request frame of port n proceed: no earlier one waits for its region or for a request context (R296)? -/
def State.canProceed (s : State) (n : Nat) : Bool := !s.storeWaits n && !s.landingWaits n

/-- Serve one request frame of port n (R300 to R302). -/
def State.serveFrame (s : State) (n : Nat) (f : Frame) : State :=
  let st := s.requestStatus n f
  if st ≠ statusOk then (s.queueFrame n (refusalFrame f st)).freeRequest n f
  else if f.ty = 0x05 then
    s.stageWrite (attachCluster (s.inPort n))
      { src := .landing, dest := .circ (s.flow n f.flow).circ, words := frameWords f, idx := 0, land := some ⟨false, s.inPort n, f.flow, f.tag⟩ }
  else
    let a := f.addr.toNat
    let op := if f.ty = 0x01 then StoreOp.read else if f.ty = 0x03 then StoreOp.write else StoreOp.reduce
    let r : StoreReq :=
      { stack := saStack a, pch := saPch a, part := partNo (s.portOwner n), who := .peer (s.inPort n) f.tag f.flow, op := op, addr := a,
        len := f.len, data := frameWords f, status := .queued, age := 0, prio := f.prio, refused := false, page := none,
        link := 0, at_ := saStack a / 6 }
    s.modStore (fun t => { t with reqs := t.reqs ++ [r] })

/-- Serve the held request frames of a port in order, as far as they can proceed (R296). -/
def State.drainFuel (fuel : Nat) (s : State) (n : Nat) : State :=
  match fuel with
  | 0 => s
  | k + 1 =>
    match (s.port n).held with
    | [] => s
    | f :: r =>
      if s.canProceed n then
        State.drainFuel k ((s.serveFrame n f).modPort n (fun x => { x with held := r })) n
      else s

/-- Requests a port holds go on, in the order of their SEQ, as far as they can (R296) (DEDUCED, log entry 93). -/
def State.drainHeld (s : State) (n : Nat) : State := s.drainFuel (s.port n).held.length n

/-- An accepted request frame takes its place behind those held back (R296). -/
def State.acceptRequest (s : State) (n : Nat) (f : Frame) : State :=
  (s.modPort n (fun x => { x with held := x.held ++ [f] })).drainHeld n

def execStoreRequestArrival (stack p : Nat) (s : State) : Answer :=
  if stack < 24 then
    onNumber "partition" 8 p
      (s.ports.foldl (fun t kv => if s.portOwner kv.1 == some p then t.drainHeld kv.1 else t) (requestArrivalEffect stack p s))
  else .fault (.noSuchElement "stack" stack)

/-! Unscheduled accesses. -/

/-- What the landing of some words does besides the write: the bytes are counted, arrivals made, and after the last word the
frame is answered and its buffer space freed (R302), or the host entry told (R336, R340). -/
def State.afterLanding (s : State) (c : Nat) (l : Land) (n : Nat) (last : Bool) : State :=
  let q := s.landFlow l
  let s1 := (s.addLanded l (4 * n)).arriveMany (4 * c + q.obj) (arrivalsFor q (s.landedBytes l) (4 * n))
  if l.host then s1.modHostQ l.n (fun x => { x with job := x.job.map (fun j => { j with acked := j.acked + 4 * n, moved := j.moved + 4 * n }) })
  else
    let s2 := s1.modPort (s1.outPort l.n) (fun x => { x with oweReq := x.oweReq + n / 16 + b2n last })
    if last then s2.queueFrame (s2.outPort l.n) (mkFrame 0x06 0 l.flow l.tag 0 statusOk 0 .empty) else s2

/-- Perform one staged access: up to 16 lines, then, when its last word is written, the context's request is done.
(DESIGN CHOICE, log entry 80.) -/
def State.moveStaged (s : State) (c : Nat) (g : Staged) (i : Nat) : State :=
  let now := g.words.take accessWords
  let rest := g.words.drop accessWords
  let s0 := s.takeBanks c (g.nextWords (s.cluster c))
  let s1 := match g.dest with
    | .addr a => s0.writeWords c a now
    | .circ r => s0.circWrite c r now
  let nextDest := match g.dest with
    | .addr a => Dest.addr (a + accessWords)
    | .circ r => Dest.circ r
  let left (l : List Staged) : List Staged :=
    if rest.isEmpty then l.eraseIdx i else listMod l i (fun h => { h with dest := nextDest, words := rest })
  let s2 := s1.modCluster c (fun x => { x with staged := left x.staged })
  match g.src, g.land with
  | .ctx k, _ => if rest.isEmpty then s2.modCtx c k (fun y => y.reqDone g.idx) else s2
  | .landing, some l =>
    let s3 := s2.afterLanding c l now.length rest.isEmpty
    if l.host then s3
    else (s3.count (counterKey 0x5011 5 0) (now.countP PWord.poison)).drainHeld (s3.outPort l.n)
  | .landing, none => s2

/-- One unscheduled access of cluster c, to a circular region or to plain words (R113, R119) (DESIGN CHOICE, log entry 80). -/
def stagedEffect (c : Nat) (circ : Bool) (s : State) : State :=
  if s.zeroBusy c then s
  else
    let s1 := s.settle c
    match pickStaged (s1.cluster c) s1.clock.fab (s1.heldCluster c) circ with
    | none => s1
    | some gi => s1.moveStaged c gi.1 gi.2

/-- UNSCHEDULED_ACCESS: a waiting access to plain words takes its banks (R113). -/
def execUnscheduledAccess (c : Nat) (s : State) : Answer := onCluster c (stagedEffect c false s)

/-- CIRC_WAIT_PASS: a waiting producer of a circular region passes its full test and moves its lines (R118, R119). -/
def execCircWaitPass (c : Nat) (s : State) : Answer := onCluster c (stagedEffect c true s)

end Sys2Proof.Machine
end

