-- ==== Sys2Proof/Machine/Stream.lean ====
section
/-! DEFINITION. The stream engines (R216 to R231): a descriptor's fields and checks, triggers, requests, responses and
completion. -/

namespace Sys2Proof.Machine

open Sys2Proof

/-- A stream descriptor: its sixteen words (Table 7.11). -/
structure SDesc where
  index : Nat
  ws : List Nat
  deriving DecidableEq, Repr

def SDesc.word (d : SDesc) (i : Nat) : Nat := d.ws.getD i 0
def SDesc.op (d : SDesc) : Nat := bitsN (d.word 0) 3 0
def SDesc.trig (d : SDesc) : Nat := bitsN (d.word 0) 7 4
def SDesc.doneArrive (d : SDesc) : Bool := bitN (d.word 0) 8
def SDesc.doneObj (d : SDesc) : Nat := bitsN (d.word 0) 10 9
def SDesc.fence (d : SDesc) : Bool := bitN (d.word 0) 11
def SDesc.prio (d : SDesc) : Nat := bitsN (d.word 0) 15 13
def SDesc.next (d : SDesc) : Nat := bitsN (d.word 0) 21 16
def SDesc.port (d : SDesc) : Nat := bitsN (d.word 1) 7 0
def SDesc.edge (d : SDesc) : Nat := bitsN (d.word 1) 10 9
def SDesc.link (d : SDesc) : Nat := bitsN (d.word 1) 16 11
def SDesc.storeAddr (d : SDesc) : Nat := d.word 2 + 2 ^ 32 * bitsN (d.word 3) 15 0
def SDesc.flow (d : SDesc) : Nat := bitsN (d.word 2) 15 0
def SDesc.memAddr (d : SDesc) : Nat := bitsN (d.word 4) 23 0
def SDesc.length (d : SDesc) : Nat := d.word 5
def SDesc.storeStride (d : SDesc) : Nat := d.word 6
def SDesc.memStride (d : SDesc) : Nat := bitsN (d.word 7) 23 0
def SDesc.rows (d : SDesc) : Nat := bitsN (d.word 8) 15 0
def SDesc.pace (d : SDesc) : Nat := bitsN (d.word 9) 15 0
def SDesc.period (d : SDesc) : Nat := d.word 10
def SDesc.isSend (d : SDesc) : Bool := d.op == 3
/-- A SEND always goes to a peer through PORT. -/
def SDesc.remote (d : SDesc) : Bool := bitN (d.word 1) 8 || d.isSend
def SDesc.alias (d : SDesc) : Bool := isAlias d.memAddr
def SDesc.region (d : SDesc) : Nat := (d.memAddr - 0xFD0000) / 0x1000

/-- Descriptor i of a context, or none when its memory is uncorrectable (R132, R216). -/
def State.streamDesc (s : State) (c k i : Nat) : Option SDesc :=
  let ws := (List.range 16).map (fun w => s.streamWord c k i w)
  if ws.any Option.isNone then none else some ⟨i, ws.map (fun w => w.getD 0)⟩

/-! Requests of a descriptor (R222). -/

/-- Store address of row r. -/
def SDesc.rowAddr (d : SDesc) (r : Nat) : Nat := d.storeAddr + r * d.storeStride

/-- Offset within a 512 B unit at which row r starts; a SEND counts from its own start. -/
def SDesc.lead (d : SDesc) (r : Nat) : Nat := if d.isSend then 0 else d.rowAddr r % 512

/-- Requests of row r: one per 512 B unit it touches. -/
def SDesc.rowRequests (d : SDesc) (r : Nat) : Nat := (d.lead r + d.length + 511) / 512

/-- Requests of the first `rows` rows. -/
def SDesc.requestsIn (d : SDesc) (rows : Nat) : Nat := (List.range rows).foldl (fun acc r => acc + d.rowRequests r) 0

def SDesc.requests (d : SDesc) : Nat := d.requestsIn d.rows

/-- Row, offset in the row and length of request i, from row r on. -/
def SDesc.findReq (d : SDesc) (fuel r i : Nat) : Nat × Nat × Nat :=
  match fuel with
  | 0 => (r, 0, 0)
  | m + 1 =>
    let n := d.rowRequests r
    if i < n then
      let o := if i = 0 then 0 else 512 * i - d.lead r
      let stop := min d.length (512 * (i + 1) - d.lead r)
      (r, o, stop - o)
    else d.findReq m (r + 1) (i - n)

def SDesc.request (d : SDesc) (i : Nat) : Nat × Nat × Nat := d.findReq (d.rows + 1) 0 i

/-- Where the bytes at an offset of a row lie in cluster memory. -/
def SDesc.dest (d : SDesc) (row off : Nat) : Dest :=
  if d.alias then .circ d.region else .addr (d.memAddr + row * d.memStride + off / 4)

/-! Checks (R219, R231). -/

/-- STREAM_ALIGN; word 2 of a SEND is no address. -/
def SDesc.misaligned (d : SDesc) : Bool :=
  let m := if d.op = 2 then 512 else 64
  (!d.isSend && d.storeAddr % m != 0) || d.storeStride % m != 0 || d.length % m != 0
    || (!d.alias && (d.memAddr % 4 != 0 || d.memStride % 4 != 0))

/-- STREAM_RANGE. A length or row count of 0 lies outside Table 7.11 and is taken here (DEDUCED, log entry 41). -/
def SDesc.outOfRange (d : SDesc) : Bool :=
  d.length == 0 || d.rows == 0 ||
  (List.range d.rows).any (fun r =>
    (!d.isSend && !saRun (d.rowAddr r) d.length)
      || (!d.alias && decide (0xA00000 < d.memAddr + r * d.memStride + d.length / 4)))

/-- Is VIEW set on a page that is not DBUF_A (R198, R219)? Local stores only; a peer's page kinds are the peer's. -/
def State.badView (s : State) (d : SDesc) : Bool :=
  !d.remote && saView d.storeAddr && (List.range d.rows).any (fun r =>
    (List.range ((d.rowAddr r % 2 ^ 21 + d.length + 2 ^ 21 - 1) / 2 ^ 21)).any (fun j =>
      let a := d.rowAddr r + j * 2 ^ 21
      (s.page (saStack a) (saPage a)).kind != 1))

/-- DESC_BAD. HEAD or NEXT naming no descriptor and a TIMER period of 0 lie outside their ranges and are taken here (log
entry 41). -/
def State.descBad (s : State) (c : Nat) (d : SDesc) : Bool :=
  let p := partNo (s.ownerOf c)
  decide (3 < d.op) || decide (5 < d.trig) || (d.trig == 2 && d.period == 0) || decide (62 < d.index)
    || (!d.remote && !s.owns p (edgeCluster d.edge d.link))
    || (d.remote && !s.owns p (attachCluster d.port))
    || s.badView d
    || (d.alias && (decide (d.memAddr % 0x1000 ≠ 0) || !((s.cluster c).region d.region).en))

/-- PORT_DOWN: the port that carries the descriptor's frames has no session with RUN_MATCH (R219, R306, R316); one that retrains or
resumes keeps it (R308). -/
def State.portDown (s : State) (d : SDesc) : Bool :=
  let x := s.port (s.outPort d.port)
  d.remote && !((x.state == 3 || x.state == 4 || x.state == 5) && x.runMatch)

/-- The halt cause of a descriptor that becomes current, if any: an invalid OP or TRIG first, then the lowest code (DEDUCED, log entry
42). -/
def State.haltCause (s : State) (c : Nat) (d : SDesc) : Option Nat :=
  if decide (3 < d.op) || decide (5 < d.trig) then some 4
  else if d.misaligned then some 1
  else if d.outOfRange then some 2
  else if s.descBad c d then some 4
  else if s.portDown d then some 6
  else none

/-! Triggers (R220). -/

/-- N of a COMMIT trigger: the latest STEP_MARK, or the step of START. -/
def State.triggerStep (s : State) (c : Nat) : Nat :=
  let n := (s.cluster c).seq.stepN
  if n = 0 then (s.part (partNo (s.ownerOf c))).startStep else n

/-- Does the store a descriptor names report a committed step of at least N - 1? -/
def State.commitFires (s : State) (c : Nat) (d : SDesc) : Bool :=
  let n := s.triggerStep c
  if d.remote then
    let x := s.port (s.outPort d.port)
    x.peerCommitValid && decide (n ≤ x.peerCommitted.toNat + 1)
  else decide (n ≤ (s.uep (saStack d.storeAddr) (partNo (s.ownerOf c))).committed.toNat + 1)

def State.triggered (s : State) (c k : Nat) (d : SDesc) : Bool :=
  if d.trig = 5 then s.commitFires c d else (s.ctx c k).fires d.trig

/-- Consume the count a trigger took. -/
def Ctx.consume (x : Ctx) (trig : Nat) : Ctx :=
  match trig with
  | 1 => { x with pendStart := x.pendStart - 1 }
  | 2 => { x with timerDone := false }
  | 3 => { x with pendChain := x.pendChain - 1 }
  | 4 => { x with pendSync := x.pendSync - 1 }
  | _ => x

/-- A descriptor becomes current in WAIT_TRIG and is checked before anything else (R219). -/
def State.checkCurrent (s : State) (c k : Nat) : State :=
  let x := s.ctx c k
  if x.state ≠ 1 then s
  else
    match s.streamDesc c k x.cur with
    | none => s.haltCtx c k 8
    | some d =>
      match s.haltCause c d with
      | some h => s.haltCtx c k h
      | none => s

/-- A descriptor whose trigger is satisfied becomes ACTIVE; a port lost meanwhile halts its context (R217, R219, R220). `op` is the
operation the command names; a descriptor with an undefined OP halts under any of them. -/
def streamActivate (op c k : Nat) (s : State) : State :=
  let x := s.ctx c k
  if x.state ≠ 1 || !s.live c || s.heldCluster c then s
  else
    match s.streamDesc c k x.cur with
    | none => s.haltCtx c k 8
    | some d =>
      match s.haltCause c d with
      | some h => s.haltCtx c k h
      | none =>
        if d.op ≠ op || !s.triggered c k d then s
        else
          s.modCtx c k (fun y =>
            { (y.consume d.trig) with
              state := 2
              prio := d.prio
              nextOrd := y.nextOrd + 1
              descs := y.descs ++ [{ ord := y.nextOrd, desc := d.index, op := d.op, remote := d.remote,
                                     total := d.requests, issued := 0, done := 0 }] })

/-- Guard of a command that names a local context. -/
def onContext (c k : Nat) (t : State) : Answer :=
  if k < 4 then onCluster c t else .fault (.noSuchElement "stream context" k)

def execStreamLoad (c k : Nat) (s : State) : Answer := onContext c k (streamActivate 0 c k s)
def execStreamStore (c k : Nat) (s : State) : Answer := onContext c k (streamActivate 1 c k s)
/-- A REDUCE descriptor's alignment is 512 B (R231). -/
def execStreamReduce (c k : Nat) (s : State) : Answer := onContext c k (streamActivate 2 c k s)
def execStreamSend (c k : Nat) (s : State) : Answer := onContext c k (streamActivate 3 c k s)

/-- STREAM_TIMER_EXPIRY: TIMER_PERIOD cycles of PART_CYCLE after WAIT_TRIG was entered (R220) (DEDUCED, log entry 89). -/
def timerExpiryEffect (c k : Nat) (s : State) : State :=
  let x := s.ctx c k
  if x.state ≠ 1 || x.timerDone || !s.live c then s
  else
    match s.streamDesc c k x.cur with
    | none => s.haltCtx c k 8
    | some d =>
      if d.trig = 2 ∧ d.period ≠ 0 then
        (s.atPart (partNo (s.ownerOf c)) (x.trigFrom + d.period)).modCtx c k (fun y => { y with timerDone := true })
      else s

def execStreamTimerExpiry (c k : Nat) (s : State) : Answer := onContext c k (timerExpiryEffect c k s)

/-! Issue (R222, R225, R226). -/

/-- Poisoned 64 B blocks among words. -/
def poisonBlocksIn (ws : List PWord) : Nat := (pieces 16 ws).countP (fun b => b.any PWord.poison)

/-- Count poisoned blocks a context delivers or writes (R216, R226). -/
def State.countPoison (s : State) (c k n : Nat) : State :=
  if n = 0 then s
  else
    (s.modCtx c k (fun x => { x with poison := min 0xFFFF (x.poison + n) })).count
      (counterKey (0x5200 + partNo (s.ownerOf c)) 2 0) n

/-- Does a waiting access of a context with a lower number want one of these banks in this cycle (R113)? -/
def State.yields (s : State) (c k : Nat) (ws : List Nat) : Bool :=
  let x := s.cluster c
  x.staged.any (fun g => match g.src with
    | .ctx j => decide (j < k) && (g.ready x s.clock.fab false false || g.ready x s.clock.fab false true)
        && (g.nextWords x).any (fun w => ws.any (fun v => bankOf v == bankOf w))
    | .landing => false)

/-- Read the source words of a request of context k, or none while a circular region lacks them, the cluster zeroes its memory, or an
access that goes first has one of their banks (R113, R119, R123). -/
def State.sourceWords (s : State) (c k : Nat) (d : Dest) (n : Nat) : Option (List PWord × State) :=
  let x := s.cluster c
  let ws := match d with
    | .addr a => (List.range n).map (fun i => a + i)
    | .circ r => (allWords (linesOf n)).map (fun i => (x.region r).wordAt ((x.region r).tail.toNat + i))
  if x.banksBusy s.clock.fab ws || s.yields c k ws || s.zeroBusy c then none
  else
    match d with
    | .addr _ => some ((s.takeBanks c ws).readWords c ws)
    | .circ r =>
      if (x.region r).en && (x.region r).hasLines s.clock.fab (linesOf n) then
        some ((s.takeBanks c ws).circRead c r (linesOf n) (allWords (linesOf n)))
      else none

/-- Send a context's request into the mesh as elastic flits, which leave its cluster under its number (R166, R170). -/
def State.departFlits (s : State) (c k p : Nat) (ws : List PWord) (cargo : Bool → Cargo) : State :=
  s.modFabric (fun g => { g with departs := mapMod flitsD g.departs (4 * c + k) (· ++ mkFlits p c 0 s.clock.fab ws cargo) })

/-- Put request i of descriptor d under way, its source words read: to its edge link, or to the attach cluster of its port, where a
context of that cluster has the frame queued at once (R154, R218, R222). -/
def State.launch (s : State) (c k : Nat) (d : SDesc) (ord i : Nat) (ws : List PWord) : State :=
  let p := partNo (s.ownerOf c)
  let x := s.ctx c k
  let ro := d.request i
  let a := d.rowAddr ro.1 + ro.2.1
  let q : CtxReq := { idx := x.nextIdx, ord := ord, op := d.op, storeAddr := a, dest := d.dest ro.1 ro.2.1, len := ro.2.2,
                      answered := false, staged := false, denied := 0, data := ws, got := [] }
  let s1 := s.modCtx c k (fun y => { y with nextIdx := y.nextIdx + 1, reqs := y.reqs ++ [q] })
  if d.remote then
    let o := s1.outPort d.port
    let t := (s1.port o).nextTag
    let ty := match d.op with | 0 => 0x01 | 1 => 0x03 | 2 => 0x04 | _ => 0x05
    let f := mkFrame ty ro.2.2 (if d.isSend then d.flow else 0) t x.prio 0 (if d.isSend then 0 else a)
      (if d.op = 0 then .empty else .words ws)
    let s2 := s1.modPort o (fun y => { y with
      nextTag := (y.nextTag + 1) % 1024, reqs := y.reqs ++ [⟨t, 4 * c + k, q.idx⟩] })
    if attachCluster o = c then s2.queueFrame o f
    else s2.departFlits c k p ws (fun last => .toPort d.port (4 * c + k) q.idx (if last then some f else none))
  else s1.departFlits c k p ws (fun last => .toStore (4 * c + k) q.idx last)

/-- Bytes of the reorder buffer of a context (R223). -/
def reorderBytes : Nat := 16384

/-- Bytes of it that are reserved: of every LOAD request whose data has not gone on to its destination (R223, R295) (DEDUCED, log
entry 89) (DEDUCED, log entry 89). -/
def Ctx.reserved (x : Ctx) : Nat := (x.reqs.filter (fun r => r.op == 0 && !r.staged)).foldl (fun a r => a + r.len) 0

/-- Requests issued without response (CTX_STATUS.OUTSTANDING). -/
def Ctx.outstanding (x : Ctx) : Nat := x.reqs.countP (fun r => !r.answered)

/-- After the last request the context waits for its next descriptor's trigger (R217, R222). -/
def Ctx.issued (x : Ctx) (d : SDesc) (now : Nat) : Ctx :=
  let ds := x.descs.map (fun e => if e.desc = d.index ∧ e.issued < e.total then { e with issued := e.issued + 1 } else e)
  let y := { x with descs := ds, lastIssue := some now }
  if ds.any (fun e => decide (e.issued < e.total)) then y
  else { y with state := 1, cur := if d.next = 63 then y.head else d.next, trigFrom := now, timerDone := false }

/-- STREAM_REQUEST_ISSUE: the ACTIVE descriptor's next request, at least PACE cycles after the last and at most one per
cycle, with at most 32 outstanding and, for a LOAD, room in the reorder buffer; FENCE waits for every earlier descriptor, and a remote
request for room in its port's send queue. After the last the next descriptor becomes current (R219, R222, R227, R295, R326).
(DEDUCED, log entry 89.) -/
def requestIssueEffect (c k : Nat) (s : State) : State :=
  let x := s.ctx c k
  if x.state ≠ 2 || !s.live c then s
  else
    match x.descs.getLast? with
    | none => s
    | some e =>
      match s.streamDesc c k e.desc with
      | none => s.haltCtx c k 8
      | some d =>
        let ro := d.request e.issued
        if (d.fence && decide (1 < x.descs.length)) || decide (32 ≤ x.outstanding)
            || (d.op == 0 && decide (reorderBytes < x.reserved + ro.2.2))
            || (d.remote && !(s.port (s.outPort d.port)).queueRoom) then s
        else
          let p := partNo (s.ownerOf c)
          let s1 := (match x.lastIssue with
            | none => s
            | some t => s.atPart p (t + max 1 d.pace)).settle c
          let now := (s1.part p).partCycle
          if d.op = 0 then
            ((s1.launch c k d e.ord e.issued []).modCtx c k (fun y => y.issued d now)).checkCurrent c k
          else
            match s1.sourceWords c k (d.dest ro.1 ro.2.1) (ro.2.2 / 4) with
            | none => s
            | some r =>
              (((r.2.countPoison c k (poisonBlocksIn r.1)).launch c k d e.ord e.issued r.1).modCtx c k
                (fun y => y.issued d now)).checkCurrent c k

def execStreamRequestIssue (c k : Nat) (s : State) : Answer := onContext c k (requestIssueEffect c k s)

/-! Responses and completion (R223, R224). -/

/-- The response that acts next: a refusal; a write's response; or the read data next in order (R223). -/
def Ctx.nextAnswer (x : Ctx) : Option CtxReq :=
  (x.reqs.find? (fun r => r.answered && r.denied != 0)).orElse (fun _ =>
    (x.reqs.find? (fun r => r.answered && r.op != 0)).orElse (fun _ =>
      (x.reqs.find? (fun r => r.op == 0 && !r.staged)).filter CtxReq.answered))

/-- STREAM_RESPONSE: a response reaches its context: a refusal halts it, a hold or not; a write is done; read data goes on to
cluster memory in order (R219, R223, R226). A context of a held partition writes nothing (R227). -/
def streamResponseEffect (c k : Nat) (s : State) : State :=
  let x := s.ctx c k
  if x.state == 4 then s
  else
    match x.nextAnswer with
    | none => s
    | some r =>
      if r.denied ≠ 0 then
        (s.modCtx c k (fun y => { y with reqs := y.reqs.filter (fun q => q.idx != r.idx) })).haltCtx c k r.denied
      else if s.heldCluster c then s
      else if r.op = 0 then
        let s1 := (s.countPoison c k (poisonBlocksIn r.data)).modCtx c k (fun y => { y with
          reqs := y.reqs.map (fun q => if q.idx = r.idx then { q with staged := true } else q) })
        s1.stageWrite c { src := .ctx k, dest := r.dest, words := r.data, idx := r.idx, land := none }
      else s.modCtx c k (fun y => y.reqDone r.idx)

def execStreamResponse (c k : Nat) (s : State) : Answer := onContext c k (streamResponseEffect c k s)

/-- What a completion credits a wait it ends to (Table 9.5). -/
def CtxDesc.credit (e : CtxDesc) : WaitCause :=
  if e.remote then .peer else if e.op = 2 then .reduction else .weights

/-- STREAM_DESCRIPTOR_COMPLETE: the oldest descriptor has all its responses; CTX_BYTES, the DONE_ARRIVE arrival, every context chained
to this one and a waiting SWAIT, in one cycle; not in a hold (R92, R97, R221, R224). -/
def descriptorCompleteEffect (c k : Nat) (s : State) : State :=
  match (s.ctx c k).descs with
  | [] => s
  | e :: rest =>
    if e.issued < e.total || e.done < e.total || s.heldCluster c then s
    else
      match s.streamDesc c k e.desc with
      | none => s.haltCtx c k 8
      | some d =>
        let s1 := s.modCtx c k (fun y => { y with
          descs := rest, bytes := y.bytes + BitVec.ofNat 64 (d.length * d.rows) })
        let s2 := if d.doneArrive then s1.arrive (4 * c + d.doneObj) false e.credit else s1
        let s3 := (List.range 4).foldl (fun t j =>
          if (t.ctx c j).chainSrc == k then t.addPend c j .chain else t) s2
        s3.retest c none (some k) e.credit

def execStreamDescriptorComplete (c k : Nat) (s : State) : Answer := onContext c k (descriptorCompleteEffect c k s)

/-- STREAM_DRAIN_COMPLETE: every issued request of a STOPPING context is answered; read data is discarded and the context is
OFF (R217). -/
def drainCompleteEffect (c k : Nat) (s : State) : State :=
  let x := s.ctx c k
  if x.state = 4 ∧ x.reqs.all CtxReq.answered then
    s.modCtx c k (fun y => { y with state := 0, descs := [], reqs := [] })
  else s

def execStreamDrainComplete (c k : Nat) (s : State) : Answer := onContext c k (drainCompleteEffect c k s)

end Sys2Proof.Machine
end

