-- ==== Sys2Proof/Machine/Optimiser.lean ====
section
/-! DEFINITION. The arithmetic of the update engines (R233, R242 to R254) and the layout of export segments (R264 to R266):
FP32 operations with one rounding each, planes, the learning-rate schedule, the gate, the update equations of one shard,
and the bytes of a segment. -/

namespace Sys2Proof.Machine

open Sys2Proof

/-! FP32 operations carrying the flags raised so far. -/

/-- A word and the flags raised in forming it. -/
abbrev FW := Word × FlagBits

def fpNaN : Word := 0x7FC00000#32
def fpMax : Word := 0x7F7FFFFF#32
def fpOne : Word := 0x3F800000#32

def fw (w : Word) : FW := (w, 0)

/-- Round an exact result once; a NaN operand gives the canonical NaN and NV (R49). -/
def fop (a b : FW) (f : Num → Num → Num × FlagBits) : FW :=
  let x := decF32 a.1
  let y := decF32 b.1
  let fl := a.2 ||| b.2
  if x.isNan || y.isNan then (fpNaN, fl ||| flNV)
  else
    let r := f x y
    if r.1.isNan then (fpNaN, fl ||| r.2)
    else
      let q := roundF32 r.1
      (q.1, fl ||| r.2 ||| q.2)

def fadd (a b : FW) : FW := fop a b (fun x y => (sumExact [x, y], 0))
def fsub (a b : FW) : FW := fop a b (fun x y => (sumExact [x, y.negate], 0))
def fmul (a b : FW) : FW := fop a b (fun x y => (x.mul y, 0))
def fdiv (a b : FW) : FW := fop a b (fun x y => let r := divOp x y; (r.1, r.2.1))

/-- Correctly rounded square root with its singular operands (Table 2.7). -/
def fsqrt (a : FW) : FW :=
  let x := decF32 a.1
  if x.isNan then (fpNaN, a.2 ||| flNV)
  else if x.isZero then (a.1, a.2)
  else if x.neg then (fpNaN, a.2 ||| flNV)
  else
    let q := roundF32 x.sqrtOf
    (q.1, a.2 ||| q.2)

/-- U64 to FP32 with RNE (R245). -/
def fnat (n : Nat) : FW := roundF32 (if n = 0 then Num.zero false else .val false n 0)

/-- Is a > b, both not NaN? -/
def fgt (a b : Word) : Bool :=
  let x := decF32 a
  let y := decF32 b
  !x.isNan && !y.isNan && (x.cmp y == 1)

/-- Is a word greater than +0? -/
def fpos (a : Word) : Bool := fgt a 0

/-- A first contribution (R233): NaN becomes the canonical NaN with NV, a subnormal a zero of its sign, without a flag. -/
def firstWord (w : Word) : FW :=
  let x := decF32 w
  if x.isNan then (fpNaN, flNV)
  else if x.isZero then (if x.neg then 0x80000000#32 else 0, 0)
  else (w, 0)

/-! Planes (R242). -/

/-- Page and byte offset of byte b of a plane; `step` is 2 for a DBUF plane, of which `copy` names the copy. -/
def planeAt (pl : Plane) (step copy b : Nat) : Nat × Nat :=
  let x := pl.off * 512 + b
  (pl.page + copy + step * (x / 2 ^ 21), x % 2 ^ 21)

/-- Read the first n bytes of a plane as words, with everything their reads leave behind; a 64 B block to skip is not read and
gives zeros. -/
def State.readPlane (s : State) (stack : Nat) (pl : Plane) (step copy n : Nat) (skip : Nat → Bool) : List PWord × State :=
  let r := (List.range ((n + 63) / 64)).foldl (fun (acc : List (List PWord) × State) i =>
    if skip i then (List.replicate 16 ⟨0, false⟩ :: acc.1, acc.2) else
    let po := planeAt pl step copy (64 * i)
    let phys := acc.2.physPage stack po.1
    let blk := po.2 / 64
    let first := acc.2.noteBlocks stack po.1 phys blk 1 false
    let t := if first.1 then (first.2.noteBlocks stack po.1 phys blk 1 true).2 else first.2
    (deliverBlock (acc.2.storeBlock stack phys blk) :: acc.1, t)) ([], s)
  (r.1.reverse.flatten, r.2)

/-- Read all of a plane. -/
def State.readAll (s : State) (stack : Nat) (pl : Plane) (step copy n : Nat) : List PWord × State :=
  s.readPlane stack pl step copy n (fun _ => false)

/-- Write words to a plane from its start, but for the 64 B blocks to skip. -/
def State.writePlane (s : State) (stack : Nat) (pl : Plane) (copy : Nat) (skip : Nat → Bool) (ws : List PWord) : State :=
  ((pieces 16 ws).zipIdx).foldl (fun t wi =>
    if skip wi.2 then t else
    let po := planeAt pl 2 copy (64 * wi.2)
    t.putBlock stack (t.physPage stack po.1) (po.2 / 64) (wi.1 ++ List.replicate (16 - wi.1.length) ⟨0, false⟩)) s

/-- Bytes as words, padded with zero bytes. -/
def wordsOfBytes (bs : List Byte) : List PWord :=
  (pieces 4 bs).map (fun b => ⟨BitVec.ofNat 32 (leNat b), false⟩)

/-- Is element i of a shard marked (R244)? -/
def shardMarked (marks : List Nat) (h : Shard) (i : Nat) : Bool := h.markEn && marks.contains (h.mark + i / 128)

/-- Is byte b of a plane of n elements of `bits` bits with one scale byte for `size` elements one of a marked group? -/
def markedByte (marks : List Nat) (h : Shard) (bits size b : Nat) : Bool :=
  let elemBytes := h.nEl * bits / 8
  if b < elemBytes then shardMarked marks h (b * 8 / bits) else shardMarked marks h ((b - elemBytes) * size)

/-- Is every byte of a 64 B block selected? -/
def wholeBlock (sel : Nat → Bool) (i : Nat) : Bool := (List.range 64).all (fun j => sel (64 * i + j))

/-- A word taken from `src` in the bytes selected, with its poison when all four are. -/
def mixWord (sel : Nat → Bool) (i : Nat) (src dst : PWord) : PWord :=
  let on := (List.range 4).filter (fun j => sel (4 * i + j))
  if on.length = 4 then src
  else if on.isEmpty then dst
  else
    let v := (List.range 4).foldl (fun acc j => acc + 2 ^ (8 * j) * (byteOf (if on.contains j then src.w else dst.w) j).toNat) 0
    ⟨BitVec.ofNat 32 v, src.poison || dst.poison⟩

/-- The selected bytes of a plane as they were, the others new. -/
def keepBytes (sel : Nat → Bool) (old new : List PWord) : List PWord :=
  new.zipIdx.map (fun wi => mixWord sel wi.2 (old.getD wi.2 wi.1) wi.1)

/-! The schedule (R245). -/

/-- lr(N). -/
def Uep.lrAt (x : Uep) (n : Nat) : FW :=
  let q := x.param
  if n < q.warmup then fmul (fw q.lrPeak) (fdiv (fnat (n + 1)) (fnat q.warmup))
  else if q.decay ≤ n - q.warmup then fw q.lrMin
  else
    let v := (n - q.warmup) * 256
    let k := v / q.decay
    let t (i : Nat) : FW := fw (q.lrTable.getD i 0)
    let fr := fdiv (fnat (v % q.decay)) (fnat q.decay)
    let f := fadd (t k) (fmul fr (fsub (t (k + 1)) (t k)))
    fadd (fw q.lrMin) (fmul (fsub (fw q.lrPeak) (fw q.lrMin)) f)

/-! The norm (R246) and the gate (R249). -/

/-- Add the squares of one shard's unmarked elements to the 64 lane sums. -/
def normShard (marks : List Nat) (h : Shard) (g : List PWord) (lanes : List FW) : List FW :=
  ((g.take h.nEl).zipIdx).foldl (fun ls wi =>
    if shardMarked marks h wi.2 then ls
    else
      let q := fmul (fw wi.1.w) (fw h.gscale)
      listMod ls (wi.2 % 64) (fun l => fadd l (fmul q q))) lanes

/-- Sum of words in list order, starting from +0. -/
def sumFrom0 (ws : List FW) : FW := ws.foldl (fun a b => fadd a b) (fw 0)

/-- The decision of R249 for a total T: skipped or not, the clip factor, and the flags raised. -/
def gateOf (q : Param) (t : Word) (lr : Word) : Gate × FlagBits :=
  if t = fpNaN ∨ t = fpMax then (⟨t, true, 0, lr⟩, 0)
  else
    let norm := fsqrt (fw t)
    if fpos q.skipNorm && fgt norm.1 q.skipNorm then (⟨t, true, 0, lr⟩, norm.2)
    else if fpos q.clipNorm && fgt norm.1 q.clipNorm then
      let c := fdiv (fw q.clipNorm) norm
      (⟨t, false, c.1, lr⟩, c.2)
    else (⟨t, false, fpOne, lr⟩, norm.2)

/-! The update equations (R250 to R252). -/

/-- pow_fp32, with fuel for the bits of t; the squaring of the last turn raises its flags too. -/
def powF32 (fuel : Nat) (r b : FW) (t : Nat) : FW :=
  match fuel with
  | 0 => (r.1, r.2 ||| b.2)
  | k + 1 => if t = 0 then (r.1, r.2 ||| b.2) else powF32 k (if t % 2 = 1 then fmul r b else r) (fmul b b) (t / 2)

/-- Constants of a shard in one step. -/
structure StepConst where
  eta : FW
  bc1 : FW
  bc2 : FW
  omb1 : FW
  omb2 : FW
  clip : FW
  deriving DecidableEq, Repr

/-- Flags raised in forming them. -/
def StepConst.flags (k : StepConst) : FlagBits := k.eta.2 ||| k.bc1.2 ||| k.bc2.2 ||| k.omb1.2 ||| k.omb2.2

def stepConst (h : Shard) (g : Gate) (applied : Nat) : StepConst :=
  let t := applied + 1
  { eta := fmul (fw g.lr) (fw h.lrMult)
    bc1 := fsub (fw fpOne) (powF32 64 (fw fpOne) (fw h.b1) t)
    bc2 := fsub (fw fpOne) (powF32 64 (fw fpOne) (fw h.b2) t)
    omb1 := fsub (fw fpOne) (fw h.b1)
    omb2 := fsub (fw fpOne) (fw h.b2)
    clip := fw g.clip }

/-- FP32 of a stored BS8 value, exact when it lies in range. -/
def bs8Word (code scale : Nat) : FW :=
  let x := blkBS8.decode code scale
  if x.isNan then (fpNaN, flNV) else roundF32 x

/-- What the update forms for one element: new weight, moment, second moment. -/
structure UpdElt where
  w : FW
  m : FW
  v : FW
  deriving DecidableEq, Repr

/-- One unmarked element (R250). `mOld`, `sOld` are the stored moments, `vF` the factored second moment. -/
def updateElt (h : Shard) (k : StepConst) (g wOld : Word) (mOld sOld vF : FW) : UpdElt :=
  let q := fmul (fw g) (fw h.gscale)
  let gg := fmul q k.clip
  let fin (u : FW) : FW := fsub (fw wOld) (fmul k.eta (fadd u (fmul (fw h.lambda) (fw wOld))))
  if h.rule = 0 then
    let m := fadd (fmul (fw h.b1) mOld) gg
    ⟨fin m, m, fw 0⟩
  else
    let m := if h.firstMom then fadd (fmul (fw h.b1) mOld) (fmul k.omb1 gg) else gg
    let mh := if h.firstMom then fdiv m k.bc1 else m
    let v := if h.rule = 1 then fadd (fmul (fw h.b2) (fmul sOld sOld)) (fmul k.omb2 (fmul gg gg)) else vF
    let vh := fdiv v k.bc2
    let u := fdiv mh (fadd (fsqrt vh) (fw h.eps))
    ⟨fin u, m, v⟩

/-- Factors of ADAPT_FACT (R251): rv, cv and mr from the old factors. Marked elements are left out of the sums (R244). -/
def factors (marks : List Nat) (h : Shard) (k : StepConst) (g : List PWord) (old : List PWord) :
    List FW × List FW × FW :=
  let nr := h.nEl / h.nc
  let at_ (i : Nat) : Word := (g.getD i ⟨0, false⟩).w
  let sq (i : Nat) : Option FW :=
    if shardMarked marks h i then none
    else
      let gg := fmul (fmul (fw (at_ i)) (fw h.gscale)) k.clip
      some (fmul gg gg)
  let rs (r : Nat) : FW := sumFrom0 ((List.range h.nc).filterMap (fun c => sq (r * h.nc + c)))
  let cs (c : Nat) : FW := sumFrom0 ((List.range nr).filterMap (fun r => sq (r * h.nc + c)))
  let oldAt (i : Nat) : FW := fw (old.getD i ⟨0, false⟩).w
  let rv := (List.range nr).map (fun r => fadd (fmul (fw h.b2) (oldAt r)) (fmul k.omb2 (fdiv (rs r) (fnat h.nc))))
  let cv := (List.range h.nc).map (fun c => fadd (fmul (fw h.b2) (oldAt (nr + c))) (fmul k.omb2 (fdiv (cs c) (fnat nr))))
  (rv, cv, fdiv (sumFrom0 rv) (fnat nr))

/-- The factored second moment of element i. -/
def factorV (h : Shard) (f : List FW × List FW × FW) (i : Nat) : FW :=
  if f.2.2.1 = 0 then fw 0
  else fdiv (fmul (f.1.getD (i / h.nc) (fw 0)) (f.2.1.getD (i % h.nc) (fw 0))) f.2.2

/-- Bytes of a plane of words. -/
def planeBytes (ws : List PWord) : List Byte := bytesOfWords ws

/-- Byte b of words. -/
def byteIn (ws : List PWord) (b : Nat) : Nat := ((ws.getD (b / 4) ⟨0, false⟩).w.toNat / 2 ^ (8 * (b % 4))) % 256

/-- Stored value i of a BS8 plane of n elements (R242). -/
def bs8At (ws : List PWord) (n i : Nat) : FW := bs8Word (byteIn ws i) (byteIn ws (n + i / 128))

/-- Quantise values in blocks, keeping a marked block's bytes from `keep`; answers codes, scales, flags and generator. -/
def quantPlane (b : BlockFmt) (mean sr : Bool) (size : Nat) (skip : Nat → Bool) (keep : Nat → List Nat × Nat)
    (blocks : List (List Num)) (i : Nat) (g : Word) : List Nat × List Nat × FlagBits × Word :=
  match blocks with
  | [] => ([], [], 0, g)
  | xs :: r =>
    let one := if skip (i * size / 128) then ((keep i).2, (keep i).1, (0 : FlagBits), g) else quantBlock b mean sr g xs
    let rest := quantPlane b mean sr size skip keep r (i + 1) one.2.2.2
    (one.2.1 ++ rest.1, one.1 :: rest.2.1, one.2.2.1 ||| rest.2.2.1, rest.2.2.2)

/-- Pack codes of w bits in bytes, lowest first (R41). -/
def packBytes (w : Nat) (cs : List Nat) : List Byte :=
  (pieces (8 / w) cs).map (fun p => BitVec.ofNat 8 (p.foldr (fun c acc => c % 2 ^ w + 2 ^ w * acc) 0))

/-- Code i of w bits in words. -/
def codeIn (ws : List PWord) (w i : Nat) : Nat :=
  let b := i * w / 8
  (byteIn ws b + 256 * byteIn ws (b + 1)) / 2 ^ (i * w % 8) % 2 ^ w

/-- A BS8 plane from new values, marked groups keeping the bytes of `other` (R244, R252). -/
def bs8Plane (marked : Nat → Bool) (other : List PWord) (n : Nat) (sr : Bool) (vs : List Num) (g : Word) :
    List PWord × FlagBits × Word :=
  let keep (i : Nat) : List Nat × Nat := ((List.range 128).map (fun j => byteIn other (128 * i + j)), byteIn other (n + i))
  let r := quantPlane blkBS8 false sr 128 marked keep (pieces 128 vs) 0 g
  (wordsOfBytes ((r.1 ++ r.2.1).map (fun c => BitVec.ofNat 8 c)), r.2.2.1, r.2.2.2)

/-- A compute-copy plane from new weights (R253) (DEDUCED, log entry 84). -/
def copyPlane (h : Shard) (fmt : Nat) (marked : Nat → Bool) (other : List PWord) (ws : List Word) (g : Word) :
    List PWord × FlagBits × Word :=
  let xs := ws.map decF32
  if fmt = 4 ∨ fmt = 5 then
    let b := fmtBlock fmt
    let n := h.nEl
    let elemBytes := n * b.bits / 8
    let keep (i : Nat) : List Nat × Nat := ((List.range 32).map (fun j => codeIn other b.bits (32 * i + j)), byteIn other (elemBytes + i))
    let r := quantPlane b (fmt == 5 && h.ccMean) h.ccSr 32 marked keep (pieces 32 xs) 0 g
    (wordsOfBytes (packBytes b.bits r.1 ++ r.2.1.map (fun c => BitVec.ofNat 8 c)), r.2.2.1, r.2.2.2)
  else
    let f := fmtFloat fmt
    let w := fmtBits fmt
    let step (acc : List Nat × FlagBits × Word) (xi : Num × Nat) : List Nat × FlagBits × Word :=
      if marked (xi.2 / 128) then (codeIn other w xi.2 :: acc.1, acc.2.1, acc.2.2)
      else
        let sd := if h.ccSr then lfsrDraw acc.2.2 else (acc.2.2, 0)
        let r := if xi.1.isNan then (f.nanCode, flNV) else f.round (if h.ccSr then .sr sd.2 else .rne) xi.1
        (r.1 :: acc.1, acc.2.1 ||| r.2, sd.1)
    let r := xs.zipIdx.foldl step ([], 0, g)
    let codes := r.1.reverse
    (wordsOfBytes (codes.flatMap (fun c => leBytes (w / 8) c)), r.2.1, r.2.2)

/-! Export segments. -/

/-- XOR of two planes, word by word. -/
def xorWords (a b : List PWord) : List Word := (a.zip b).map (fun p => p.1.w ^^^ p.2.w)

/-- Payload of consecutive groups of 128 XOR words (R266): a mask of four words, then the nonzero words. -/
def groupPayload (xs : List Word) : List Byte :=
  let mask := (List.range 4).map (fun k =>
    (List.range 32).foldl (fun acc j => acc + if xs.getD (32 * k + j) 0 = 0 then 0 else 2 ^ j) 0)
  mask.flatMap (fun m => leBytes 4 m) ++ (xs.filter (fun x => x ≠ 0)).flatMap (fun x => leBytes 4 x.toNat)

/-- The STATE segments of one plane: at most 8,192 groups each (Table 8.9). -/
def stateSegments (base : Segment) (xs : List Word) : List Segment :=
  ((pieces (128 * 8192) xs).zipIdx).map (fun pi =>
    let gs := pieces 128 pi.1
    { base with kind := 0, firstGroup := 8192 * pi.2, groups := gs.length, payload := gs.flatMap groupPayload })

/-- Bytes of a segment (Table 8.9, R264). -/
def segBytes (g : Segment) (p stack x y z : Nat) : List Byte :=
  let head := leBytes 4 0x53445A55 ++ leBytes 1 1 ++ leBytes 1 g.kind ++ leBytes 1 p ++ leBytes 1 stack
    ++ leBytes 8 g.step.toNat ++ leBytes 8 g.applied.toNat ++ leBytes 8 g.tt.toNat ++ leBytes 4 g.epoch.toNat
    ++ leBytes 2 g.shard ++ leBytes 1 g.plane ++ leBytes 1 0 ++ leBytes 4 g.firstGroup ++ leBytes 4 g.groups
    ++ leBytes 4 g.payload.length ++ leBytes 4 g.seg.toNat ++ leBytes 1 x ++ leBytes 1 y ++ leBytes 1 z ++ leBytes 5 0
  let n := 64 * ((72 + g.payload.length + 63) / 64)
  let body := head ++ g.payload
  let full := body ++ List.replicate (n - 8 - body.length) 0
  full ++ leBytes 4 (crc32c full) ++ leBytes 3 0 ++ leBytes 1 0x5A

end Sys2Proof.Machine
end

