-- ==== Sys2Proof/Machine/StartStop.lean ====
section
/-! DEFINITION. Partition start and stop: what reaches sequencers, contexts, update engines and what travels, and the end of a
stop (R56, R88, R93, R94, R217, R259, R529). -/

namespace Sys2Proof.Machine

open Sys2Proof

/-- A sequencer at START: READY or DONE goes to RUN at descriptor 0 (R88, R93). -/
def Cluster.start (x : Cluster) : Cluster :=
  if x.seq.state = .ready ∨ x.seq.state = .done then
    { x with walk := none
             seq := { x.seq with state := .run, pc := 0, loops := [], lastIssue := 0, wakeAt := none, stepN := 0, ending := false } }
  else x

/-- A context at START: an enabled one in OFF goes to WAIT_TRIG at HEAD, its byte count 0 (R216, R217). -/
def Ctx.start (x : Ctx) : Ctx :=
  if x.enabled && x.state == 0 then
    { x with state := 1, cur := x.head, bytes := 0, trigFrom := 0, timerDone := false, lastIssue := none }
  else x

/-- Is every page of the partition complete in this stack (R235)? -/
def Uep.complete (x : Uep) : Bool := x.acc.all (fun kv => kv.2.expect == kv.2.count)

/-- ACCUM goes to PARTIAL once every ACC entry is complete (Table 8.12). -/
def Uep.settle (x : Uep) : Uep := if x.state = 1 ∧ x.complete then { x with state := 2 } else x

/-- A step starts in an update engine: ACCUM, the generator seeded for it and its learning rate computed (R245, R254). -/
def Uep.beginStep (x : Uep) : Uep :=
  { x with state := 1, gate := none, lfsr := lfsrSeed x.param.ueSeed (x.committed.toNat + 1),
           stepLr := (x.lrAt (x.committed.toNat + 1)).1 }.settle

/-- The blocks of partition p that `go` selects start a step; the flags of lr(N) go to their stacks' UE_FLAGS (R245, R267). -/
def State.beginSteps (s : State) (p : Nat) (go : Nat → Uep → Bool) : State :=
  ((List.range 24).filter (fun k => go k (s.uep k p))).foldl (fun t k =>
    (t.setUeFlags k ((s.uep k p).lrAt ((s.uep k p).committed.toNat + 1)).2).modUep k p Uep.beginStep) s

/-- Every enabled context of a partition starts, and its first descriptor is checked (R217, R219). -/
def State.startContexts (s : State) (p : Nat) : State :=
  let mine := s.ctxs.filter (fun kv => s.owns p (kv.1 / 4))
  mine.foldl (fun t kv => t.checkCurrent (kv.1 / 4) (kv.1 % 4)) (s.eachCtx p (fun _ x => x.start))

/-- PARTITION_START_DELIVERED: 48 cycles after the raise, PART_CYCLE is 0, every generator is seeded for the step, and sequencers,
contexts and update engines start (R56, R94, R529); a stop raised meanwhile stands, and a partition that is waking takes it in W0 (R418). -/
def startDeliveredEffect (p : Nat) (s : State) : State :=
  match (s.part p).startRaised with
  | none => s
  | some v =>
    if (s.wakeOf p).w ≠ 0 then s
    else
    let s1 := s.atFab (v + 48)
    let s2 := s1.eachCluster p (fun _ x => x.start)
    let s3 := s2.startContexts p
    let s4 := s3.beginSteps p (fun k x => x.state == 0 && s3.ownsPages k p)
    let s5 := s4.modPart p (fun q => { q with
      running := true, partCycle := 0, startRaised := none, stopping := none, holdRaised := none,
      holdActive := false, releaseRaised := none, startStep := s4.stepOf p, seedEpoch := q.seedEpoch + 1 })
    let s6 := s5.modIdle p (fun i => if i.running then i else { i with running := true, startTT := s5.ttNs, interval := s5.setting 0x5320 1 })
    s6.modBind p (fun b => { b with state := 3, lastStep := s6.localNs, stopCause := 0, block := 0 })

def execPartitionStartDelivered (p : Nat) (s : State) : Answer := onPartition p (startDeliveredEffect p s)

/-- Abort of a step in one block (R234, R259, R261): record and COPY_SEL unchanged, the half of the step discarded unsent, its
segment numbers free again; an engine in FAULT stays there. -/
def Uep.abort (x : Uep) : Uep :=
  let n := x.committed + 1
  let gone := (x.halves.filter (fun h => h.step = n && !h.released)).foldl (fun acc h => acc + h.segs.length) 0
  { x with state := if x.state = 8 then 8 else 0, gate := none, exportWait := false, touched := [], clearBusy := true,
           acc := mapAll accD x.acc (fun _ a => { a with count := 0 }),
           segSeq := x.segSeq - BitVec.ofNat 32 gone,
           halves := x.halves.filter (fun h => h.step != n || h.released) }

/-- What a stop does to a partition's block in one update engine (R259): a step whose torus arrival for COMMIT_GROUP has
not been sent is aborted; one whose arrival has been sent is in doubt; one whose release was delivered completes. -/
def Uep.stop (x : Uep) (sent : Bool) : Uep :=
  if x.state = 6 ∨ x.state = 7 then x
  else if x.state = 5 ∧ sent then { x with state := 7 }
  else x.abort

/-- A context at a partition stop: one in WAIT_TRIG or ACTIVE drains what it has issued; a halted one keeps only what is unanswered
(R217). -/
def Ctx.stop (x : Ctx) : Ctx :=
  let rs := x.reqs.filter (fun r => !r.answered)
  if x.state = 1 ∨ x.state = 2 then
    if rs.isEmpty then { x with state := 0, descs := [], reqs := [] } else { x with state := 4, reqs := rs }
  else { x with reqs := rs }

/-- Descriptor of a context's request. -/
def State.reqDesc (s : State) (c k : Nat) (r : CtxReq) : Option SDesc :=
  ((s.ctx c k).descs.find? (fun e => e.ord == r.ord)).bind (fun e => s.streamDesc c k e.desc)

/-- A stop ends the slots that would carry an elastic flit: a write it carries is issued and goes to its edge switch or port, a read
comes back answered and its data is discarded; host data is staged where it lands (R94, R217, R341) (DESIGN CHOICE, log entry 78). -/
def State.settleFlit (s : State) (p : Nat) (x : Flit) : State :=
  match x.cargo with
  | .toStore ctx idx true =>
    match (s.ctx (ctx / 4) (ctx % 4)).req idx with
    | none => s
    | some r =>
      if r.op = 0 then s.modCtx (ctx / 4) (ctx % 4) (fun y => y.answer idx 0 [])
      else
        let d := (s.reqDesc (ctx / 4) (ctx % 4) r).getD ⟨0, []⟩
        s.modStore (fun t => { t with
          reqs := t.reqs ++ [r.storeReq p (ctx / 4) (ctx % 4) (64 * d.edge + d.link) d.edge r.data] })
  | .toPort n _ _ (some f) => s.queueFrame (s.outPort n) f
  | .toCtx ctx idx true => s.modCtx (ctx / 4) (ctx % 4) (fun y => y.answer idx 0 [])
  | .toFlow a q f r =>
    s.stageWrite a { src := .landing, dest := .circ r, words := validWords x.mask x.words, idx := 0, land := some ⟨true, q, f, 0⟩ }
  | _ => s

/-- Nothing elastic of partition p is left in the mesh after its stop, and its queues are empty. -/
def State.settleElastic (s : State) (p : Nat) : State :=
  let none_ (m : SMap (List Flit)) : SMap (List Flit) :=
    (m.map (fun kv => (kv.1, kv.2.filter (fun x => x.part != p)))).filter (fun kv => !kv.2.isEmpty)
  ((s.fabric.elasticOf p).foldl (fun t x => t.settleFlit p x) s).modFabric (fun f => { f with
    departs := none_ f.departs
    queues := none_ f.queues
    edges := none_ f.edges
    credits := f.credits.filter (fun kv => kv.1 % 8 != p)
    creditsDue := f.creditsDue.filter (fun kv => kv.1 % 8 != p) })

/-- A cluster at a partition stop: RUN, WAIT, HOLD and DONE go to STOPPED; unwritten results and staged accesses of its
own engines are discarded; one in FAULT, IDLE or READY keeps its state (R94). -/
def Cluster.stop (x : Cluster) : Cluster :=
  let q := x.seq
  let st := if q.state = .run ∨ q.state = .wait ∨ q.state = .hold ∨ q.state = .done then SeqState.stopped else q.state
  { x with ops := [], staged := x.staged.filter (fun g => g.src == .landing), seq := { q with state := st, holdReq := false, ending := false, wakeAt := none } }

/-- PARTITION_STOP_DELIVERED: 48 cycles after the raise (R94, R259, R280, R529). Flits launched before it complete their hops; one whose
departure slot is still to come is not launched. -/
def stopDeliveredEffect (p : Nat) (s : State) : State :=
  match (s.part p).stopRaised with
  | none => s
  | some v =>
    let s0 := s.atFab (v + 48)
    let s1 := s0.overClusters p (fun u c => u.settleBefore c (s0.part p).partCycle)
    -- waits end in RECOVERY
    let s2 := (s1.clusters.filter (fun kv => s1.owns p kv.1)).foldl (fun t kv => t.endWait kv.1 .recovery) s1
    let s3 := s2.eachCluster p (fun _ x => x.stop)
    let s4 := (s3.settleElastic p).eachCtx p (fun _ x => x.stop)
    let s5 := { s4 with ueps := mapAll uepD s4.ueps (fun k x =>
      if k % 8 = p then x.stop (s4.group x.param.commitGroup).sent else x) }
    let s6 := s5.modPart p (fun q => { q with
      running := false, stopRaised := none, startRaised := none, holdRaised := none, holdActive := false,
      releaseRaised := none, stopping := some s5.clock.fab })
    let s7 := { s6.modBind p (fun b => { b with stopCause := (s.part p).stopCause }) with
      fabric := { s6.fabric with
        flits := s6.fabric.flits.filter (fun f => !(f.part == p && decide ((s0.part p).partCycle ≤ f.slot))) } }
    let doubt := s7.ueps.any (fun kv => kv.1 % 8 == p && kv.2.state == 7) && !(s4.ueps.any (fun kv => kv.1 % 8 == p && kv.2.state == 7))
    let s8 := if doubt then s7.raiseEvent 3 (0x3410 + p) 2 [p, s7.committedStep p + 1] else s7
    (s8.count (counterKey (0x5200 + p) 4 0) 1).log 0x12 1 p (s.part p).stopCause 4 (elemCode 0x12 p) 0

def execPartitionStopDelivered (p : Nat) (s : State) : Answer := onPartition p (stopDeliveredEffect p s)

/-- Has everything launched before the stop landed? No scheduled flit of the partition is on the mesh, no landing is
under way, no request of a context is unanswered (R94, R217). -/
def State.drained (s : State) (p : Nat) : Bool :=
  !(s.fabric.flits.any (fun f => f.part == p)) && !(s.fabric.landings.any (fun l => l.part == p))
    && !(s.ctxs.any (fun kv => s.owns p (kv.1 / 4) && (kv.2.state == 4 || kv.2.reqs.any (fun r => !r.answered))))

/-- PARTITION_STOPPED: the partition counts as stopped (R94). -/
def partitionStoppedEffect (p : Nat) (s : State) : State :=
  if (s.part p).stopping.isSome && s.drained p then
    let s1 := (s.modPart p (fun q => { q with stopping := none })).modBind p (fun b => { b with state := 4 })
    s1.raiseEvent 2 (0x6010 + p) 7 [p, (s.bind p).stopCause, s.committedStep p]
  else s

def execPartitionStopped (p : Nat) (s : State) : Answer := onPartition p (partitionStoppedEffect p s)

/-- LOCAL_STOP: a write of SEQ_CTRL.LOCAL_STOP raises partition stop (R94). -/
def execLocalStop (c : Nat) (who : Writer) (s : State) : Answer :=
  onCluster c (s.guardedBy who (match s.ownerOf c with
    | some p => s.raiseStop p stopHost
    | none => s))

/-- UNLOAD: in DONE, STOPPED or FAULT, zero quire memory, stream-context memory and the words that are not resident, and
enter IDLE (Tables 3.11 and 4.5, R123). -/
def unloadEffect (c : Nat) (s : State) : State :=
  let x := s.cluster c
  if x.seq.state = .done ∨ x.seq.state = .stopped ∨ x.seq.state = .fault then
    (s.zeroing c (fun w => !x.isResident w) true).modCluster c (fun y => { y with seq := { y.seq with state := .idle } })
  else s

def execUnload (c : Nat) (who : Writer) (s : State) : Answer := onCluster c (s.guardedBy who (unloadEffect c s))

end Sys2Proof.Machine
end

