-- ==== Sys2Proof/Machine/Update.lean ====
section
/-! DEFINITION. The update engines' commands (R229 to R268): contributions, the norm partial, the gate, the update pass with
its export, commit and its outcomes, the resolution of a doubt, and the interval end of the idle accounts (R282). -/

namespace Sys2Proof.Machine

open Sys2Proof

/-- Stacks in service that hold pages of partition p. -/
def State.stacksOf (s : State) (p : Nat) : List Nat :=
  (List.range 24).filter (fun k => s.ownsPages k p && (s.stack k).trained && !(s.stack k).retired)

/-- Coordinate of the module on the torus (0x3800.04 to .06). -/
def State.coord (s : State) : Nat × Nat × Nat := (s.boot.slot, s.setting 0x3800 5, s.setting 0x3800 6)

/-- An update engine enters FAULT for partition p and raises partition stop (R255, R256). Codes of Table 8.13. -/
def State.ueFault (s : State) (stack p cause : Nat) : State :=
  if (s.uep stack p).state = 8 then s
  else
    let s1 := s.modUep stack p (fun x => { x with state := 8, cause := cause, startBlocked := x.startBlocked || cause == 3 })
    let s2 := if cause = 2 ∨ cause = 3 then s1.modStack stack (fun k => { k with uePoisonSeen := true }) else s1
    (s2.log 0x0B 1 p cause 4 (elemCode 0x0B stack) 0).raiseStop p stopFault

/-- Residue mismatches of one group: each counts one event, the third faults (R238). Answers whether the group failed.
(DESIGN CHOICE, log entry 87.) -/
def State.ueMismatches (s : State) (stack p n : Nat) : Bool × State :=
  let one (t : State) : State :=
    let t1 := t.modStack stack (fun k => { k with residueSeen := true, ueEvents2 := satInc 16 k.ueEvents2 })
    ((t1.count (counterKey 0x5110 5 stack) 1).elementEvent (elemCode 0x0B stack) .marking false (some p) 0 1 0).1
  let s1 := (List.range (min n 3)).foldl (fun t _ => one t) s
  if n ≥ 3 then (true, s1.ueFault stack p 4) else (false, s1)

/-- Residue mismatches met in a pass, one number for each group that has any, in the pass's order (R238) (DESIGN CHOICE, log entry 87). -/
def State.passMismatches (s : State) (stack p : Nat) (ns : List Nat) : Bool × State :=
  match ns with
  | [] => (false, s)
  | n :: r =>
    let one := s.ueMismatches stack p n
    if one.1 then one else one.2.passMismatches stack p r

/-! Contributions (R233 to R238). -/

/-- A REDUCE that has been granted and waits for its contribution. -/
def StoreReq.contributes (r : StoreReq) (stack pch : Nat) : Bool :=
  r.stack == stack && r.pch == pch && r.status == .granted && r.op == .reduce && !r.refused && !r.data.isEmpty

/-- One 64 B block of a contribution: replaced when the unit is untouched, else added; poison stays (R233, R236). -/
def contributeBlock (touched : Bool) (old new : List PWord) : List PWord × FlagBits :=
  if new.any PWord.poison then (poisonBlock, 0)
  else if touched && old.any PWord.poison then (poisonBlock, 0)
  else
    let rs := (old.zip new).map (fun on => if touched then addF32 on.1.w on.2.w else firstWord on.2.w)
    (rs.map (fun r => ⟨r.1, false⟩), rs.foldl (fun acc r => acc ||| r.2) 0)

/-- A round of its pseudo-channel that a request of partition p takes besides its grant: the next the partition owns, in which its other
requests age (R207, R212, R237). -/
def State.takeRound (s : State) (stack pch p i : Nat) : State :=
  (s.setRound stack pch (s.round stack pch + s.roundsTo stack pch p + 1)).ageOthers stack pch p i

/-- REDUCE_CONTRIBUTION: perform the granted REDUCE of a pseudo-channel (R233 to R238). Its read is that of its first round, with the
retry of R207; its write takes a second (R237). An excess contribution is not performed (R235) (DESIGN CHOICE, log entry 87). -/
def contributionEffect (stack pch mismatches : Nat) (s : State) : State :=
  match s.store.reqs.zipIdx.find? (fun ri => ri.1.contributes stack pch) with
  | none => s
  | some ri =>
    let r := ri.1
    let p := r.part
    let x := s.uep stack p
    if x.clearBusy then s
    else
      let page := saPage r.addr
      let slot := s.reduceSlot stack p page
      let a := x.accAt slot
      let s1 := s.modReq ri.2 (fun q => { q with data := [] })
      if a.expect < a.count + 1 then
        (s1.modStack stack (fun k => { k with excessSeen := true })).ueFault stack p 1
      else
        let bit := slot * 4096 + bitsN r.addr 20 9
        let touched := mapGet boolD x.touched bit
        let phys := s.physPage stack page
        let b := saBlock r.addr
        let first := s1.noteBlocks stack page phys b (r.data.length / 16) false
        let s2 := if first.1 then
            ((first.2.takeRound stack pch p ri.2).noteBlocks stack page phys b (r.data.length / 16) true).2
          else first.2
        let mm := (s2.takeRound stack pch p ri.2).ueMismatches stack p mismatches
        if mm.1 then mm.2
        else
          let done := ((pieces 16 r.data).zipIdx).foldl (fun (acc : State × FlagBits) wi =>
            let old := deliverBlock (acc.1.storeBlock stack phys (b + wi.2))
            let c := contributeBlock touched old wi.1
            (acc.1.putBlock stack phys (b + wi.2) c.1, acc.2 ||| c.2)) (mm.2, 0)
          (done.1.setUeFlags stack done.2).modUep stack p (fun y => Uep.settle { y with
            touched := mapSet boolD y.touched bit true
            acc := mapSet accD y.acc slot { y.accAt slot with count := (y.accAt slot).count + 1 } })

def execReduceContribution (stack pch mismatches : Nat) (s : State) : Answer :=
  onPch stack pch (contributionEffect stack pch mismatches s)

/-- TOUCHED_CLEAR_DONE: the touched bits and counts of a partition are clear, within 1 µs (R234). -/
def touchedClearEffect (p : Nat) (s : State) : State :=
  { s with ueps := mapAll uepD s.ueps (fun k x => if k % 8 = p then { x with clearBusy := false } else x) }

def execTouchedClearDone (p : Nat) (s : State) : Answer := onPartition p (touchedClearEffect p s)

/-! The norm partial (R235, R239, R246, R247). -/

/-- Unmarked groups of a shard whose touched bit is clear (R239). -/
def State.untouchedGroups (s : State) (stack p : Nat) (h : Shard) : Nat :=
  let x := s.uep stack p
  (List.range (h.nEl / 128)).countP (fun j =>
    !(h.markEn && x.marks.contains (h.mark + j)) &&
    (let po := planeAt h.gPlane 1 0 (512 * j)
     !(mapGet boolD x.touched (s.reduceSlot stack p po.1 * 4096 + po.2 / 512))))

/-- NORM_PARTIAL: once every page is complete, the partial of the stack goes out as its arrival on NORM_GROUP.
(DESIGN CHOICE, log entry 85.) (DESIGN CHOICE, log entry 150). -/
def normPartialEffect (stack p : Nat) (mismatches : List Nat) (s : State) : State :=
  let x := s.uep stack p
  if !(x.state == 2 && s.moving p && (s.stacksOf p).contains stack) then s
  else
    let mm := s.passMismatches stack p mismatches
    if mm.1 then mm.2
    else
      let live := x.shards.filter (fun h => h.rule != 3)
      let out := live.foldl (fun (acc : State × List FW × Bool × Nat) h =>
        let g := acc.1.readPlane stack h.gPlane 1 0 (4 * h.nEl) (fun i => shardMarked x.marks h (16 * i))
        let bad := g.1.any PWord.poison
        (g.2, normShard x.marks h g.1 acc.2.1, acc.2.2.1 || bad, acc.2.2.2 + s.untouchedGroups stack p h))
        (mm.2, List.replicate 64 (fw 0), false, 0)
      if out.2.2.1 then out.1.ueFault stack p 2
      else
        let total := sumFrom0 out.2.1
        let n := out.2.2.2
        let s1 := out.1.setUeFlags stack total.2
        let s2 := if n = 0 then s1
          else ((s1.modStack stack (fun k => { k with untouchedSeen := true })).modUep stack p (fun y =>
            { y with untouched := min 0xFFFF (y.untouched + n) })).count (counterKey (0x5200 + p) 3 0) n
        (s2.modUep stack p (fun y => { y with state := 3 })).groupArrive x.param.normGroup (s2.part p).partCycle
          (some (stack, total.1))

def onStackPart (stack p : Nat) (t : State) : Answer :=
  if stack < 24 then onPartition p t else .fault (.noSuchElement "stack" stack)

def execNormPartial (stack p : Nat) (mismatches : List Nat) (s : State) : Answer :=
  onStackPart stack p (normPartialEffect stack p mismatches s)

/-- T is delivered to a stack's update engine: the gate decides (R249, Table 8.12) (DEDUCED, log entry 86). -/
def State.deliverTotal (s : State) (stack p : Nat) (t : Word) : State :=
  let x := s.uep stack p
  if x.state ≠ 3 ∨ x.gate.isSome then s
  else
    let g := gateOf x.param t x.stepLr
    (s.setUeFlags stack g.2).modUep stack p (fun y => { y with
      state := if g.1.skip then 3 else 4, gate := some g.1 })

/-! The update pass and its export (R250 to R257, R262, R266). -/

/-- A word of W, M or S that an unmarked group needs is poisoned (R255). -/
def badState (marks : List Nat) (h : Shard) (w m v : List PWord) : Bool :=
  let bs8Bad (ws : List PWord) : Bool := (ws.zipIdx).any (fun wi =>
    wi.1.poison && !(decide (4 * wi.2 < h.nEl) && shardMarked marks h (4 * wi.2)))
  (w.zipIdx).any (fun wi => wi.1.poison && !shardMarked marks h wi.2)
    || ((h.rule == 0 || h.firstMom) && bs8Bad m)
    || (h.rule == 1 && bs8Bad v) || (h.rule == 2 && v.any PWord.poison)

/-- What one shard's pass leaves: the state, the generator, the flags, the export payloads by plane number, and the
cause of poison it met, 0 for none. -/
structure PassOut where
  st : State
  lfsr : Word
  flags : FlagBits
  exports : List (Nat × List Word)
  bad : Nat
  deriving DecidableEq, Repr

/-- Planes of a FROZEN shard that an export names: XOR words of 0, since nothing is written (Table 8.5). -/
def frozenExports (h : Shard) : List (Nat × List Word) :=
  if h.exportEn then
    [(0, List.replicate h.nEl 0)] ++
      (if h.exportMom && h.firstMom then [(1, List.replicate ((h.nEl + h.nEl / 128) / 4) 0)] else [])
  else []

/-- Apply one shard (R250 to R254): read the current copy, write the other; marked groups are not read from G_PLANE and their state is
not written (R244) (DEDUCED, log entry 84). -/
def applyShard (s : State) (stack : Nat) (x : Uep) (gate : Gate) (h : Shard) (lfsr : Word) : PassOut :=
  let cur := b2n x.copySel
  let oth := 1 - cur
  let n := h.nEl
  let useM := h.rule == 0 || h.firstMom
  let sBytes := if h.rule = 1 then n + n / 128 else if h.rule = 2 then 4 * (n / h.nc + h.nc) else 0
  let mBytes := if useM then n + n / 128 else 0
  if h.rule = 3 then { st := s, lfsr := lfsr, flags := 0, exports := frozenExports h, bad := 0 }
  else
    let w := s.readAll stack h.wPlane 2 cur (4 * n)
    let m := w.2.readAll stack h.mPlane 2 cur mBytes
    let v := m.2.readAll stack h.sPlane 2 cur sBytes
    let g := v.2.readPlane stack h.gPlane 1 0 (4 * n) (fun i => shardMarked x.marks h (16 * i))
    if badState x.marks h w.1 m.1 v.1 then { st := v.2, lfsr := lfsr, flags := 0, exports := [], bad := 3 }
    else if g.1.any PWord.poison then { st := g.2, lfsr := lfsr, flags := 0, exports := [], bad := 2 }
    else
      let k := stepConst h gate x.applied.toNat
      let mk (i : Nat) : Bool := shardMarked x.marks h (128 * i)
      let byte32 := markedByte x.marks h 32 128
      let byte8 := markedByte x.marks h 8 128
      let fac := factors x.marks h k g.1 v.1
      let other (pl : Plane) (bytes : Nat) : List PWord := (s.readAll stack pl 2 oth bytes).1
      let wOther := other h.wPlane (4 * n)
      let mOther := other h.mPlane mBytes
      let sOther := other h.sPlane sBytes
      let es := (List.range n).map (fun i =>
        if shardMarked x.marks h i then (⟨((wOther.getD i ⟨0, false⟩).w, 0), fw 0, fw 0⟩ : UpdElt)
        else updateElt h k (g.1.getD i ⟨0, false⟩).w (w.1.getD i ⟨0, false⟩).w (bs8At m.1 n i) (bs8At v.1 n i) (factorV h fac i))
      let ws := es.map (fun e => e.w.1)
      let roots := es.map (fun e => if h.rule = 1 then fsqrt e.v else fw 0)
      let facFlags := if h.rule = 2 then (fac.1 ++ fac.2.1).foldl (fun acc f => acc ||| f.2) fac.2.2.2 else 0
      let fl := (es.zip roots).foldl (fun acc e => acc ||| e.1.w.2 ||| e.1.m.2 ||| e.1.v.2 ||| e.2.2) (k.flags ||| facFlags)
      let newW := keepBytes byte32 wOther (ws.map (fun a => ⟨a, false⟩))
      let pm := if useM then bs8Plane mk mOther n h.momSr (es.map (fun e => decF32 e.m.1)) lfsr else ([], 0, lfsr)
      let newM := keepBytes byte8 mOther pm.1
      let ps := if h.rule = 1 then bs8Plane mk sOther n h.momSr (roots.map (fun r => decF32 r.1)) pm.2.2 else
        (if h.rule = 2 then (fac.1 ++ fac.2.1).map (fun a => (⟨a.1, false⟩ : PWord)) else [], 0, pm.2.2)
      let newS := if h.rule = 1 then keepBytes byte8 sOther ps.1 else ps.1
      let cc (pl : Plane) (fmt : Nat) (t : State) (gen : Word) : State × FlagBits × Word :=
        if fmt = 15 then (t, 0, gen)
        else
          let r := copyPlane h fmt mk (other pl (copyBytes fmt n)) ws gen
          (t.writePlane stack pl oth (fun _ => false) r.1, r.2.1, r.2.2)
      let t1 := g.2.writePlane stack h.wPlane oth (wholeBlock byte32) newW
      let t2 := if useM then t1.writePlane stack h.mPlane oth (wholeBlock byte8) newM else t1
      let t3 := if h.rule = 0 then t2
        else t2.writePlane stack h.sPlane oth (if h.rule = 1 then wholeBlock byte8 else fun _ => false) newS
      let c0 := cc h.cc0Plane h.cc0Fmt t3 ps.2.2
      let c1 := cc h.cc1Plane h.cc1Fmt c0.1 c0.2.2
      let xs := if h.exportEn then
          [(0, xorWords w.1 newW)] ++
          (if h.exportMom then
            (if useM then [(1, xorWords m.1 newM)] else []) ++ (if h.rule = 0 then [] else [(2, xorWords v.1 newS)])
          else [])
        else []
      { st := c1.1, lfsr := c1.2.2, flags := fl ||| pm.2.1 ||| ps.2.1 ||| c0.2.1 ||| c1.2.1, exports := xs, bad := 0 }

/-- The half step n writes is free: the committed step in it has left the module (R25, R26, R262). -/
def Uep.halfFree (x : Uep) (n : Nat) : Bool :=
  x.halves.all (fun h => h.step.toNat % 2 != n % 2 || h.acked || !h.released)

/-- Number segments in order and put them in the half of step n (R262, Table 8.9). -/
def Uep.writeHalf (x : Uep) (n : Nat) (gs : List Segment) : Uep :=
  let numbered := gs.zipIdx.map (fun gi => { gi.1 with seg := x.segSeq + BitVec.ofNat 32 (gi.2 + 1) })
  { x with
    segSeq := x.segSeq + BitVec.ofNat 32 gs.length
    halves := x.halves.filter (fun h => h.step.toNat % 2 != n % 2) ++ [⟨BitVec.ofNat 64 n, numbered, false, false⟩] }

/-- EXPORT pages of a partition in a stack, in increasing page number (R262). -/
def State.exportPages (s : State) (stack p : Nat) : List Nat :=
  (s.store.pages.filter (fun kv =>
    kv.1 / 24576 == stack && kv.2.kind == 4 && s.pageOwner stack (kv.1 % 24576) == some p)).map (fun kv => kv.1 % 24576)

/-- Write bytes from the start of the half of step n: the first half of the EXPORT pages for even n, the second for odd
(R262). -/
def State.putExport (s : State) (stack p n : Nat) (bytes : List Byte) : State :=
  let ps := s.exportPages stack p
  let h := ps.length / 2
  let half := if n % 2 = 0 then ps.take h else ps.drop h
  ((pieces 16 (wordsOfBytes bytes)).zipIdx).foldl (fun t wi =>
    match half[wi.2 / 32768]? with
    | some pg => t.putBlock stack (t.physPage stack pg) (wi.2 % 32768) wi.1
    | none => t) s

/-- COMMIT_ARRIVAL: the pass of an applied step, or nothing for a skipped one; the export segments; then the arrival on
COMMIT_GROUP (R257). A half not yet free makes the update engine wait (R25) (DESIGN CHOICE, log entry 85; DEDUCED, log entry 88).
(DESIGN CHOICE, log entry 150.) -/
def commitArrivalEffect (stack p : Nat) (mismatches : List Nat) (s : State) : State :=
  let x := s.uep stack p
  match x.gate with
  | none => s
  | some gate =>
    if !((x.state == 4 || (x.state == 3 && gate.skip)) && s.moving p) then s
    else
      let n := x.committed.toNat + 1
      if !x.halfFree n then s.modUep stack p (fun y => { y with exportWait := true })
      else
        let base : Segment :=
          { kind := 0, step := BitVec.ofNat 64 n, applied := if gate.skip then x.applied else x.applied + 1, tt := s.ttNs,
            epoch := s.torusTime.epoch, shard := 0, plane := 0, firstGroup := 0, groups := 0, seg := 0, payload := [] }
        let finish (t : State) (gs : List Segment) : State :=
          let now := (t.part p).partCycle
          let t1 := t.modUep stack p (fun y => { (y.writeHalf n gs) with state := 5, exportWait := false })
          let c := t.coord
          let segs := ((t1.uep stack p).halves.filter (fun h => h.step.toNat == n)).flatMap Half.segs
          (t1.putExport stack p n (segs.flatMap (fun g => segBytes g p stack c.1 c.2.1 c.2.2))).groupArrive
            x.param.commitGroup now none
        if gate.skip then finish s [{ base with kind := 1 }, { base with kind := 2 }]
        else
          let mm := s.passMismatches stack p mismatches
          if mm.1 then mm.2
          else
            let out := (x.shards.zipIdx).foldl (fun (acc : PassOut × List Segment) hi =>
              if acc.1.bad ≠ 0 then acc
              else
                let o := applyShard acc.1.st stack x gate hi.1 acc.1.lfsr
                ({ o with flags := acc.1.flags ||| o.flags },
                 acc.2 ++ o.exports.flatMap (fun e => stateSegments { base with shard := hi.2, plane := e.1 } e.2)))
              (⟨mm.2, x.lfsr, 0, [], 0⟩, [])
            let s1 := out.1.st.setUeFlags stack out.1.flags
            if out.1.bad ≠ 0 then s1.ueFault stack p out.1.bad
            else
              finish (s1.modUep stack p (fun y => { y with lfsr := out.1.lfsr }))
                (out.2 ++ [{ base with kind := 2, groups := out.2.length }])

def execCommitArrival (stack p : Nat) (mismatches : List Nat) (s : State) : Answer :=
  onStackPart stack p (commitArrivalEffect stack p mismatches s)

/-- EXPORT_WAIT_END: the last record of the earlier step is acknowledged and the update engine goes on (R25) (DEDUCED, log entry 88). -/
def exportWaitEffect (stack p : Nat) (s : State) : State :=
  let x := s.uep stack p
  if x.exportWait && x.halfFree (x.committed.toNat + 1) then s.modUep stack p (fun y => { y with exportWait := false }) else s

def execExportWaitEnd (stack p : Nat) (s : State) : Answer := onStackPart stack p (exportWaitEffect stack p s)

/-! Commit (R258 to R261). -/

/-- Write the commit record of a step (Table 8.8). -/
def Uep.record (x : Uep) (g : Gate) (tt : BitVec 64) (epoch : BitVec 32) : Uep :=
  { x with
    committed := x.committed + 1
    applied := if g.skip then x.applied else x.applied + 1
    skipped := if g.skip then x.skipped + 1 else x.skipped
    copySel := if g.skip then x.copySel else !x.copySel
    copyStep := if g.skip then x.copyStep else x.committed.toNat + 1
    poisonBlocks := if g.skip then x.poisonBlocks else []
    lastSkipped := g.skip
    recEpoch := epoch, recTT := tt
    normSq := g.total, clip := if g.skip then 0 else g.clip, lr := g.lr
    gate := none }

/-- Each stack of partition p in COMMITTING, or in IN_DOUBT when `doubt`, writes its record (R258, R260). -/
def State.writeRecords (s : State) (p : Nat) (doubt : Bool) : State :=
  { s with ueps := mapAll uepD s.ueps (fun k x =>
      if k % 8 = p ∧ (x.state = 6 ∨ (doubt ∧ x.state = 7)) then
        match x.gate with
        | some g => { (x.record g s.ttNs s.torusTime.epoch) with state := 6 }
        | none => x
      else x) }

/-- COMMIT: within 2 µs of V (R258). -/
def execCommit (p : Nat) (s : State) : Answer := onPartition p (s.writeRecords p false)

/-- Blocks of partition p in every stack. -/
def State.eachUep (s : State) (p : Nat) (f : Uep → Uep) : State :=
  { s with ueps := mapAll uepD s.ueps (fun k x => if k % 8 = p then f x else x) }

/-- Ports of partition p (R286). -/
def State.portsOf (s : State) (p : Nat) : List Nat := (List.range 256).filter (fun n => s.portOwner n == some p)

/-- UP with RUN_MATCH. -/
def Port.open_ (x : Port) : Bool := x.state == 3 && x.runMatch

/-- APPLIED of a partition, of the lowest stack in service with its pages. -/
def State.appliedOf (s : State) (p : Nat) : BitVec 64 :=
  match s.stacksOf p with
  | [] => 0
  | k :: _ => (s.uep k p).applied

/-- The commit notice of partition p on one port (R321) (DEDUCED, log entry 96). -/
def State.sendNotice (s : State) (p n : Nat) : State :=
  let c := s.coord
  s.queueFrame n (mkFrame 0x11 64 0 0 0 0 0 (.commit (BitVec.ofNat 64 (s.committedStep p)) (s.appliedOf p) c.1 c.2.1 c.2.2))

def State.sendNotices (s : State) (p : Nat) : State :=
  ((s.portsOf p).filter (fun n => (s.port n).open_)).foldl (fun t n => t.sendNotice p n) s

/-- Classes whose retirement takes effect at a stop (Table 12.2). -/
def atStop (cls : Nat) : Bool := cls ≤ 6 || (0x09 ≤ cls && cls ≤ 0x0B) || cls == 0x0F || cls == 0x10

/-- Is a retirement of partition p's elements pending for its stop (R356)? -/
def State.retirementWaits (s : State) (p : Nat) : Bool :=
  s.faults.recs.any (fun r => r.part == p && r.state == 0 && atStop (r.element / 2 ^ 56))

/-- The step boundary of partition p: a pending retirement or a lost session stops it (R311, R356). -/
def State.boundary (s : State) (p : Nat) : State :=
  if s.retirementWaits p then s.raiseStop p stopRetirement
  else if (s.bind p).rebindNeeded then s.raiseStop p stopSession
  else s

/-- After every stack has committed: the notice, the export half, the touched bits (R234, R258, R262), and the step
boundary. -/
def State.afterCommit (s : State) (p : Nat) (doubt : Bool) : State :=
  let run := (s.part p).running
  let waits := s.ueps.any (fun kv => kv.1 % 8 == p && kv.2.halves.any (fun h => h.released && !h.acked))
  let s0 := if waits then s
    else { s with server := { s.server with advancedAt := mapSet (natD 0) s.server.advancedAt p s.localNs } }
  let s1 := s0.eachUep p (fun x =>
    if x.state = 6 then
      { x with
        state := 0
        touched := []
        acc := mapAll accD x.acc (fun _ a => { a with count := 0 })
        clearBusy := true
        halves := x.halves.map (fun h => if h.step = x.committed then { h with released := true } else h) }
    else x)
  let s2 := if run && !doubt then s1.beginSteps p (fun k _ => (s.uep k p).state == 6) else s1
  ((s2.sendNotices p).modBind p (fun b => { b with lastStep := s1.localNs })).boundary p

/-- Every stack in service has written the record of the step. -/
def State.allRecorded (s : State) (p : Nat) : Bool :=
  !(s.stacksOf p).isEmpty && (s.stacksOf p).all (fun k => (s.uep k p).state == 6 && (s.uep k p).gate.isNone)

/-- COMMIT_RECORD_WRITTEN (Table 8.7, step 7). -/
def execCommitRecordWritten (p : Nat) (s : State) : Answer :=
  onPartition p (if s.allRecorded p then s.afterCommit p false else s)

/-- Is a step of partition p in doubt (R259)? -/
def State.inDoubt (s : State) (p : Nat) : Bool := (List.range 24).any (fun k => (s.uep k p).state == 7)

/-- R258 as if the release had been delivered (R260). -/
def State.rollForward (s : State) (p : Nat) : State := if s.inDoubt p then (s.writeRecords p true).afterCommit p true else s

/-- ROLL_FORWARD, refused unless in doubt (R461). -/
def execRollForward (p : Nat) (who : MCore) (s : State) : Answer := onPartition p (s.guarded who (s.rollForward p))

/-- The step in doubt ends as an abort (R260). -/
def State.rollBack (s : State) (p : Nat) : State :=
  if s.inDoubt p then s.eachUep p (fun x => if x.state = 7 then x.abort else x) else s

/-- ROLL_BACK, refused unless in doubt (R461). -/
def execRollBack (p : Nat) (who : MCore) (s : State) : Answer := onPartition p (s.guarded who (s.rollBack p))

/-- The host has rewritten the affected copies (R255, R362). -/
def State.clearBlocked (s : State) (p : Nat) : State :=
  s.eachUep p (fun x =>
    { x with startBlocked := false, poisonOverflow := false, poisonBlocks := if x.poisonOverflow then [] else x.poisonBlocks })

/-- CLEAR_START_BLOCKED (Table 16.6). -/
def execClearStartBlocked (p : Nat) (who : MCore) (s : State) : Answer := onPartition p (s.guarded who (s.clearBlocked p))

/-! Idle accounting intervals (R282, R283). -/

/-- End of the interval in progress, in ns of torus time: the next multiple of the interval in use. -/
def Idle.intervalEnd (i : Idle) : Nat :=
  let len := max 1 i.interval * 1000000
  (i.startTT.toNat / len + 1) * len

/-- Latch all ten counters (R282). -/
def Idle.latch (i : Idle) (tt : BitVec 64) (part : Bool) (next : Nat) : Idle :=
  { i with snap := i.live, snapOvf := i.ovf, snapTT := tt, snapPartial := part, startTT := tt, interval := next }

/-- IDLE_INTERVAL_END: in the first cycle that starts at or after the interval end in torus time the ten counters are latched; a written
IDLE_INTERVAL takes effect (R282, R283). -/
def intervalEndEffect (p : Nat) (s : State) : State :=
  let stop := (s.idle p).intervalEnd
  let s1 := s.atTorus stop
  if !(s.idle p).running || decide (s1.ttNs.toNat < stop) then s
  else
    s1.modIdle p (fun i => i.latch (BitVec.ofNat 64 stop) false (s1.setting 0x5320 1))

def execIdleIntervalEnd (p : Nat) (s : State) : Answer := onPartition p (intervalEndEffect p s)

end Sys2Proof.Machine
end

