-- ==== Sys2Proof/Machine/SpineCmds.lean ====
section
/-! DEFINITION. The kettle spine's commands (R182 to R188): arrivals, local and group releases, the torus-wide release, the
lehr stretch, and writes to fabric control space. -/

namespace Sys2Proof.Machine

open Sys2Proof

def onSync (o : Nat) (t : State) : Answer := onNumber "sync object" 16384 o t
def onGroup (g : Nat) (t : State) : Answer := onNumber "spine group" 256 g t

/-- What an arrival from outside the sequencer is credited to (Table 9.5): the completion of local context `who` when that is 0 to 3,
by its oldest descriptor; else a port or host flow. -/
def State.arrivalCredit (s : State) (o who : Nat) : WaitCause :=
  if who < 4 then
    match (s.ctx (o / 4) who).descs with
    | e :: _ => e.credit
    | [] => .weights
  else .peer

/-- SYNC_ARRIVAL: a local arrival from outside the sequencer (R182). A sync entry whose parity fails when the arrival looks it up
faults its cluster with TABLE_PARITY and counts nothing (R187) (DEDUCED, log entry 163). -/
def execSyncArrival (o who : Nat) (s : State) (upset : Word := 0) : Answer :=
  onSync o (if evenParity upset.toNat then s.arrive o false (s.arrivalCredit o who) else s.tableParity (o / 4) (s.ownerOf (o / 4)) none)

/-- LOCAL_RELEASE_DELIVERED: the oldest release of a local object falls due 4 cycles after its phase completed (R182). -/
def localReleaseEffect (o : Nat) (s : State) : State :=
  match (s.sync o).due with
  | [] => s
  | d :: rest =>
    if !s.live (o / 4) then s
    else
      let s1 := (s.atPart (partNo (s.ownerOf (o / 4))) d.1).modSync o (fun y => { y with due := rest })
      s1.deliverPhase (o / 4) (o % 4) d.2

def execLocalReleaseDelivered (o : Nat) (s : State) : Answer := onSync o (localReleaseEffect o s)

/-- SPINE_GROUP_ARRIVAL: the arrival a completed phase owes goes to the object's group (R182, R183). -/
def groupArrivalEffect (o : Nat) (s : State) : State :=
  match (s.sync o).owed with
  | none => s
  | some a => (s.modSync o (fun y => { y with owed := none })).groupArrive (s.sync o).group a none

def execSpineGroupArrival (o : Nat) (s : State) : Answer := onSync o (groupArrivalEffect o s)

/-- The module sum M of a group: payloads in increasing update-engine number, starting from +0 (R247). -/
def Group.sum (x : Group) : FW := sumFrom0 (x.payloads.map (fun kv => fw kv.2))

/-- Has every member of the phase arrived (R183)? -/
def Group.full (x : Group) : Bool := decide (0 < x.members) && decide (x.members ≤ x.arrived)

/-- The first cycle at or after `a` that is a multiple of 2^k (R184). -/
def alignUp (a k : Nat) : Nat := (a + 2 ^ k - 1) / 2 ^ k * 2 ^ k

/-- Cycle V of R184, once it is fixed. -/
def Group.releaseAt (x : Group) : Option Nat :=
  if !x.full then none
  else if x.torus then x.torusAt.map (fun t => alignUp (max (x.lastArr + 48) (t.1 + 48)) x.align)
  else some (alignUp (x.lastArr + 48) x.align)

/-- Deliver a group release to the stacks' update engines: T to those waiting on NORM_GROUP, the commit decision to those in
COMMIT_WAIT (R248, R257, R258). The flags of the sums that form T are raised with it (Table 8.6). -/
def State.releaseEngines (s : State) (p g : Nat) (t : Word) (fl : FlagBits) : State :=
  (List.range 24).foldl (fun u k =>
    let x := u.uep k p
    let u1 := if x.param.normGroup = g ∧ x.state = 3 ∧ x.gate.isNone then (u.setUeFlags k fl).deliverTotal k p t else u
    if x.param.commitGroup = g then
      u1.modUep k p (fun y => if y.state = 5 then { y with state := 6 } else y)
    else u1) s

/-- SPINE_RELEASE_DELIVERED: at V every member's PHASE increments and SPINE_WAIT clears; a member whose PENDING has reached
its count completes its next phase in V (R182 to R184, R280). -/
def spineReleaseEffect (g : Nat) (s : State) : State :=
  let x := s.group g
  match s.groupOwner g, x.releaseAt with
  | some p, some v =>
    if !s.moving p then s
    else
      let s1 := s.atPart p v
      let t := match x.torusAt with
        | some tt => tt.2
        | none => x.sum.1
      let members := s1.memberObjects g
      let s2 := s1.modGroup g (fun y => { y with
        arrived := 0, phase := (y.phase + 1) % 256, payloads := [], sent := false, torusAt := none, lastArr := 0 })
      let s3 := s2.modColl g (fun y => { y with axis := none, release := none, flags := 0 })
      let s4 := members.foldl (fun u o => u.deliverPhase (o / 4) (o % 4) .barrier) s3
      let s5 := members.foldl (fun u o => u.tryPhase o .barrier) s4
      s5.releaseEngines p g t (x.sum.2 ||| (s.coll g).flags)
  | _, _ => s

def execSpineReleaseDelivered (g : Nat) (s : State) : Answer := onGroup g (spineReleaseEffect g s)

/-- TORUS_RELEASE_AT_ROOT: the end of the collective's last stage reaches the spine root (R184, R318). -/
def torusReleaseEffect (g : Nat) (s : State) : State :=
  match (s.coll g).release, s.groupOwner g with
  | some t, some p =>
    if (s.group g).torus && (s.group g).torusAt.isNone then
      s.modGroup g (fun y => { y with torusAt := some ((s.part p).partCycle, t) })
    else s
  | _, _ => s

def execTorusReleaseAtRoot (g : Nat) (s : State) : Answer := onGroup g (torusReleaseEffect g s)

/-- STRETCH_CHANGE: a waiting STRETCH takes effect at the next FRAME_SLOT 0 (R179). -/
def execStretchChange (s : State) : Answer :=
  .next (if s.fabric.stretchNext = s.fabric.stretch then s else s.advance (256 - s.clock.fab % 256))

/-! Fabric control space (R188, Tables 6.5 and 6.6). -/

/-- Logical cluster at a physical slot, if it is not a spare (R155). -/
def State.logicalAt (s : State) (slot : Nat) : Option Nat :=
  ((List.range 64).find? (fun k => physCol (s.rowGuard (slot / 66)) k == slot % 66)).map (fun k => 64 * (slot / 66) + k)

/-- May a slot-table entry hold a value (R166, R170, R193)? Scheduled entries stand only on home links and never on edge
links; an unowned slot holds 0. -/
def State.entryLegal (s : State) (c t slot v : Nat) : Bool :=
  if t < 4 then
    let k := s.linkClass c t
    let sched := outSrc v != 0 && outClass v == 0
    (v == 0 || (s.slotOwnerOf k slot).isSome) && decide (outSrc v ≤ 5)
      && (!sched || (match k with
        | .home _ => (neighbour c t).isSome
        | _ => false))
  else
    (List.range 4).all (fun d =>
      !(landEn v d && landClass v d == 0) || (match s.inClass c d with
        | .home _ => (neighbour c d).isSome
        | _ => false))

/-- Owner of a slot-table entry. -/
def State.entryOwner (s : State) (c t slot : Nat) : Option Nat :=
  if t < 4 then s.slotOwnerOf (s.linkClass c t) slot else s.ownerOf c

/-- BIND_STATE allows a fabric write (R188): NONE, LOADED or STOPPED for a core; binding load also writes while it is LOADING. -/
def State.fabricOpen (s : State) (who : Writer) (p : Option Nat) : Bool :=
  match p with
  | none => false
  | some q => (s.bind q).state == 0 || (s.bind q).state == 2 || (s.bind q).state == 4 || (who == .binding && (s.bind q).state == 1)

/-- The bits of a slot-table word that are written: reserved and RO bits keep (R11, R12, R170). -/
def entryBits (t v : Nat) : Nat :=
  if t < 4 then
    let e := v % 2 ^ 7
    if outSrc e = 5 ∧ outClass e = 1 ∧ e.testBit 5 then e - 32 else e
  else v % 2 ^ 20

def setEntry (c t slot : Nat) (v : Word) (s : State) : State :=
  s.modFabric (fun f => { f with tables := mapSet wordD f.tables (tableKey c t slot) v })

/-- SYNC_CFG and GROUPg_CFG fields of a word. -/
def SyncObj.withCfg (o : SyncObj) (v : Word) : SyncObj :=
  { o with en := v.getLsbD 0, scope := v.getLsbD 1, group := fld v 9 2, expect := fld v 13 10 }
def Group.withCfg (x : Group) (v : Word) : Group :=
  { x with members := fld v 14 0, align := fld v 18 15, torus := v.getLsbD 19, reduce := v.getLsbD 20 }

/-- A write of one word of fabric control space: applied when the register is a writable one, its partition admits writes and
the value passes the checks of binding load; otherwise it has no effect. -/
def fabricWriteEffect (addr : Nat) (v : Word) (who : Writer) (s : State) : State :=
  if addr < 0x840000 then
    let slot := addr / 0x800
    let off := addr % 0x800
    if 0x500 ≤ off then s
    else
      match s.logicalAt slot with
      | none => s
      | some c =>
        let t := off / 256
        let w := entryBits t v.toNat
        let own := s.entryOwner c t (off % 256)
        if s.fabricOpen who own && s.entryLegal c t (off % 256) w then setEntry c t (off % 256) (BitVec.ofNat 32 w) s else s
  else if addr < 0x850000 then
    let o := (addr - 0x840000) / 4
    if addr % 4 = 0 ∧ s.fabricOpen who (s.ownerOf (o / 4)) ∧ fld v 13 10 ≠ 0 then s.modSync o (fun y => y.withCfg v) else s
  else if addr < 0x850400 then
    let g := (addr - 0x850000) / 4
    if addr % 4 = 0 ∧ s.fabricOpen who (s.groupOwner g) ∧ fld v 14 0 ≤ 16408 ∧ fld v 18 15 ≤ 8 then
      s.modGroup g (fun y => y.withCfg v)
    else s
  else s

/-- FABRIC_CONTROL_WRITE (R188). -/
def execFabricControlWrite (addr : Nat) (v : Word) (who : Writer) (s : State) : Answer :=
  .next (s.guardedBy who (fabricWriteEffect addr v who s))

end Sys2Proof.Machine
end

