-- ==== Sys2Proof/Machine/TorusTime.lean ====
section
/-! DEFINITION. Torus time: corrections, epochs, the parent of a module and its root (R322 to R325, R435 to R439). -/

namespace Sys2Proof.Machine

open Sys2Proof

def State.modTime (s : State) (f : TimeSt → TimeSt) : State := { s with torusTime := f s.torusTime }

/-- A nanosecond in the units TT is held in. -/
def ttUnit : Nat := 2 ^ 24

/-- TIME_ROOT (0x2600.03). -/
def State.timeRoot (s : State) : Bool := s.setting 0x2600 3 == 1

/-- The module's own ROOT_TAG: the first 16 bytes of IDENTITY_HASH (R323). -/
def State.ownTag (s : State) : BitVec 128 := (s.trust.identity >>> 256).setWidth 128

/-- TIME_EPOCH with ROOT_EPOCH r and LOCAL_STEPS l (R438). -/
def epochOf (r l : Nat) : BitVec 32 := BitVec.ofNat 32 (65536 * (r % 65536) + l % 65536)

/-- The epoch after a discontinuity of the module's own (R438). -/
def TimeSt.stepEpoch (t : TimeSt) : BitVec 32 :=
  if t.root then epochOf (t.epoch.toNat / 65536 + 1) 0
  else epochOf (t.epoch.toNat / 65536) (t.epoch.toNat % 65536 + 1)

/-- TIME_STATUS (Table 15.4). -/
def TimeSt.status (t : TimeSt) : Nat :=
  b2n t.locked + 2 * b2n t.holdover + 4 * b2n (t.rest != 0 || t.ahead != 0) + 8 * b2n t.discontinuity + 16 * b2n t.root
    + 32 * b2n t.ptpOk + 64 * b2n t.degraded + 128 * b2n t.rootConflict + 256 * b2n t.noRoot

/-- An error in ns as 0x2600.08 reports it, in two's complement. -/
def errWord (e : Int) : Nat := (BitVec.ofInt 32 (max (-2147483647) (min 2147483647 e))).toNat

/-- The TIME event (Table 17.6). -/
def State.timeEvent (s : State) : State := s.raiseEvent 7 0x2600 7 [s.torusTime.status, errWord s.torusTime.err]

/-- Set or clear HOLDOVER, with its event. -/
def State.setHoldover (s : State) (v : Bool) : State :=
  let s1 := s.modTime (fun t => { t with holdover := v })
  if s.torusTime.holdover = v then s1 else s1.timeEvent

/-- A discontinuity: the flag, the epoch, the history's last 16 records, and the end of every idle interval with PARTIAL
(R283, R437, R438). -/
def State.discontinuity (s : State) (refNs : Nat) : State :=
  let t := s.torusTime
  let e := t.stepEpoch
  let r : EpochRec := ⟨e, s.ttNs, BitVec.ofNat 64 refNs, BitVec.ofNat 64 (t.ahead / ttUnit)⟩
  let hs := t.history ++ [r]
  let s1 := s.modTime (fun x => { x with epoch := e, discontinuity := true, history := hs.drop (hs.length - 16) })
  let len := s1.setting 0x5320 1
  let s2 := s1.timeEvent
  { s2 with idles := mapAll idleD s2.idles (fun _ i => if i.running then i.latch s2.ttNs true len else i) }

/-- Rate correction for an error e in ns: e / (1 s), clamped to 200 ppm, in units of 2^-24 ns per management cycle.
(DEDUCED, log entry 125.) -/
def slewRate (e : Int) : Int :=
  let r := e * 41943040 / 1000000000
  if e = 0 then 0 else if e > 0 then min 8388 (max 1 r) else max (-8388) (min (-1) r)

/-- Slew an error of e ns (R437) (DEDUCED, log entry 125). -/
def TimeSt.slew (t : TimeSt) (e : Int) : TimeSt := { t with corr := slewRate e, rest := e * (ttUnit : Int) }

/-- A measured correction: the reference reads `off` ns more than TT (R437, R439). -/
def State.correct (s : State) (off : Int) : State :=
  let t := s.torusTime
  let refNs := ((s.ttNs.toNat : Int) + off).toNat
  if !t.locked && !t.noRoot then
    (s.setHoldover false).modTime (fun x => { x with
      tt := refNs * ttUnit, locked := true, err := off, corr := 0, rest := 0 })
  else
    let a : Int := ((t.ahead / ttUnit : Nat) : Int)
    let e := off + a
    let s1 := (s.setHoldover false).modTime (fun x => { x with locked := true, noRoot := false, err := e })
    if e.natAbs ≤ 1000000000 then s1.modTime (fun x => x.slew e)
    else if e < 0 then
      (s1.modTime (fun x => { x with ahead := x.ahead + e.natAbs * ttUnit, corr := 0, rest := 0 })).discontinuity refNs
    else
      let d := min e.toNat (t.ahead / ttUnit)
      let rem := e.toNat - d
      let s2 := s1.modTime (fun x => { x with ahead := x.ahead - d * ttUnit })
      if rem > 1000000000 then
        (s2.modTime (fun x => { x with tt := x.tt + rem * ttUnit, corr := 0, rest := 0 })).discontinuity refNs
      else s2.modTime (fun x => x.slew (rem : Int))

/-- Adopt the parent's ROOT_EPOCH (R438). -/
def TimeSt.adopt (t : TimeSt) (e : BitVec 32) : TimeSt :=
  if t.epoch.toNat / 65536 = e.toNat / 65536 then t else { t with epoch := epochOf (e.toNat / 65536) 0 }

/-- The module becomes root: depth 0, its own tag, ROOT_EPOCH advanced (R322, R325, R438). -/
def State.becomeRoot (s : State) : State :=
  s.modTime (fun x => { x with
    root := true, parent := none, depth := 0, rootTag := s.ownTag, smallerAt := none,
    epoch := epochOf (x.epoch.toNat / 65536 + 1) 0 })

/-! The parent (R322). -/

/-- Ports that can be the parent: UP, with a TIME frame less than 10 ms old whose sender has a DEPTH below 255. -/
def State.parentPorts (s : State) : List (Nat × TimeIn) :=
  s.ports.filterMap (fun kv =>
    match kv.2.timeIn with
    | some t => if kv.2.state == 3 && decide (t.depth < 255) && decide (s.localNs < t.at_ + 10000000) then some (kv.1, t) else none
    | none => none)

/-- Smaller ROOT_TAG first, then smaller DEPTH; the list rises by port, so a tie keeps the lower port. -/
def betterParent (a b : Nat × TimeIn) : Bool :=
  if a.2.rootTag = b.2.rootTag then decide (a.2.depth < b.2.depth) else decide (a.2.rootTag.toNat < b.2.rootTag.toNat)

def State.bestParent (s : State) : Option (Nat × TimeIn) :=
  s.parentPorts.foldl (fun acc x =>
    match acc with
    | none => some x
    | some b => if betterParent x b then some x else acc) none

/-- Select the parent of a module that is not root; with none, DEPTH is 255 and the module is in holdover (R322). -/
def State.selectParent (s : State) : State :=
  if s.torusTime.root then s
  else
    match s.bestParent with
    | some x => s.modTime (fun t => { t with parent := some x.1, depth := min 255 (x.2.depth + 1), rootTag := x.2.rootTag })
    | none =>
      let s1 := s.modTime (fun t => { t with parent := none, depth := 255, rootTag := BitVec.allOnes 128 })
      s1.setHoldover (s.torusTime.locked || s.torusTime.noRoot)

/-- A received ROOT_TAG smaller than the module's own ends its acting as root (R325) (DEDUCED, log entry 125). -/
def State.seeTag (s : State) (tag : BitVec 128) (depth : Nat) : State :=
  if s.timeRoot && decide (depth < 255) && decide (tag.toNat < s.ownTag.toNat) then
    s.modTime (fun t => { t with root := false, rootConflict := true, ptpOk := false, smallerAt := some s.localNs })
  else s

/-- What the TIME frame of port n says, kept, and its correction taken when n is the parent (R322, R323, R325). -/
def State.takeTime (s : State) (n t4 : Nat) (q : TimePl) : State :=
  let s1 := s.modPort n (fun x => { x with timeIn := some ⟨q.tTx, t4, q.depth, q.rootTag, q.epoch, q.holdover, s.localNs⟩ })
  let s2 := (s1.seeTag q.rootTag q.depth).selectParent
  if s2.torusTime.parent = some n ∧ (s.port n).timeSent.isSome then
    let off : Int := (((q.echoRx : Int) - (q.echoTx : Int)) - ((t4 : Int) - (q.tTx : Int))) / 2
    (s2.modTime (fun t => { (t.adopt q.epoch) with lastValid := s.localNs })).correct off
  else s2

/-! Commands. -/

/-- TIME_PARENT_TIMEOUT: no valid TIME frame from the parent for 10 ms (R324, R439). -/
def execTimeParentTimeout (s : State) : Answer :=
  .next (match s.torusTime.parent with
    | none => s
    | some _ =>
      let s1 := s.atNs (s.torusTime.lastValid + 10000000)
      ((s1.modTime (fun t => { t with parent := none })).setHoldover true).selectParent)

/-- ROOT_CONFLICT_END: 10 ms without a smaller ROOT_TAG (R325). ROOT_CONFLICT stays set until it is read. -/
def execRootConflictEnd (s : State) : Answer :=
  .next (match s.torusTime.smallerAt with
    | none => s
    | some t => if s.timeRoot then (s.atNs (t + 10000000)).becomeRoot else s)

/-- NO_ROOT_TIMEOUT: 10 s after READY without a correction (R325). -/
def execNoRootTimeout (s : State) : Answer :=
  .next (if s.torusTime.locked || s.torusTime.noRoot || s.torusTime.root || s.boot.moduleState != 1 then s
    else
      let s1 := s.atNs (s.boot.readyAt + 10000000000)
      (s1.modTime (fun t => { t with noRoot := true, tt := s1.localNs * ttUnit })).setHoldover true)

end Sys2Proof.Machine
end

