-- ==== Sys2Proof/Machine/Torus.lean ====
section
/-! DEFINITION. Port directions (R285, R287) and the torus collectives: the staged all-gather of the norm sum and of the
commit release (R248, R318 to R320). -/

namespace Sys2Proof.Machine

open Sys2Proof

/-! Directions. -/

/-- PORT_STATUS.DIR of port n (Table 10.1): 0 X+, 1 X-, 2 Y+, 3 Y-, 4 Z+, 5 Z-, 6 spare facing Z+, 7 spare facing Z-. -/
def portDir (n : Nat) : Nat :=
  let j := n / 4 % 8
  let m := n % 4
  if m < 2 then m
  else if j < 5 then m
  else if j < 7 then m + 2
  else if n / 32 % 2 = 0 then (if m = 2 then 4 else 6)
  else (if m = 2 then 7 else 5)

/-- The partner lies in the other band of the pair (R285). -/
def portCross (n : Nat) : Bool := n / 4 % 8 == 7 && decide (2 ≤ n % 4)

/-- The direction traffic of a port goes, a spare counted with the side it faces. -/
def travelDir (n : Nat) : Nat := if portDir n < 6 then portDir n else portDir n - 2

/-- Axis of a direction: 0 X, 1 Y, 2 Z. -/
def dirAxis (d : Nat) : Nat := d / 2

/-- Extent of the torus ring on an axis (R287), and the module's coordinate. -/
def State.ringExtent (s : State) (axis : Nat) : Nat :=
  match axis with | 0 => 4 | 1 => s.setting 0x3800 2 | _ => s.setting 0x3800 3
def State.axisCoord (s : State) (axis : Nat) : Nat :=
  match axis with | 0 => s.coord.1 | 1 => s.coord.2.1 | _ => s.coord.2.2

/-- Coordinate the partner of port n must have (Table 10.2). -/
def State.partnerCoord (s : State) (n : Nat) : Nat × Nat × Nat :=
  let c := s.coord
  let d := travelDir n
  let e := s.ringExtent (dirAxis d)
  let move (v : Nat) : Nat := if d % 2 = 0 then (v + 1) % e else (v + e - 1) % e
  match dirAxis d with
  | 0 => (move c.1, c.2.1, c.2.2)
  | 1 => (c.1, move c.2.1, c.2.2)
  | _ => (c.1, c.2.1, move c.2.2)

/-! The box of a partition's run (R269). -/

def State.boxExtent (s : State) (p axis : Nat) : Nat :=
  match (s.bind p).image with
  | none => 1
  | some b => match axis with | 0 => b.boxX | 1 => b.boxY | _ => b.boxZ
def State.boxOrigin (s : State) (p axis : Nat) : Nat :=
  match (s.bind p).image with
  | none => s.axisCoord axis
  | some b => match axis with | 0 => b.originX | 1 => b.originY | _ => b.originZ

/-- Coordinates of the modules on a line of the box, in increasing order. -/
def State.lineCoords (s : State) (p axis : Nat) : List Nat :=
  (List.range (s.boxExtent p axis)).map (fun i => s.boxOrigin p axis + i)

/-- Does an entry of coordinate `from_` that reaches this module travel on in direction d (R318)? Round a whole ring it goes
half of it each way; otherwise to the end of the box. `hops` counts the hops it has made. -/
def State.travelsOn (s : State) (p d from_ : Nat) : Bool :=
  let axis := dirAxis d
  let e := s.ringExtent axis
  let here := s.axisCoord axis
  let hops := if d % 2 = 0 then (here + e - from_) % e else (from_ + e - here) % e
  if s.boxExtent p axis = e then
    decide (hops < (if d % 2 = 0 then e / 2 else (e + 1) / 2 - 1))
  else if d % 2 = 0 then decide (here + 1 < s.boxOrigin p axis + s.boxExtent p axis)
  else decide (s.boxOrigin p axis < here)

/-! STAGE frames. -/

/-- Frame types of the request pool (R294). -/
def isRequest (f : Frame) : Bool := f.ty == 0x01 || f.ty == 0x03 || f.ty == 0x04 || f.ty == 0x05

/-- Put a frame ahead of the queued requests (R319). -/
def aheadOfRequests (q : List Frame) (f : Frame) : List Frame :=
  q.takeWhile (fun x => !isRequest x) ++ [f] ++ q.dropWhile (fun x => !isRequest x)

/-- The lowest-numbered UP port with RUN_MATCH of partition p in direction d; a spare only while it stands in for a lost
port (R316, R319) (DEDUCED, log entry 92). -/
def State.stagePort (s : State) (p d : Nat) : Option Nat :=
  (s.portsOf p).find? (fun n => travelDir n == d && (s.port n).open_ && (decide (portDir n < 6) || (s.port n).sub.isSome))

/-- Send entries of partition p in direction d (DEDUCED, log entry 92). -/
def State.sendStage (s : State) (p d : Nat) (es : List StageEntry) : State :=
  if es.isEmpty then s
  else
    match s.stagePort p d with
    | none => s
    | some n => s.modPort n (fun x => { x with
        sendQ := aheadOfRequests x.sendQ (mkFrame 0x10 (64 * ((es.length + 3) / 4)) 0 0 0 0 0 (.stage es)) })

/-! Stages. -/

/-- NORM_SCOPE of partition p, of the lowest of its stacks. -/
def State.normScope (s : State) (p : Nat) : Nat :=
  match s.stacksOf p with
  | [] => 7
  | k :: _ => (s.uep k p).param.normScope

/-- Does group g of partition p have a stage on an axis (R248, R318)? -/
def State.hasStage (s : State) (p g axis : Nat) : Bool :=
  decide (1 < s.boxExtent p axis) && (!(s.group g).reduce || (s.normScope p).testBit axis)

/-- The first stage at or after an axis in the order Z, Y, X. -/
def State.stageFrom (s : State) (p g : Nat) (axes : List Nat) : Option Nat := axes.find? (s.hasStage p g)

def axesAfter (axis : Nat) : List Nat := (List.range axis).reverse

/-- Entries a stage holds, by coordinate. -/
def Coll.held (x : Coll) (axis k : Nat) : Option StageEntry :=
  x.entries.find? (fun e => e.axis == axis && e.coord == k && e.phase == x.phase)

/-- Enter the stage of an axis with value v: the module's own entry is held and sent both ways (R318). -/
def State.enterStage (s : State) (p g axis : Nat) (v : Word) : State :=
  let x := s.coll g
  let me := s.axisCoord axis
  let e : StageEntry := ⟨(s.group g).reduce, g, axis, me, x.phase, if (s.group g).reduce then v else 0⟩
  let s1 := s.modColl g (fun y => { y with axis := some axis, value := v, entries := y.entries ++ [e] })
  let s2 := if s1.travelsOn p (2 * axis) me then s1.sendStage p (2 * axis) [e] else s1
  if s2.travelsOn p (2 * axis + 1) me then s2.sendStage p (2 * axis + 1) [e] else s2

/-- The collective ends with value v: the torus release (R318). -/
def State.endColl (s : State) (g : Nat) (v : Word) : State :=
  s.modColl g (fun y => { y with axis := none, value := v, release := some v })

/-- Go to the first of the given stages, or end. -/
def State.nextStage (s : State) (p g : Nat) (axes : List Nat) (v : Word) : State :=
  match s.stageFrom p g axes with
  | some a => s.enterStage p g a v
  | none => s.endColl g v

/-- Close the stage in progress when the entries of every module on the line are held: sum them from +0 in increasing
coordinate (R248) and go on. -/
def State.closeStage (s : State) (p g : Nat) : State :=
  let x := s.coll g
  match x.axis with
  | none => s
  | some a =>
    let es := (s.lineCoords p a).map (fun k => x.held a k)
    if es.any Option.isNone then s
    else
      let sum := sumFrom0 (es.filterMap (fun e => e.map (fun y => fw y.value)))
      let v := if (s.group g).reduce then sum.1 else 0
      let s1 := s.modColl g (fun y => { y with
        flags := y.flags ||| (if (s.group g).reduce then sum.2 else 0)
        entries := y.entries.filter (fun e => !(e.axis == a && e.phase == y.phase)) })
      s1.nextStage p g (axesAfter a) v

/-- Close stages as far as the entries held allow: at most the three axes. -/
def State.closeStages (s : State) (p g : Nat) : State := ((s.closeStage p g).closeStage p g).closeStage p g

/-- STAGE_ENTRY_SEND: group g of partition p is complete on this module; its control die starts the first stage, with the
module sum M or an arrival (R318, R320). A partition that has been stopped sends none (R24, R259). -/
def stageEntryEffect (p g : Nat) (s : State) : State :=
  let x := s.group g
  if s.groupOwner g ≠ some p ∨ !x.full ∨ !x.torus ∨ x.sent ∨ !(s.part p).running then s
  else
    let v := if x.reduce then x.sum.1 else 0
    let s1 := (s.modGroup g (fun y => { y with sent := true })).modColl g (fun y => { y with phase := x.phase, flags := 0, release := none })
    (s1.nextStage p g [2, 1, 0] v).closeStages p g

def execStageEntrySend (p g : Nat) (s : State) : Answer :=
  if p < 8 then onGroup g (stageEntryEffect p g s) else .fault (.noSuchElement "partition" p)

/-- The entries of a received STAGE frame: each goes on along its line and is copied to the control die (R318). `d` is the
direction it travels. -/
def State.takeStage (s : State) (p d : Nat) (es : List StageEntry) : State :=
  let mine := es.filter (fun e => e.axis == dirAxis d && s.groupOwner e.group == some p)
  let s1 := s.sendStage p d (mine.filter (fun e => s.travelsOn p d e.coord))
  mine.foldl (fun t e => (t.modColl e.group (fun y =>
    if y.entries.any (fun h => h.axis == e.axis && h.coord == e.coord && h.phase == e.phase) then y
    else { y with entries := y.entries ++ [e] })).closeStages p e.group) s1

end Sys2Proof.Machine
end

