-- ==== Sys2Proof/Machine/Ports.lean ====
section
/-! DEFINITION. The optical ports: frames and their acceptance, delivery, credits and replay (R289 to R298), sessions (R303
to R312), loss of light, training, lanes and lost ports (R307 to R315), TIME frames (R323) and the port flags (R327). -/

namespace Sys2Proof.Machine

open Sys2Proof

/-- Guard of a command that names an optical port. -/
def onPort (n : Nat) (t : State) : Answer := onNumber "optical port" 256 n t

/-! Sending. -/

/-- RTT of a port in ns (R293). -/
def Port.rtt (x : Port) : Nat := 420 + 2 * x.fibreNs

/-- Send an unsequenced frame: its own counter, the ACK and the credits owed (R289, R290, R294). -/
def State.sendUnseq (s : State) (n ty len : Nat) (pl : Payload) : State :=
  let x := s.port n
  let rq := min x.oweReq 0xFFFF
  let rs := min x.oweRsp 0xFFFF
  let f : Frame := { (mkFrame ty len 0 0 0 0 0 pl) with
    seq := x.uSeq, ack := x.rxSeq, creditReq := rq, creditRsp := rs, unseq := true, gen := x.txGen }
  let wrap := decide (x.uSeq + 1 = 2 ^ 32)
  (s.modPort n (fun y => { y with
    uSeq := if wrap then 0 else y.uSeq + 1
    txGen := if wrap then y.txGen + 1 else y.txGen
    ackSent := x.rxSeq
    oweReq := y.oweReq - rq, oweRsp := y.oweRsp - rs })).emit (.frame n f)

/-- Does a frame draw on the request pool (R294)? -/
def Port.creditFor (x : Port) (f : Frame) : Bool :=
  if isRequest f then decide (frameCredits f ≤ x.creditReq) else decide (frameCredits f ≤ x.creditRsp)

/-- The next frame to send, with its place: the first request or the first frame of the response pool, whichever stands
earlier and has credit (R294, R295). -/
def Port.nextFrame (x : Port) : Option (Frame × Nat) :=
  let firstOf (t : Frame → Bool) : Option (Frame × Nat) := x.sendQ.zipIdx.find? (fun fi => t fi.1)
  let a := (firstOf isRequest).filter (fun fi => x.creditFor fi.1)
  let b := (firstOf (fun f => !isRequest f)).filter (fun fi => x.creditFor fi.1)
  match a, b with
  | some p, some q => if p.2 ≤ q.2 then some p else some q
  | some p, none => some p
  | none, q => q

def Port.replayBytes (x : Port) : Nat := x.replay.foldl (fun acc f => acc + frameBytes f.1) 0

/-- The queued frame that may leave now: the session has RUN_MATCH, and the replay buffer has room for it (R293, R306). -/
def Port.readyFrame (x : Port) : Option (Frame × Nat) :=
  if x.runMatch then x.nextFrame.filter (fun fi => decide (x.replayBytes + frameBytes fi.1 ≤ 524288)) else none

/-- FRAME_SEND: a queued frame is numbered, takes its credits, is kept for replay and leaves; with none to leave, an ACK frame reports
what the partner has not been told of: frames accepted and space freed (R290, R293, R294) (DEDUCED, log entry 90). -/
def frameSendEffect (n : Nat) (s : State) : State :=
  let x := s.port n
  if x.state ≠ 3 then s
  else
    match x.readyFrame with
    | none => if x.oweReq = 0 ∧ x.oweRsp = 0 ∧ x.ackSent = x.rxSeq then s else s.sendUnseq n 0x20 0 .empty
    | some fi =>
      let rq := min x.oweReq 0xFFFF
      let rs := min x.oweRsp 0xFFFF
      let f : Frame := { fi.1 with seq := x.txSeq, ack := x.rxSeq, creditReq := rq, creditRsp := rs, gen := x.txGen }
      let wrap := decide (x.txSeq + 1 = 2 ^ 32)
      (s.modPort n (fun y => { y with
        sendQ := y.sendQ.eraseIdx fi.2
        replay := y.replay ++ [(f, 1)]
        ackAt := if y.replay.isEmpty then s.localNs else y.ackAt
        txSeq := if wrap then 0 else y.txSeq + 1
        txGen := if wrap then y.txGen + 1 else y.txGen
        uSeq := if wrap then 0 else y.uSeq
        creditReq := if isRequest f then y.creditReq - frameCredits f else y.creditReq
        creditRsp := if isRequest f then y.creditRsp else y.creditRsp - frameCredits f
        ackSent := x.rxSeq
        oweReq := y.oweReq - rq, oweRsp := y.oweRsp - rs })).emit (.frame n f)

def execFrameSend (n : Nat) (s : State) : Answer := onPort n (frameSendEffect n s)

/-! Sessions lost, ports lost, retrains. -/

def portElement (cls n : Nat) : Nat := elemCode cls n

/-- PORT_LANES as a word (R327). -/
def Port.lanesWord (x : Port) : Nat :=
  let ok (bad : List Nat) : Nat := (List.range 9).foldl (fun acc i => if bad.contains i then acc else acc + 2 ^ i) 0
  ok x.rxBad + 2 ^ 9 * x.rxSpared.getD 0 + 2 ^ 12 * b2n x.rxSpared.isSome
    + 2 ^ 13 * ok x.txBad + 2 ^ 22 * x.txSpared.getD 0 + 2 ^ 25 * b2n x.txSpared.isSome

/-- A session is lost (R311, R321): keys, queues and PEER_COMMITTED go; every outstanding request is answered with
PORT_DOWN; the owning partition needs a re-bind (R312) and stops at its step boundary. -/
def State.sessionLost (s : State) (n : Nat) : State :=
  let x := s.port n
  let s1 := x.reqs.foldl (fun t r => t.modCtx (r.ctx / 4) (r.ctx % 4) (fun y => y.answer r.idx 6 [])) s
  let s2 := s1.modPort n (fun y => { y with
    state := 6, since := s.localNs, keyed := false, runMatch := false, sendQ := [], replay := [], held := [], reqs := [],
    peerCommitted := 0, peerCommitValid := false, gapAt := none, oweReq := 0, oweRsp := 0, timeIn := none, timeSent := none })
  let s3 := s2.log 0x0D 1 (partNo (s.portOwner n)) 0 8 (portElement 0x0D n) (BitVec.ofNat 32 x.lanesWord)
  let s4 := if s3.torusTime.parent = some n then s3.selectParent else s3
  match s.portOwner n with
  | some p => s4.modBind p (fun b => { b with rebindNeeded := true })
  | none => s4

/-- A port that holds a session loses it; any other is left as it is. -/
def State.dropSession (s : State) (n : Nat) : State := if (s.port n).keyed then s.sessionLost n else s

/-- A port retrains (R313). -/
def State.retrain (s : State) (n : Nat) : State :=
  (s.modPort n (fun x => { x with state := 4, since := s.localNs, retrainSeen := true })).count (counterKey 0x5120 4 n) 1

/-- A port is lost (R315): RETIRED, its session lost, its retirement recorded. -/
def State.portLost (s : State) (n : Nat) : State :=
  let s1 := (s.dropSession n).modPort n (fun x => { x with state := 7, since := s.localNs })
  (s1.elementEvent (portElement 0x0E n) .single false (s.portOwner n) 0 0 (BitVec.ofNat 32 (s.port n).lanesWord)).1

/-- ELEMENT of grid position `pos` of port n, received or sent (Table 12.7). -/
def opticalLane (n : Nat) (send : Bool) (pos : Nat) : Nat := elemCode 0x0C (n + 256 * b2n send + 512 * pos)

/-- Lanes of a direction already steered to position 8. -/
def Port.spared (x : Port) (send : Bool) : Option Nat := if send then x.txSpared else x.rxSpared

/-- A lane of a direction of port n must be retired (R314, R315): the second one loses the port; else the port retrains at
once. -/
def State.laneRetired (s : State) (n : Nat) (send : Bool) : State :=
  match (s.port n).spared send with
  | some _ => s.portLost n
  | none => s.retrain n

/-- Grid position that carries a lane. -/
def Port.position (x : Port) (send : Bool) (lane : Nat) : Nat := if x.spared send = some lane then 8 else lane

/-! Receiving. -/

/-- Take the ACK and the credits of a frame's header (R289, R293, R294). -/
def State.takeHeader (s : State) (n : Nat) (f : Frame) : State :=
  let covered (q : Frame) : Bool :=
    let d := (f.ack + 2 ^ 32 - q.seq) % 2 ^ 32
    decide (0 < d) && decide (d < 2 ^ 31)
  s.modPort n (fun x =>
    let left := x.replay.filter (fun q => !covered q.1)
    { x with
      replay := left
      ackAt := if left.length < x.replay.length then s.localNs else x.ackAt
      creditReq := x.creditReq + f.creditReq
      creditRsp := x.creditRsp + f.creditRsp })

/-- NAK carrying the expected SEQ (R292). -/
def State.sendNak (s : State) (n : Nat) : State :=
  (s.sendUnseq n 0x21 0 .empty).modPort n (fun x => { x with gapAt := some s.localNs })

/-- An uncorrectable codeword on a lane (R314). -/
def State.codewordBad (s : State) (n lane : Nat) : State :=
  let x := s.port n
  let s1 := (s.modPort n (fun y => { y with cwUncorr := satInc 16 y.cwUncorr })).count (counterKey 0x5120 2 n) 1
  let r := s1.elementEvent (opticalLane n false (x.position false lane)) .marking true (s.portOwner n) 0 1
    (BitVec.ofNat 32 x.lanesWord)
  if r.2 then r.1.laneRetired n false else r.1

/-- A tag failure on a frame whose codewords were all correctable: the third in the window loses the session (R310). -/
def State.tagFailed (s : State) (n : Nat) : State :=
  let x := s.port n
  let s1 := (s.modPort n (fun y => { y with authFail := satInc 16 y.authFail })).count (counterKey 0x5120 3 n) 1
  let r := s1.elementEvent (portElement 0x0D n) .plain true (s.portOwner n) 0 1 (BitVec.ofNat 32 x.lanesWord)
  if r.2 then (r.1.modPort n (fun y => { y with authSeen := true })).sessionLost n else r.1

/-- What the checks of R292 make of a received frame: none when it is rejected, with the state after its rejection. -/
def State.screen (s : State) (n : Nat) (f : Frame) (rx : RxCheck) (sequenced : Bool) : Bool × State :=
  let nak (t : State) : State := if sequenced && (t.port n).state == 3 then t.sendNak n else t
  match rx.badLane with
  | some l => (false, nak (s.codewordBad n l))
  | none =>
    if !rx.tagOk then (false, nak (s.tagFailed n))
    else if !sequenced then (true, s.takeHeader n f)
    else if f.seq ≠ (s.port n).rxSeq then
      (false, if (s.port n).gapAt.isSome then s else nak s)
    else
      (true, (s.takeHeader n f).modPort n (fun x => { x with
        rxSeq := (x.rxSeq + 1) % 2 ^ 32, rxGen := f.gen, gapAt := none }))

/-- A frame received on an UP port, screened and then served. -/
def onFrame (n : Nat) (f : Frame) (rx : RxCheck) (sequenced : Bool) (serve : State → State) (s : State) : Answer :=
  onPort n (
    if (s.port n).state ≠ 3 then s
    else
      let r := s.screen n f rx sequenced
      if r.1 then serve r.2 else r.2)

/-! Frames of the response pool free their space as soon as they are taken. -/

def State.freeResponse (s : State) (n : Nat) (f : Frame) : State :=
  s.modPort n (fun x => { x with oweRsp := x.oweRsp + frameCredits f })

/-- A response reaches the context that issued the request of its TAG (R222 to R224, R300). Read data for a context of another cluster
goes there from the port's attach cluster as elastic flits, under the context's number (R154; DESIGN CHOICE, log entry 78); a context of a
partition that no longer runs discards it (R217). -/
def State.takeResponse (s : State) (n : Nat) (f : Frame) (data : List PWord) : State :=
  match (s.port n).reqs.find? (fun r => r.tag == f.tag) with
  | none => s
  | some r =>
    let s1 := s.modPort n (fun x => { x with reqs := x.reqs.filter (fun q => q.tag != f.tag) })
    let c := r.ctx / 4
    let p := partNo (s.ownerOf c)
    if f.status ≠ statusOk ∨ data = [] ∨ attachCluster n = c ∨ !(s.part p).running then
      s1.modCtx c (r.ctx % 4) (fun y => y.answer r.idx (if f.status = statusOk then 0 else 7) data)
    else s1.departFlits (attachCluster n) (r.ctx % 4) p data (fun last => .toCtx r.ctx r.idx last)

/-- RD_REQ: at most 512 B of the store to read (R300). -/
def execRdReq (n : Nat) (f : Frame) (rx : RxCheck) (s : State) : Answer :=
  onFrame n f rx true (fun t => t.acceptRequest n { f with ty := 0x01 }) s

/-- RD_DATA (R223, R298) (DEDUCED, log entry 103). -/
def execRdData (n : Nat) (f : Frame) (rx : RxCheck) (s : State) : Answer :=
  onFrame n f rx true (fun t =>
    ((t.takeResponse n f (frameWords f)).freeResponse n f).count (counterKey 0x5011 5 0) ((frameWords f).countP PWord.poison)) s

/-- WR (R300). -/
def execWr (n : Nat) (f : Frame) (rx : RxCheck) (s : State) : Answer :=
  onFrame n f rx true (fun t => t.acceptRequest n { f with ty := 0x03 }) s

/-- RED (R229, R300). -/
def execRed (n : Nat) (f : Frame) (rx : RxCheck) (s : State) : Answer :=
  onFrame n f rx true (fun t => t.acceptRequest n { f with ty := 0x04 }) s

/-- SEND (R302). -/
def execSendFrame (n : Nat) (f : Frame) (rx : RxCheck) (s : State) : Answer :=
  onFrame n f rx true (fun t => t.acceptRequest n { f with ty := 0x05 }) s

/-- RESP (R224). -/
def execResp (n : Nat) (f : Frame) (rx : RxCheck) (s : State) : Answer :=
  onFrame n f rx true (fun t => (t.takeResponse n f []).freeResponse n f) s

/-- STAGE (R318): entries travel the direction opposite to the side they came in by. Without RUN_MATCH a session carries
none (R306). -/
def execStage (n : Nat) (f : Frame) (rx : RxCheck) (s : State) : Answer :=
  onFrame n f rx true (fun t =>
    let t1 := t.freeResponse n f
    match (t.port n).runMatch, t.portOwner n, f.payload with
    | true, some p, .stage es => t1.takeStage p (if travelDir n % 2 = 0 then travelDir n + 1 else travelDir n - 1) es
    | _, _, _ => t1) s

/-- COMMIT_FRAME (R321). -/
def execCommitFrame (n : Nat) (f : Frame) (rx : RxCheck) (s : State) : Answer :=
  onFrame n f rx true (fun t =>
    let t1 := t.freeResponse n f
    match (t.port n).runMatch, f.payload with
    | true, .commit v _ _ _ _ => t1.modPort n (fun x => { x with peerCommitted := v, peerCommitValid := true })
    | _, _ => t1) s

/-- ACK (R293, R294). -/
def execAck (n : Nat) (f : Frame) (rx : RxCheck) (s : State) : Answer := onFrame n f rx false id s

/-! Replay (R293). -/

/-- Resend every unacknowledged frame from the oldest; a sixth sending starts a retrain instead. -/
def State.goBack (s : State) (n : Nat) : State :=
  let x := s.port n
  if x.replay.isEmpty then s
  else if x.replay.any (fun q => decide (5 ≤ q.2)) then s.retrain n
  else
    let s1 := (s.modPort n (fun y => { y with
      replay := y.replay.map (fun q => (q.1, q.2 + 1)), ackAt := s.localNs, replays := satInc 16 y.replays })).count
        (counterKey 0x5120 1 n) 1
    x.replay.foldl (fun t q => t.emit (.frame n q.1)) s1

/-- NAK (R293). -/
def execNak (n : Nat) (f : Frame) (rx : RxCheck) (s : State) : Answer := onFrame n f rx false (fun t => t.goBack n) s

/-- NAK_REPEAT: every 1 us while the gap persists (R292). -/
def nakRepeatEffect (n : Nat) (s : State) : State :=
  match (s.port n).gapAt with
  | none => s
  | some t => if (s.port n).state ≠ 3 then s else (s.atNs (t + 1000)).sendNak n

def execNakRepeat (n : Nat) (s : State) : Answer := onPort n (nakRepeatEffect n s)

/-- REPLAY_TIMEOUT: ACK has not advanced for RTT + 2 us while frames are outstanding (R293). -/
def replayTimeoutEffect (n : Nat) (s : State) : State :=
  let x := s.port n
  if x.state ≠ 3 || x.replay.isEmpty then s else (s.atNs (x.ackAt + x.rtt + 2000)).goBack n

def execReplayTimeout (n : Nat) (s : State) : Answer := onPort n (replayTimeoutEffect n s)

/-! Torus time (R323). -/

/-- TIME_FRAME: never replayed; a corrupt one is dropped. `t4` is the local arrival time. -/
def execTimeFrame (n : Nat) (f : Frame) (rx : RxCheck) (t4 : Nat) (s : State) : Answer :=
  onFrame n f rx false (fun t =>
    match f.payload with
    | .time q => t.takeTime n t4 q
    | _ => t) s

/-- TIME_SEND: every UP port, every 100 us. -/
def timeSendEffect (n : Nat) (s : State) : State :=
  if (s.port n).state ≠ 3 then s
  else
    let s1 := match (s.port n).timeSent with
      | none => s
      | some t => s.atNs (t + 100000)
    let i := (s1.port n).timeIn
    let t := s1.torusTime
    let q : TimePl :=
      { tTx := s1.ttNs.toNat, echoTx := (i.map TimeIn.tTx).getD 0, echoRx := (i.map TimeIn.rx).getD 0, epoch := t.epoch,
        depth := t.depth, isRoot := t.root, holdover := t.holdover, rootTag := t.rootTag }
    (s1.sendUnseq n 0x22 64 (.time q)).modPort n (fun x => { x with timeSent := some s1.localNs })

def execTimeSend (n : Nat) (s : State) : Answer := onPort n (timeSendEffect n s)

/-! Sessions. -/

/-- RUN_ID of the partition that owns a port, or 0 (R303, R381). -/
def State.runIdOf (s : State) (n : Nat) : BitVec 64 :=
  match s.portOwner n with
  | some p => (s.owner p).runId
  | none => 0

/-- TORUS_ID (0x3800.01). -/
def State.torusId (s : State) : BitVec 128 := BitVec.ofNat 128 (s.setting 0x3800 1)

/-- The random high half of a port's epochs: one draw per cold power-on (R303; DESIGN CHOICE, log entry 31). -/
def State.epochSalt (s : State) (n : Nat) : Nat := Config.random 0 (s.faults.boot * 256 + n) % 2 ^ 32

/-- Bytes of the module's certificate chain, and of the ML-KEM-1024 key it makes for a session of a port (R303; DESIGN CHOICE, log entry
36). -/
def ownChain : List Byte := (List.range Config.chainLength).map (Config.colophonByte 6)
def sessionKey (n : Nat) (epoch : BitVec 64) : List Byte :=
  (List.range 1568).map (Config.encapKey (BitVec.ofNat 256 (n * 2 ^ 64 + epoch.toNat)))

/-- Begin a handshake: a new epoch, the buffers zeroed, sequence numbers and credits fresh, HELLO sent (R294, R303,
R326). -/
def State.beginSession (s : State) (n : Nat) : State :=
  let c := s.coord
  let k := (s.port n).begun + 1
  let e := BitVec.ofNat 64 (s.epochSalt n * 2 ^ 32 + k % 2 ^ 32)
  let h : Hello := { identity := s.trust.identity, valid := true, lifecycle := s.trust.lifecycle, torusId := s.torusId,
                     x := c.1, y := c.2.1, z := c.2.2, runId := s.runIdOf n, epoch := e, chain := ownChain, kemKey := sessionKey n e }
  (s.modPort n (fun x => { x with
    state := 2, since := s.localNs, begun := k, localEpoch := e, keyed := false, runMatch := false, partner := none,
    txSeq := 0, txGen := 0, rxSeq := 0, rxGen := 0, uSeq := 0, sendQ := [], replay := [], held := [], reqs := [],
    creditReq := poolReq, creditRsp := poolRsp, oweReq := 0, oweRsp := 0, ackSent := 0, gapAt := none, timeIn := none, timeSent := none,
    refuse := 0 })).emit
      (.frame n (mkFrame 0x30 0 0 0 0 0 0 (.hello h)))

/-- Why a HELLO is refused: REFUSE of R304, or 0. An all-zero TORUS_ID refuses every partner (R502) (DEDUCED, log entry 104). -/
def State.refuseCode (s : State) (n : Nat) (h : Hello) : Nat :=
  if !h.valid then 1
  else if s.torusId = 0 ∨ h.torusId ≠ s.torusId then 2
  else if (h.x, h.y, h.z) ≠ s.partnerCoord n then 3
  else if h.lifecycle ≠ 2 then 4
  else 0

/-- A session is refused: FAULTED with its cause, retried every 1 s (R304). -/
def State.refuseSession (s : State) (n code : Nat) : State :=
  s.modPort n (fun x => { x with state := 6, refuse := code, since := s.localNs, keyed := false })

/-- Does this end encapsulate to its partner: the larger identity (R303)? -/
def State.encapsulates (s : State) (h : Hello) : Bool := decide (h.identity.toNat < s.trust.identity.toNat)

/-- A ML-KEM-1024 ciphertext. -/
def cipherOf (key : List Byte) : List Byte := (List.range 1568).map (Config.encapsulated key)

/-- SESSION_HELLO: during a handshake it is accepted or refused (R303 to R305, R383); the larger identity encapsulates, has the keys, and
sends FINISH with the ciphertext, the other waits for it (DEDUCED, log entry 104). On a port that still keeps a session it is never
spliced in (R309) (DESIGN CHOICE, log entry 36). -/
def helloEffect (n : Nat) (h : Hello) (s : State) : State :=
  let x := s.port n
  if x.keyed && (x.state == 3 || x.state == 4 || x.state == 5) then
    (s.modPort n (fun y => { y with newEpochSeen := true })).sessionLost n
  else if x.state ≠ 2 then s
  else
    let code := s.refuseCode n h
    if code ≠ 0 then s.refuseSession n code
    else
      let s1 := s.modPort n (fun y => { y with partner := some h, partnerEpoch := h.epoch, keyed := s.encapsulates h })
      if s.encapsulates h then s1.emit (.frame n (mkFrame 0x30 0 0 0 0 0 0 (.finish true (some (cipherOf h.kemKey))))) else s1

def execSessionHello (n : Nat) (f : Frame) (s : State) : Answer :=
  onPort n (match f.payload with
    | .hello h => helloEffect n h s
    | _ => s)

/-- Is a binding of a partition loaded (Table 16.6)? -/
def State.bindingLoaded (s : State) (p : Nat) : Bool := (s.bind p).image.isSome

/-- SESSION_FINISH: a FINISH that opens and carries TH, with the ciphertext where the partner is to encapsulate, completes the handshake
(R303, R306, R383), the smaller identity answering with its own; any other refuses it with REFUSE 1. A session that gains RUN_MATCH while a binding is loaded sends the commit notice (R321). Data sessions are for
the state OPERATIONAL (Table 13.4) (DEDUCED, log entry 96; DEDUCED, log entry 104). -/
def finishEffect (n : Nat) (opens : Bool) (cipher : Option (List Byte)) (s : State) : State :=
  let x := s.port n
  match x.partner with
  | none => s
  | some h =>
    if x.state ≠ 2 then s
    else if !opens || (!s.encapsulates h && cipher.isNone) then s.refuseSession n 1
    else
      let run := s.runIdOf n
      let ok := decide (run ≠ 0) && run == h.runId && s.trust.lifecycle == 2
      let s0 := s.modPort n (fun y => { y with state := 3, since := s.localNs, keyed := true, runMatch := ok, refuse := 0 })
      let s1 := if s.encapsulates h then s0 else s0.emit (.frame n (mkFrame 0x30 0 0 0 0 0 0 (.finish true none)))
      match s.portOwner n with
      | some p => if ok && s.bindingLoaded p then s1.sendNotice p n else s1
      | none => s1

def execSessionFinish (n : Nat) (f : Frame) (s : State) : Answer :=
  onPort n (match f.payload with
    | .finish opens cipher => finishEffect n opens cipher s
    | _ => s)

/-- RESUME: the session goes on when the partner's RESUME authenticates and both epochs match, with a go-back replay from its
ACK (R308); otherwise it is lost (R309). -/
def resumeEffect (n : Nat) (f : Frame) (rx : RxCheck) (s : State) : State :=
  let x := s.port n
  if x.state ≠ 4 || !x.keyed then s
  else
    match f.payload with
    | .resume le pe a =>
      if rx.badLane.isNone && rx.tagOk && le == x.partnerEpoch && pe == x.localEpoch then
        let s1 := (s.takeHeader n { f with ack := a }).modPort n (fun y => { y with
          state := 3, since := s.localNs, replay := y.replay.map (fun q => (q.1, 0)) })
        s1.goBack n
      else (s.modPort n (fun y => { y with newEpochSeen := true })).sessionLost n
    | _ => s

def execResume (n : Nat) (f : Frame) (rx : RxCheck) (s : State) : Answer := onPort n (resumeEffect n f rx s)

/-! Light (R307 to R309, R314). -/

/-- LOSS_OF_LIGHT on every lane in use: a port with a session waits for light; any other only reports it (DEDUCED, log entry 91). -/
def lossEffect (n : Nat) (s : State) : State :=
  let x := s.port n
  if x.los || x.state == 0 || x.state == 7 then s
  else
    let s1 := (s.modPort n (fun y => { y with los := true })).count (counterKey 0x5120 5 n) 1
    if x.keyed && (x.state == 3 || x.state == 4) then
      s1.modPort n (fun y => { y with state := 5, since := s.localNs })
    else s1

def execLossOfLight (n : Nat) (s : State) : Answer := onPort n (lossEffect n s)

/-- LOS_TIMEOUT: the timer of 0x3801.01, in us, expires (R307, R311). -/
def losTimeoutEffect (n : Nat) (s : State) : State :=
  let x := s.port n
  if x.state ≠ 5 then s else (s.atNs (x.since + 1000 * s.setting 0x3801 1)).sessionLost n

def execLosTimeout (n : Nat) (s : State) : Answer := onPort n (losTimeoutEffect n s)

/-- LIGHT_RETURN: within the timer the port retrains (R308); a FAULTED port trains (Table 10.6). -/
def lightReturnEffect (n : Nat) (s : State) : State :=
  let x := s.port n
  if !x.los then s
  else
    let s1 := s.modPort n (fun y => { y with los := false })
    if x.state = 5 then s1.retrain n
    else if x.state = 6 ∧ x.refuse = 0 then s1.modPort n (fun y => { y with state := 1, since := s.localNs, trainFails := 0 })
    else s1

def execLightReturn (n : Nat) (s : State) : Answer := onPort n (lightReturnEffect n s)

/-- LANE_LOSS_OF_LIGHT: one lane alone loses light; it is retired at its first event (R314, R355). -/
def laneLossEffect (n : Nat) (send : Bool) (pos : Nat) (s : State) : State :=
  let x := s.port n
  let inUse := if pos = 8 then (x.spared send).isSome else x.spared send != some pos
  if !(x.state == 3 || x.state == 4) || !inUse then s
  else
    let r := s.elementEvent (opticalLane n send pos) .single true (s.portOwner n) 0 0 (BitVec.ofNat 32 x.lanesWord)
    if r.2 then r.1.laneRetired n send else r.1

def execLaneLossOfLight (n : Nat) (send : Bool) (pos : Nat) (s : State) : Answer :=
  if pos < 9 then onPort n (laneLossEffect n send pos s) else .fault (.noSuchElement "grid position" pos)

/-! Training (Table 10.7). -/

/-- The lane a direction must carry on position 8 after a training: one already steered there, one whose retirement record
is committed, or one found bad; none; or more than one, which loses the port (R314, R315, R356). -/
def State.lanesOut (s : State) (n : Nat) (send : Bool) (bad : List Nat) : List Nat :=
  (List.range 8).filter (fun i =>
    (s.port n).spared send == some i || bad.contains i || (s.pendingRec (opticalLane n send i)).isSome)

/-- Agree the lane map of one direction; spares take effect and their records say so (DEDUCED, log entry 94). -/
def State.steer (s : State) (n : Nat) (send : Bool) (bad : List Nat) : State :=
  match s.lanesOut n send bad with
  | [] => s.modPort n (fun x => if send then { x with txBad := bad.filter (· == 8) } else { x with rxBad := bad.filter (· == 8) })
  | l :: _ =>
    let s1 := s.modPort n (fun x =>
      if send then { x with txBad := [l], txSpared := some l } else { x with rxBad := [l], rxSpared := some l })
    if (s1.pendingRec (opticalLane n send l)).isSome then s1.closeRecord (opticalLane n send l) 1 6 else s1

/-- Cannot a direction be carried: two lanes out, or one out and position 8 bad? -/
def State.noWay (s : State) (n : Nat) (send : Bool) (bad : List Nat) : Bool :=
  let out := s.lanesOut n send bad
  decide (1 < out.length) || (!out.isEmpty && bad.contains 8)

/-- A trained port's recovered clock is ready again, and its receive side runs from it (R429, R431) (DEDUCED, log entry 124). -/
def State.recoverClock (s : State) (n : Nat) : State :=
  { s with clk := { s.clk with
    notReady := s.clk.notReady.filter (· != 117 + n), selectors := mapErase s.clk.selectors (117 + n) } }

/-- PORT_TRAINING_DONE (R313, R315): a kept session exchanges RESUME, otherwise the handshake begins. Three failures in
succession lose the port (DEDUCED, log entry 90; DEDUCED, log entry 94). -/
def trainingEffect (n : Nat) (t : TrainEnd) (s : State) : State :=
  let x := s.port n
  let training := x.state == 1 || x.state == 4 || (x.state == 6 && !x.los && x.refuse == 0)
  if !training then s
  else
    match t with
    | .failed =>
      if x.trainFails + 1 ≥ 3 then s.portLost n
      else s.modPort n (fun y => { y with trainFails := y.trainFails + 1 })
    | .trained fibre badRx badTx =>
      if s.noWay n false badRx || s.noWay n true badTx then s.portLost n
      else
        let s1 := ((s.steer n false badRx).steer n true badTx).modPort n (fun y => { y with
          trainFails := 0, fibreNs := fibre % 65536 })
        let s2 := s1.recoverClock n
        if x.state = 4 ∧ x.keyed then
          s2.sendUnseq n 0x31 64 (.resume x.localEpoch x.partnerEpoch x.rxSeq)
        else s2.beginSession n

def execPortTrainingDone (n : Nat) (t : TrainEnd) (s : State) : Answer := onPort n (trainingEffect n t s)

/-- PORT_RETRAIN_TIMEOUT: a retrain that exceeds 20 ms loses the port (R315). -/
def retrainTimeoutEffect (n : Nat) (s : State) : State :=
  let x := s.port n
  if x.state ≠ 4 then s else (s.atNs (x.since + 20000000)).portLost n

def execPortRetrainTimeout (n : Nat) (s : State) : Answer := onPort n (retrainTimeoutEffect n s)

/-- REFUSED_RETRY: a refused port trains and handshakes again after 1 s (R304, Table 10.6). -/
def refusedRetryEffect (n : Nat) (s : State) : State :=
  let x := s.port n
  if x.state ≠ 6 || x.refuse == 0 || x.los then s
  else
    let s1 := s.atNs (x.since + 1000000000)
    s1.modPort n (fun y => { y with state := 1, since := s1.localNs, refuse := 0, trainFails := 0 })

def execRefusedRetry (n : Nat) (s : State) : Answer := onPort n (refusedRetryEffect n s)

/-- PORT_RETRAIN_REQUEST through 0x3803.01: a port that is not UP is refused (R313, R502). -/
def execPortRetrainRequest (n : Nat) (who : MCore) (s : State) : Answer :=
  onPort n (s.guarded who (if (s.port n).state = 3 then s.retrain n else s))

/-- The W1C flags of a port after a write of `v` with hardware setting `hw`, numbered as in 0x3803.02 (R13). -/
def Port.clearFlags (x : Port) (v hw : Word) : Port :=
  { x with newEpochSeen := w1c x.newEpochSeen v hw 8, authSeen := w1c x.authSeen v hw 9, retrainSeen := w1c x.retrainSeen v hw 10 }

/-- PORT_FLAG_CLEAR through 0x3803.02: [7:0] port, [8] NEW_EPOCH_SEEN, [9] AUTH_SEEN, [10] RETRAIN_SEEN; a bit the hardware
sets in the same cycle stays set (R13, R327). -/
def execPortFlagClear (v hwSet : Word) (who : MCore) (s : State) : Answer :=
  let n := v.toNat % 256
  let s0 := s.modPort n (fun x => x.clearFlags 0 hwSet)
  .next (s0.guarded who (if v.toNat < 2048 then s.modPort n (fun x => x.clearFlags v hwSet) else s0))

end Sys2Proof.Machine
end

