-- ==== Sys2Proof/Machine/Retire.lean ====
section
/-! DEFINITION. Retirement (R69 to R71, R155 to R160, R204, R316, R356 to R359): how a spare takes an element's place, at a
warm re-bind or at once for an element that nobody owns, and what happens when no spare is left. -/

namespace Sys2Proof.Machine

open Sys2Proof

/-! Elements. -/

def elemClass (e : Nat) : Nat := e / 2 ^ 56
/-- Physical slot named by the row and column fields of a code (Table 12.7). -/
def elemSlot (e : Nat) : Nat := bitsN e 12 7 * 66 + bitsN e 6 0
def elemStack (e : Nat) : Nat := bitsN e 4 0
def elemPage (e : Nat) : Nat := bitsN e 19 5

/-- Physical slots a domain feeds. -/
def State.domainSlots (s : State) (d : Nat) : List Nat := (domainClusters s.power.mode d).map s.physSlot

/-- Is an element one that partition p's stop lets retire: in one of its rows, its pages, its stacks or its ports? -/
def State.elemOf (s : State) (p e : Nat) : Bool :=
  let cls := elemClass e
  if cls = 0x0F then (domainClusters s.power.mode (bitsN e 11 0)).any (s.owns p)
  else if cls = 0x09 then s.pageOwner (elemStack e) (elemPage e) == some p
  else if cls = 0x0A ∨ cls = 0x0B ∨ cls = 0x11 then s.ownsPages (elemStack e) p
  else if cls = 0x0E then s.portOwner (bitsN e 7 0) == some p
  else s.pmap.bandOwner.getD (bitsN e 12 7 / 8) 255 == p

/-- Does any partition own the element? -/
def State.elemOwned (s : State) (e : Nat) : Bool := (List.range 8).any (fun p => s.elemOf p e)

/-- Order of R357: domains, stacks, pages, cluster slots, core slots; ports last. -/
def retireRank (e : Nat) : Nat :=
  let cls := elemClass e
  if cls = 0x0F then 0 else if cls = 0x0A ∨ cls = 0x0B ∨ cls = 0x11 then 1 else if cls = 0x09 then 2
  else if cls = 0x01 then 4 else if cls = 0x0E then 5 else 3

/-! SPARE_EXHAUSTED. -/

/-- 0x4400.05: some partition awaits recompilation, or a page stays in service without a spare (R160, R204, R358, R367)
(DESIGN CHOICE, log entry 83). -/
def State.spareExhausted (s : State) : Bool :=
  !s.faults.exhausted.isEmpty || s.faults.recs.any (fun r => r.state == 2 && elemClass r.element == 0x09)

/-- An element has no spare (R358): its record says so, and the given partitions await recompilation (DESIGN CHOICE, log entry 83). -/
def State.exhaust (s : State) (ps : List Nat) (element : Nat) : State :=
  let s1 := s.closeRecord element 2 7
  let s2 := { s1 with faults := { s1.faults with exhausted := s1.faults.exhausted ++ ps.filter (fun p => !s1.faults.exhausted.contains p) } }
  if s2.spareExhausted && !s.spareExhausted then s2.raiseEvent 4 0x4400 5 [element] else s2

/-! Cluster slots. -/

/-- The guard map of a row with column `col` retired: none when two retired slots stand in the row already (R159). -/
def retireGuard (g : RowGuard) (col : Nat) : Option RowGuard :=
  if g.spareA = col then some { g with aRetired := true }
  else if g.spareB = col then some { g with bRetired := true }
  else if g.aRetired && g.bRetired then none
  else
    let dist (a : Nat) : Nat := if a ≤ col then col - a else a - col
    let releaseA : Bool := if g.aRetired then false else if g.bRetired then true else decide (dist g.spareA ≤ dist g.spareB)
    let keep := if releaseA then (g.spareB, g.bRetired) else (g.spareA, g.aRetired)
    if keep.1 < col then some ⟨keep.1, col, keep.2, true⟩ else some ⟨col, keep.1, true, keep.2⟩

/-- Would a logical cluster of row r be unreachable under a guard map (R160): without a powered slot, or with a hop that would use the
wires of a lost link direction (R168, R403)? The bypass stages reach every slot that R155 gives. -/
def State.rowUnreachable (s : State) (r : Nat) (g : RowGuard) : Bool :=
  let slotOf (c : Nat) : Nat := if c / 64 = r then 66 * r + physCol g (c % 64) else s.physSlot c
  let lost (a d b : Nat) : Bool := mapGet (natD 0) s.fabric.lost (a * 4 + d) == b + 1
  (List.range 64).any (fun k =>
    let c := 64 * r + k
    (s.domain (domainOf s.power.mode c)).defective || (List.range 4).any (fun d =>
      match neighbour c d with
      | none => false
      | some n => lost (slotOf c) d (slotOf n) || lost (slotOf n) (opposite d) (slotOf c)))

/-- Retire a physical slot: the state with the row remapped, or none when R160 applies. -/
def State.retireSlot (s : State) (slot : Nat) : Option State :=
  let r := slot / 66
  let g := s.rowGuard r
  match retireGuard g (slot % 66) with
  | none => none
  | some h =>
    if h.spareA = g.spareA ∧ h.spareB = g.spareB then some (s.modFabric (fun f => { f with guards := mapSet guardD f.guards r h }))
    else if s.rowUnreachable r h then none
    else some (remapEffect r h.spareA h.spareB h.aRetired h.bRetired s)

/-- Retire several slots, or none of them. -/
def State.retireSlots (s : State) (slots : List Nat) : Option State :=
  match slots with
  | [] => some s
  | x :: r => match s.retireSlot x with
    | none => none
    | some t => t.retireSlots r

def State.rowOwner (s : State) (slot : Nat) : List Nat := ((List.range 8).filter (fun p => s.pmap.bandOwner.getD (slot / 66 / 8) 255 == p))

/-- Take a cluster slot out of service for an element. -/
def State.applySlot (s : State) (element : Nat) (slots : List Nat) : State :=
  match s.retireSlots slots with
  | some t => t.closeRecord element 1 6
  | none => s.exhaust (slots.flatMap s.rowOwner).eraseDups element

/-! Core slots. -/

/-- Has a core of the same core row failed before, by the defect map or a retirement in effect (R71)? -/
def State.coreFailed (s : State) (element : Nat) : Bool :=
  let beside (e : Nat) : Bool := elemClass e == 0x01 && e % 2 ^ 15 == element % 2 ^ 15 && e != element
  s.faults.recs.any (fun r => r.state == 1 && beside r.element) ||
    (match (s.nvRec 2 0).value with
     | some (.defects l) => l.any beside
     | _ => false)

/-- Retire a core: the guard slot of its core row takes its place, or nothing does for the one that is unused; with a second core of the
row failed, its cluster slot is retired (R69, R71, R358) (DEDUCED, log entry 139). -/
def State.applyCore (s : State) (element : Nat) : State :=
  let row := bitsN element 14 13
  let core := bitsN element 18 15
  match s.logicalAt (elemSlot element) with
  | none => s.closeRecord element 1 6
  | some c =>
    if mapGet (natD 8) (s.cluster c).guard row = 8 ∧ !s.coreFailed element then
      (s.modCluster c (fun x => { x with guard := mapSet (natD 8) x.guard row core })).closeRecord element 1 6
    else s.applySlot element [elemSlot element]

/-! Store pages. -/

/-- The lowest-numbered free spare page of a stack (R204). -/
def State.freeSpare (s : State) (stack : Nat) : Option Nat :=
  (List.range 120).find? (fun i =>
    !((s.stack stack).badSpares.contains i)
      && s.store.pages.all (fun kv => !(kv.1 / 24576 == stack && kv.2.remapped && kv.2.spareIdx == i)))

/-- Copy a page, what cannot be read as poison; the copy counts nothing (R204). -/
def State.copyPage (s : State) (stack src dst : Nat) : State :=
  let lo := (stack * 24704 + src) * 2 ^ 22
  let moved := (s.smem.filter (fun c => decide (lo ≤ c.1) && decide (c.1 < lo + 2 ^ 22))).map (fun c => (c.1 - lo) / 128)
  moved.eraseDups.foldl (fun t b => t.putBlock stack dst b (deliverBlock (s.storeBlock stack src b))) (s.zeroPage stack dst)

/-- Remap a page (R204) (DESIGN CHOICE, log entry 83; DEDUCED, log entry 111). -/
def State.applyPage (s : State) (element : Nat) : State :=
  let k := elemStack element
  let n := elemPage element
  match s.freeSpare k with
  | none => s.exhaust [] element
  | some i =>
    let g := s.page k n
    let s1 := s.copyPage k (s.physPage k n) (24576 + i)
    let s2 := if g.remapped then s1.modStack k (fun x => { x with badSpares := x.badSpares ++ [g.spareIdx] }) else s1
    (s2.modPage k n (fun x => { x with remapped := true, spareIdx := i })).closeRecord element 1 6

/-! Stacks. -/

/-- Does partition p own pages in a stack with a loaded binding that uses it (R358)? -/
def State.usesStack (s : State) (p k : Nat) : Bool :=
  s.ownsPages k p && (match (s.bind p).image with
    | some b => b.stackTab.any (fun x => x.stack == k) || b.pages.any (fun x => x.stack == k)
    | none => false)

/-- Take a stack out of service: it refuses every request from then on (R358). -/
def State.retireStack (s : State) (k : Nat) : State := s.modStack k (fun x => { x with trained := false, retired := true })

/-- Retire a stack, or keep the partitions that use it stopped until they are bound without it (R358) (DEDUCED, log entry 109). -/
def State.applyStack (s : State) (element : Nat) : State :=
  let k := elemStack element
  let users := (List.range 8).filter (fun p => s.usesStack p k)
  if users.isEmpty then (s.retireStack k).closeRecord element 1 6 else s.exhaust users element

/-- Stacks whose retirement waited for bindings that used them (R358). -/
def State.releaseStacks (s : State) : State :=
  (s.faults.recs.filter (fun r => r.state == 2 && retireRank r.element == 1)).foldl (fun t r =>
    if (List.range 8).any (fun p => t.usesStack p (elemStack r.element)) then t else t.applyStack r.element) s

/-! Ports. -/

/-- The spare that can stand in for a lost Z port (R316). -/
def State.spareFor (s : State) (p n : Nat) : Option Nat :=
  let pair := n / 64
  if portDir n / 2 = 2 ∧ s.pmap.bandOwner.getD (2 * pair) 255 = p ∧ s.pmap.bandOwner.getD (2 * pair + 1) 255 = p then
    ((List.range 64).map (· + 64 * pair)).find? (fun m =>
      decide (6 ≤ portDir m) && travelDir m == travelDir n && (s.port m).sub.isNone && (s.port m).state != 7)
  else none

/-- A lost port of partition p's binding: the spare pair takes its place, or the partition must be recompiled (R316, R317).
(DEDUCED, log entry 95.) -/
def State.applyPort (s : State) (p element : Nat) : State :=
  let n := bitsN element 7 0
  let used := match (s.bind p).image with
    | some b => b.ports.contains n
    | none => false
  if (s.port n).sub.isSome then s.closeRecord element 1 6
  else
    match s.spareFor p n with
    | some m => ((s.modPort n (fun x => { x with sub := some m })).modPort m (fun x => { x with sub := some n })).closeRecord element 1 6
    | none => s.exhaust (if used then [p] else []) element

/-! Records. -/

/-- Apply one retirement. -/
def State.applyRetirement (s : State) (p : Nat) (r : RetRec) : State :=
  let e := r.element
  match retireRank e with
  | 0 =>
    let d := bitsN e 11 0
    if (s.domain d).defective then s.exhaust ((domainClusters s.power.mode d).flatMap (fun c => (s.ownerOf c).toList)).eraseDups e
    else
      let t := s.applySlot e (s.domainSlots d)
      if (s.retireSlots (s.domainSlots d)).isSome then t.modDomain d (fun x => { x with off := false }) else t
  | 1 => s.applyStack e
  | 2 => s.applyPage e
  | 4 => s.applyCore e
  | 5 => s.applyPort p e
  | _ => s.applySlot e [elemSlot e]

/-- Insert a record in the order of R357. -/
def insertRec (r : RetRec) (l : List RetRec) : List RetRec :=
  let key (x : RetRec) : Nat := retireRank x.element * 2 ^ 64 + x.element
  l.takeWhile (fun x => decide (key x ≤ key r)) ++ [r] ++ l.dropWhile (fun x => decide (key x ≤ key r))

/-- Every pending retirement whose element passes a test, in the order of R357; a class whose spare takes effect while
running is not among them (R357, Table 12.2) (DEDUCED, log entry 109). -/
def State.applyPending (s : State) (p : Nat) (test : Nat → Bool) : State :=
  let rs := s.faults.recs.filter (fun r => r.state == 0 && r.committed && (atStop (elemClass r.element) || elemClass r.element == 0x0E) && test r.element)
  (rs.foldl (fun l r => insertRec r l) []).foldl (fun t r => t.applyRetirement p r) s

/-- RETIREMENT_RECORD_COMMIT: the oldest retirement record not yet in non-volatile storage is committed; an element that
nobody owns is retired at once (R356, R528). -/
def recordCommitEffect (s : State) : State :=
  match s.faults.recs.find? (fun r => !r.committed) with
  | none => s
  | some r =>
    let s1 := { s with faults := { s.faults with
      recs := s.faults.recs.map (fun x => if x.inst = r.inst then { x with committed := true } else x) } }
    if r.state = 0 ∧ !(s1.elemOwned r.element) then s1.applyPending 8 (· == r.element) else s1

def execRetirementRecordCommit (s : State) : Answer := .next (recordCommitEffect s)

/-- Is every partition stopped? -/
def State.allStopped (s : State) : Bool :=
  (List.range 8).all s.partStopped

/-- RETIREMENT_CLEAR: in MANUFACTURE or DEBUG, with every partition stopped, the records of an element are rewritten with
LEN 0; the element returns to service at the next cold power-on, which builds the guard map anew without it (R359, R528; log
entry 53) (DEDUCED, log entry 53). -/
def retirementClearEffect (element : Nat) (s : State) : State :=
  if s.testState && s.allStopped then
    let s1 := { s with faults := { s.faults with recs := s.faults.recs.filter (fun r => r.element != element) } }
    s1.nvErase 3 0
  else s

def execRetirementClear (element : Nat) (who : MCore) (s : State) : Answer := .next (s.guarded who (retirementClearEffect element s))

end Sys2Proof.Machine
end

