-- ==== Sys2Proof/Machine/BindLoad.lean ====
section
/-! DEFINITION. Loading a binding: the checks of Table 9.3 that the module makes, with their BIND_REFUSE codes (R278,
Table 16.6), and what an accepted load sets. A re-bind loads the same image by the same operations (R456, R458). -/

namespace Sys2Proof.Machine

open Sys2Proof

/-! Checks. -/

def refuseMap : Nat := 1
def refuseBusy : Nat := 2
def refuseMeasure : Nat := 3
def refuseBox : Nat := 4
def refuseTables : Nat := 5
def refuseGroups : Nat := 6
def refusePages : Nat := 7
def refuseShards : Nat := 8
def refuseHalf : Nat := 9
def refuseSource : Nat := 10

/-- Is a logical cluster in the logical map: its slot has no retirement found exhausted (R451)? -/
def State.inMap (s : State) (c : Nat) : Bool :=
  s.faults.recs.all (fun r =>
    let cls := r.element / 2 ^ 56
    !(r.state == 2 && (decide (1 ≤ cls ∧ cls ≤ 6) || cls == 0x10) && r.element % 2 ^ 13 == s.slotBits c))

/-- Is a stack in service, and not one whose retirement awaits a binding without it (R358)? -/
def State.inService (s : State) (k : Nat) : Bool :=
  (s.stack k).trained && !(s.stack k).retired
    && s.faults.recs.all (fun r => !(r.state == 2 && retireRank r.element == 1 && elemStack r.element == k))

/-- Everything the image names lies in the partition and in the logical map. -/
def mapOk (s : State) (p : Nat) (b : Binding) : Bool :=
  b.part == p
    && b.clusters.all (fun x => s.owns p x.cluster && s.inMap x.cluster)
    && b.syncs.all (fun kv => s.owns p (kv.1 / 4))
    && b.stackTab.all (fun x => decide (x.stack < 24) && s.inService x.stack && s.ownsPages x.stack p)
    && b.ports.all (fun n => s.portOwner n == some p && (s.port n).state != 7)
    && b.flows.all (fun kv => s.portOwner (kv.1 / 1024) == some p)
    && b.hflows.all (fun kv =>
      let f := kv.2.toNat
      !(f.testBit 0) || s.owns p (edgeCluster (bitsN f 5 4) (bitsN f 11 6)))

/-- The module's coordinate lies in the box, and the box has a legal shape (R269). -/
def boxOk (s : State) (b : Binding) : Bool :=
  let c := s.coord
  let within (v o e : Nat) : Bool := decide (o ≤ v) && decide (v < o + e)
  (b.boxX == 1 || b.boxX == 2 || b.boxX == 4) && decide (b.originX + b.boxX ≤ 4)
    && decide (1 ≤ b.boxY ∧ b.boxY ≤ 96) && decide (1 ≤ b.boxZ ∧ b.boxZ ≤ 128)
    && within c.1 b.originX b.boxX && within c.2.1 b.originY b.boxY && within c.2.2 b.originZ b.boxZ

/-- Every slot-table word: nothing but 0 in entries of others, and a legal value in the partition's own; reserved and RO bits of
a word have no effect (R11, R12, R166, R167, R170, R193). -/
def tablesOk (s : State) (p : Nat) (b : Binding) : Bool :=
  b.tables.all (fun kv =>
    let c := kv.1 / 256 / 5
    let t := kv.1 / 256 % 5
    let slot := kv.1 % 256
    let v := kv.2.toNat
    if s.entryOwner c t slot = some p then decide (c < 4096) && s.entryLegal c t slot (entryBits t v)
    else v == 0)

/-- Members the image gives spine group g: enabled spine-scope objects and update-engine ports (R183). -/
def memberCount (b : Binding) (g : Nat) : Nat :=
  b.syncs.countP (fun kv => kv.2.getLsbD 0 && kv.2.getLsbD 1 && fld kv.2 9 2 == g)
    + b.stackTab.foldl (fun acc x => acc + b2n (x.param.normGroup == g) + b2n (x.param.commitGroup == g)) 0

/-- Spine groups and sync objects (R182, R183). -/
def groupsOk (s : State) (p : Nat) (b : Binding) : Bool :=
  b.groups.all (fun kv => s.groupOwner kv.1 == some p || kv.2 == 0)
    && b.syncs.all (fun kv => fld kv.2 13 10 != 0)
    && (List.range 256).all (fun g =>
      if s.groupOwner g = some p then
        let v := mapGet wordD b.groups g
        fld v 14 0 == memberCount b g && decide (fld v 14 0 ≤ 16408) && decide (fld v 18 15 ≤ 8)
      else true)

/-- KIND the image gives a page of a stack; an unlisted page is GENERAL. -/
def kindIn (b : Binding) (stack page : Nat) : Nat :=
  match b.pages.find? (fun g => g.stack == stack && g.page == page) with
  | some g => g.kind
  | none => 0

/-- Pages: owned, of a kind that exists, DBUF pairs whole, at most 2,048 REDUCE pages in a stack, and a retained region of
at most 1 GiB of GENERAL pages (R197, R199, R232, R456). -/
def pagesOk (s : State) (p : Nat) (b : Binding) (len : Nat) : Bool :=
  b.pages.all (fun g =>
    decide (g.stack < 24) && s.pageOwner g.stack g.page == some p && decide (g.kind ≤ 5)
      && (if g.kind = 1 then g.page % 2 == 0 && kindIn b g.stack (g.page + 1) == 2
          else if g.kind = 2 then g.page % 2 == 1 && kindIn b g.stack (g.page - 1) == 1 else true))
    && (List.range 24).all (fun k => decide (b.pages.countP (fun g => g.stack == k && g.kind == 3) ≤ 2048))
    && decide (b.retainedPages ≤ 512) && decide (len ≤ b.retainedPages * 2 ^ 21)
    && (List.range b.retainedPages).all (fun i =>
      s.pageOwner b.retainedStack (b.retainedPage + i) == some p && kindIn b b.retainedStack (b.retainedPage + i) == 0)

/-- A run of bytes a plane takes: is it in double-buffered pages, its first byte in their numbering, its length. -/
structure PlaneRun where
  dbuf : Bool
  first : Nat
  bytes : Nat
  deriving DecidableEq, Repr

/-- Bytes of the first-moment and second-moment planes (R242). -/
def shardMBytes (h : Shard) : Nat := if h.rule = 0 ∨ h.firstMom then h.nEl + h.nEl / 128 else 0
def shardSBytes (h : Shard) : Nat :=
  if h.rule = 1 then h.nEl + h.nEl / 128 else if h.rule = 2 then 4 * (h.nEl / h.nc + h.nc) else 0

/-- The planes of a shard (R241, R242). A DBUF plane counts bytes over pairs, its page number halved. -/
def planeRuns (h : Shard) : List PlaneRun :=
  let db (pl : Plane) (n : Nat) : List PlaneRun := if n = 0 then [] else [⟨true, pl.page / 2 * 2 ^ 21 + pl.off * 512, n⟩]
  db h.wPlane (4 * h.nEl) ++ db h.mPlane (shardMBytes h) ++ db h.sPlane (shardSBytes h)
    ++ db h.cc0Plane (copyBytes h.cc0Fmt h.nEl) ++ db h.cc1Plane (copyBytes h.cc1Fmt h.nEl)
    ++ (if h.rule = 3 then [] else [⟨false, h.gPlane.page * 2 ^ 21 + h.gPlane.off * 512, 4 * h.nEl⟩])

def PlaneRun.overlaps (a b : PlaneRun) : Bool :=
  a.dbuf == b.dbuf && decide (a.first < b.first + b.bytes) && decide (b.first < a.first + a.bytes)

/-- No two runs of a list overlap. -/
def disjointRuns (l : List PlaneRun) : Bool :=
  match l with
  | [] => true
  | a :: r => r.all (fun b => !a.overlaps b) && disjointRuns r

/-- Every page of a run is of the right kind and, being in the image, of the partition. -/
def runPagesOk (b : Binding) (stack : Nat) (r : PlaneRun) : Bool :=
  let p0 := r.first / 2 ^ 21
  let p1 := (r.first + r.bytes - 1) / 2 ^ 21
  (List.range (p1 + 1 - p0)).all (fun i =>
    if r.dbuf then kindIn b stack (2 * (p0 + i)) == 1 else kindIn b stack (p0 + i) == 3)

/-- Is a word in [0, 1), a subnormal counting as a zero? -/
def inUnit (w : Word) : Bool := (decF32 w).isZero || (fpos w && fgt fpOne w)

/-- The planes of a shard that lie in double-buffered pages. -/
def dbufPlanes (h : Shard) : List Plane :=
  [h.wPlane] ++ (if shardMBytes h = 0 then [] else [h.mPlane]) ++ (if shardSBytes h = 0 then [] else [h.sPlane])
    ++ (if h.cc0Fmt = 15 then [] else [h.cc0Plane]) ++ (if h.cc1Fmt = 15 then [] else [h.cc1Plane])

/-- One shard descriptor: its fields, a DBUF plane from an even page on, OFF within its 12 bits (R242, R243). -/
def shardOk (b : Binding) (stack : Nat) (h : Shard) : Bool :=
  let fmtOk (f : Nat) : Bool := f == 1 || f == 2 || f == 4 || f == 5 || f == 15
  decide (h.rule ≤ 3) && fmtOk h.cc0Fmt && fmtOk h.cc1Fmt && decide (h.nEl ≠ 0) && h.nEl % 128 == 0
    && (h.rule != 2 || (decide (1 ≤ h.nc ∧ h.nc ≤ 65535) && h.nEl % h.nc == 0))
    && inUnit h.b1 && inUnit h.b2 && fpos h.eps
    && (dbufPlanes h).all (fun pl => pl.page % 2 == 0) && (h.gPlane :: dbufPlanes h).all (fun pl => decide (pl.off < 4096))
    && (planeRuns h).all (runPagesOk b stack)

def shardsOk (b : Binding) : Bool :=
  b.stackTab.all (fun x => decide (x.shards.length ≤ 4096) && x.shards.all (shardOk b x.stack)
    && disjointRuns (x.shards.flatMap planeRuns))

/-- Worst case of a step's export in one stack (R263). -/
def exportWorst (hs : List Shard) : Nat :=
  let plane (words : Nat) : Nat := 528 * ((words + 127) / 128) + 128 * (((words + 127) / 128 + 8191) / 8192)
  hs.foldl (fun acc h =>
    if h.exportEn then
      acc + plane h.nEl + (if h.exportMom then
        (if shardMBytes h = 0 then 0 else plane ((shardMBytes h + 3) / 4))
          + (if shardSBytes h = 0 then 0 else plane ((shardSBytes h + 3) / 4)) else 0)
    else acc) 128

def halvesOk (b : Binding) : Bool :=
  b.stackTab.all (fun x => decide (exportWorst x.shards ≤ b.pages.countP (fun g => g.stack == x.stack && g.kind == 4) / 2 * 2 ^ 21))

/-- Every REDUCE page has one source, of the partition; an entry with EXPECT 0 has none (R229, R235). -/
def sourcesOk (s : State) (p : Nat) (b : Binding) : Bool :=
  b.stackTab.all (fun x =>
    (List.range (b.pages.countP (fun g => g.stack == x.stack && g.kind == 3))).all (fun i =>
      let a := mapGet accD x.acc i
      a.expect != 0 && ((a.kind == 1 && s.owns p (a.ctx / 4)) || (a.kind == 2 && s.portOwner a.port == some p))))

/-- Is the module or the partition busy with something a load may not meet (R123, R375, R459, R500, R524)? -/
def State.loadBusy (s : State) (p : Nat) : Bool :=
  (s.owner p).busy || (s.bind p).state == 5 || s.boot.memZeroing
    || s.clusters.any (fun kv => s.owns p kv.1 && kv.2.zeroBusy)
    || !((s.part p).stopping.isNone && (s.part p).startRaised.isNone)
    || (s.pmapCtl.applying && s.pmapCtl.parts.contains p) || s.pins.instr == 0x11 || s.pins.dieLink != 0

/-- BIND_REFUSE for an image of `len` bytes, or 0. -/
def State.bindRefuse (s : State) (p : Nat) (image : Option Binding) (len : Nat) : Nat :=
  match image with
  | none => refuseMeasure
  | some b =>
    if !mapOk s p b then refuseMap
    else if !boxOk s b then refuseBox
    else if !tablesOk s p b then refuseTables
    else if !groupsOk s p b then refuseGroups
    else if !pagesOk s p b len then refusePages
    else if !shardsOk b then refuseShards
    else if !halvesOk b then refuseHalf
    else if !sourcesOk s p b then refuseSource
    else 0

/-! What a load sets. -/

/-- RESn of an image: a bound out of its range is not written (R121) (DEDUCED, log entry 164). -/
def Res.ofImg (x : Nat × Nat × Bool) : Res :=
  ⟨if resBound x.1 then x.1 else 0, if resBound x.2.1 then x.2.1 else 0, x.2.2 && resBound x.1⟩

/-- A region of an image: a CFG word that may not enable its region is not written (R117). -/
def Circ.ofImg (x : CircImg) : Circ :=
  let q : Circ := { Circ.reset with base := x.base, sizeLog2 := x.sizeLog2, en := x.en, head := x.head, tail := x.tail }
  if q.en && !q.legal then { Circ.reset with head := x.head, tail := x.tail } else q

/-- Does an image write what R117 or R121 refuses: CFG_REFUSED is set? (DEDUCED, log entry 164). -/
def imgRefused (img : ClusterImg) : Bool :=
  img.res.any (fun kv => !(resBound kv.2.1 && resBound kv.2.2.1))
    || img.circ.any (fun kv => kv.2.en && !(Circ.ofImg kv.2).en)

/-- The image of one cluster, empty when the binding names it not. -/
def clusterImg (b : Binding) (c : Nat) : ClusterImg :=
  (b.clusters.find? (fun x => x.cluster == c)).getD
    { cluster := c, quire := [], ctxWords := [], circ := [], res := [], words := [], flip := none }

/-- A context as its register words set it (Table 7.9, R228). -/
def ctxOf (ws : SMap Word) (k : Nat) : Ctx :=
  let w (i : Nat) : Word := mapGet wordD ws (1024 * k + i)
  { Ctx.reset with
    ctrl := w 0 &&& 0x7FF#32
    prio := if (mapFind ws (1024 * k + 2)).isSome then fld (w 2) 2 0 else 4
    seed := w 3 }

/-- The zeroing of one cluster that a load begins with: its memories but for words resident before and after (Table 4.5). -/
def State.zeroForLoad (s : State) (b : Binding) (c : Nat) : State :=
  let next := (clusterImg b c).res.map (fun kv => Res.ofImg kv.2)
  s.zeroing c (fun w => !((s.cluster c).isResident w && next.any (fun r => r.en && decide (r.base ≤ w) && decide (w < r.limit)))) true

/-- Load one cluster, its zeroing done: registers (R106, R136), memories, sequencer to READY (R85, R216). The registers are written
before the words, and the flip mask counts as written in the load's cycle (R133) (DEDUCED, log entry 106). -/
def State.loadCluster (s : State) (b : Binding) (c : Nat) : State :=
  let img := clusterImg b c
  let fl : Flip := match img.flip with
    | none => Flip.reset
    | some x =>
      { data := x.1, check := x.2.setWidth 7, arm := x.2.getLsbD 7, word := fld x.2 9 8, bank := fld x.2 19 10,
        bankEn := x.2.getLsbD 20, armedAt := s.clock.fab }
  let s2 := s.modCluster c (fun x => { Cluster.reset with
    guard := x.guard
    seq := { Seq.reset with state := .ready, mapRefused := x.seq.mapRefused }
    mem := { Cluster.reset.mem with cfgRefused := imgRefused img }
    flip := fl
    circ := img.circ.map (fun kv => (kv.1, Circ.ofImg kv.2))
    resid := img.res.map (fun kv => (kv.1, Res.ofImg kv.2)) })
  let s3 := img.quire.foldl (fun t kv => t.putByteCoded c (quireBase + kv.1) kv.2) s2
  let s4 := img.ctxWords.foldl (fun t kv => t.putByteCoded c (ctxBase 0 + kv.1) kv.2) s3
  let s5 := img.words.foldl (fun t kv => t.writeWord c kv.1 ⟨kv.2, false⟩) s4
  let s6 := (List.range 4).foldl (fun t k => t.modCtx c k (fun _ => ctxOf img.ctxWords k)) s5
  (List.range 4).foldl (fun t j => t.modSync (4 * c + j) (fun _ =>
    match mapFind b.syncs (4 * c + j) with
    | some v => SyncObj.reset.withCfg v
    | none => SyncObj.reset)) s6

/-- Slot tables and spine groups of the partition (R167, R183, R186). -/
def State.loadFabric (s : State) (p : Nat) (b : Binding) : State :=
  let mine (k : Nat) : Bool := s.entryOwner (k / 256 / 5) (k / 256 % 5) (k % 256) == some p
  let s1 := s.modFabric (fun f => { f with
    tables := b.tables.foldl (fun m kv => if mine kv.1 then mapSet wordD m kv.1 (BitVec.ofNat 32 (entryBits (kv.1 / 256 % 5) kv.2.toNat)) else m) (mapClear f.tables mine) })
  (List.range 256).foldl (fun t g =>
    if s.groupOwner g = some p then
      (t.modGroup g (fun _ => Group.reset.withCfg (mapGet wordD b.groups g))).modColl g (fun _ => Coll.reset)
    else t) s1

/-- Does the image keep a page's content over the load (R202)? -/
def keepsPage (b : Binding) (stack page : Nat) : Bool :=
  match b.pages.find? (fun g => g.stack == stack && g.page == page) with
  | some g => g.resident || g.kind == 1 || g.kind == 2 || g.kind == 4
  | none => false

/-- The addressable page a physical page of a stack holds (R204). -/
def State.logicalPage (s : State) (stack phys : Nat) : Option Nat :=
  if phys < 24576 then some phys
  else
    (s.store.pages.find? (fun kv =>
      kv.1 / 24576 == stack && kv.2.remapped && kv.2.spareIdx == phys - 24576)).map (fun kv => kv.1 % 24576)

/-- Time in ns to zero n pages of partition p in one stack, in the rounds its share gives (Table 7.6). -/
def State.pagesTime (s : State) (p n : Nat) : Nat := n * 1050 * 256 / max 1 (s.pmap.storeShare.getD p 0)

/-- Pages: content not kept is zeroed, and the page table written (R199, R202) (DEDUCED, log entry 106). -/
def State.loadPages (s : State) (p : Nat) (b : Binding) : State :=
  let owned (stack page : Nat) : Bool := s.pageOwner stack page == some p
  let goes (a : Nat) : Bool :=
    let q := a / 16 / 2 ^ 18
    match s.logicalPage (q / 24704) (q % 24704) with
    | some g => owned (q / 24704) g && !keepsPage b (q / 24704) g
    | none => false
  let zeroed (k : Nat) : Nat :=
    (s.pmap.pages.getD (8 * k + p) (0, 0)).2 - b.pages.countP (fun g => g.stack == k && keepsPage b k g.page)
  let s1 := { s with
    smem := mapClear s.smem goes
    store := { s.store with stackTab := (List.range 24).foldl (fun m k =>
      if zeroed k = 0 then m
      else mapMod stackD m k (fun x => { x with zeroUntil := s.localNs + s.pagesTime p (zeroed k) })) s.store.stackTab } }
  let s2 := s1.modStore (fun st => { st with pages := mapAll pageD st.pages (fun k g =>
    if owned (k / 24576) (k % 24576) then { Page.reset with remapped := g.remapped, spareIdx := g.spareIdx } else g) })
  b.pages.foldl (fun t g => t.modPage g.stack g.page (fun x => { x with
    kind := g.kind, resident := g.resident || g.kind == 1 || g.kind == 2 || g.kind == 4,
    peerRead := g.peerRead, peerWrite := g.peerWrite })) s2

/-- Give the selected bytes of one copy of a plane the bytes of `src`. -/
def State.mixPlane (s : State) (stack : Nat) (pl : Plane) (copy n : Nat) (sel : Nat → Bool) (src : List PWord) : State :=
  if n = 0 then s
  else
    let old := (s.readAll stack pl 2 copy n).1
    s.writePlane stack pl copy (fun _ => false) (old.zipIdx.map (fun wi => mixWord sel wi.2 (src.getD wi.2 wi.1) wi.1))

/-- Marked groups at a load: master and moment state the same in both copies, compute copies zero codes with scale 0x7F in
both (R150, R244) (DEDUCED, log entry 84). -/
def State.loadMarks (s : State) (stack : Nat) (marks : List Nat) (cur : Nat) (h : Shard) : State :=
  if !h.markEn then s
  else
    let n := h.nEl
    let same (t : State) (pl : Plane) (bytes bits : Nat) : State :=
      t.mixPlane stack pl (1 - cur) bytes (markedByte marks h bits 128) (t.readAll stack pl 2 cur bytes).1
    let s1 := same s h.wPlane (4 * n) 32
    let s2 := same s1 h.mPlane (shardMBytes h) 8
    let s3 := if h.rule = 1 then same s2 h.sPlane (shardSBytes h) 8 else s2
    let cc (t : State) (pl : Plane) (fmt : Nat) : State :=
      let bits := match fmt with | 1 => 16 | 2 => 8 | 4 => 4 | _ => 2
      let bytes := copyBytes fmt n
      let elemWords := n * bits / 32
      let src := (List.range ((bytes + 3) / 4)).map (fun i => (⟨if i < elemWords then 0 else 0x7F7F7F7F#32, false⟩ : PWord))
      (List.range 2).foldl (fun u c => u.mixPlane stack pl c bytes (markedByte marks h bits 32) src) t
    cc (cc s3 h.cc0Plane h.cc0Fmt) h.cc1Plane h.cc1Fmt

/-- The block of the partition in one stack (R240, R268). The commit record is kept when the owner is unchanged and
START_STEP is 0, and by a re-bind, which START_BLOCKED outlasts (R255, R458; DEDUCED, log entry 165). -/
def Uep.load (x : Uep) (img : StackImg) (keep rebind : Bool) : Uep :=
  let rec0 : Uep := { Uep.reset with
    startBlocked := rebind && x.startBlocked, segSeq := x.segSeq, halves := x.halves.filter Half.released,
    poisonBlocks := x.poisonBlocks, poisonOverflow := x.poisonOverflow, copyStep := x.copyStep
    param := img.param, shards := img.shards, acc := img.acc.map (fun kv => (kv.1, { kv.2 with count := 0 })), marks := img.marks }
  if keep then
    { rec0 with
      committed := x.committed, applied := x.applied, skipped := x.skipped, copySel := x.copySel, lastSkipped := x.lastSkipped,
      recEpoch := x.recEpoch, recTT := x.recTT, normSq := x.normSq, clip := x.clip, lr := x.lr }
  else
    { rec0 with committed := BitVec.ofNat 64 img.param.startStep - 1, applied := BitVec.ofNat 64 img.param.startApplied }

/-- The block of a stack that the image does not name: no shards, no sources, and the record of the stacks that it names (R240;
DEDUCED, log entry 165). -/
def stackImg (b : Binding) (k : Nat) : StackImg :=
  match b.stackTab.find? (fun x => x.stack == k) with
  | some x => x
  | none =>
    let q : Param := match b.stackTab with
      | [] => Param.reset
      | x :: _ => { Param.reset with startStep := x.param.startStep, startApplied := x.param.startApplied }
    { stack := k, param := q, shards := [], acc := [], marks := [] }

def State.loadStack (s : State) (p : Nat) (rebind : Bool) (img : StackImg) : State :=
  let keep := rebind || (!(s.bind p).newOwner && img.param.startStep == 0)
  let s1 := (s.modUep img.stack p (fun x => x.load img keep rebind)).modStack img.stack Stack.resetUe
  let cur := b2n (s1.uep img.stack p).copySel
  img.shards.foldl (fun t h => t.loadMarks img.stack img.marks cur h) s1

/-- Flow tables of the partition's ports and its host flows, nothing landed yet (R299, R340). -/
def State.loadFlows (s : State) (p : Nat) (b : Binding) : State :=
  let s1 := { s with ports := mapAll portD s.ports (fun n x =>
    if s.portOwner n = some p then { x with flows := [], landed := [] } else x) }
  let s2 := b.flows.foldl (fun t kv => t.modPort (kv.1 / 1024) (fun x => { x with flows := mapSet wordD x.flows (kv.1 % 1024) (kv.2 &&& 0x1FFF#32) })) s1
  let mine (f : Nat) : Bool := mapGet (natD 255) s.host.flowOwner f == p
  let h := s2.host
  let h1 : HostPort := { h with flows := mapClear h.flows mine, landed := mapClear h.landed mine, flowOwner := mapClear h.flowOwner mine }
  let h2 := b.hflows.foldl (fun (t : HostPort) kv =>
    if mapGet (natD 255) t.flowOwner kv.1 = 255 then
      { t with flows := mapSet wordD t.flows kv.1 (kv.2 &&& 0xFFFFF#32), flowOwner := mapSet (natD 255) t.flowOwner kv.1 p }
    else t) h1
  { s2 with host := h2 }

/-- Logical clusters of a partition. -/
def State.clustersOf (s : State) (p : Nat) : List Nat := (List.range 4096).filter (s.owns p)

/-- Everything an accepted load sets, the clusters once their zeroing is over (R123), but for BIND_STATE and the measurement (DESIGN CHOICE, log entry 12; DEDUCED, log entry 106). -/
def State.applyBinding (s : State) (p : Nat) (b : Binding) (rebind : Bool) : State :=
  let s0 := ((s.clustersOf p).foldl (fun t c => t.zeroForLoad b c) s).advance zeroCycles
  let s1 := (s.clustersOf p).foldl (fun t c => t.loadCluster b c) s0
  let s2 := (s1.loadFabric p b).loadPages p b
  let s3 := (((List.range 24).filter (fun k => s.ownsPages k p)).foldl (fun t k => t.loadStack p rebind (stackImg b k)) s2).loadFlows p b
  let s4 := match b.partPrio with
    | some v => s3.setPrio p v.toNat
    | none => s3
  let s5 := match b.wakeTol with
    | some v => s4.setSetting 0x2100 (p + 1) v
    | none => s4
  (s5.modPart p (fun _ => Part.reset)).modBind p (fun x => { x with image := some b, newOwner := false, loading := false, received := [] })

/-- Write image bytes into the retained region (R456) (DEDUCED, log entry 105). -/
def State.retainImage (s : State) (b : Binding) (bytes : List Byte) : State :=
  ((pieces 16 (wordsOfBytes bytes)).zipIdx).foldl (fun t wi =>
    let page := b.retainedPage + wi.2 / 32768
    t.putBlock b.retainedStack (t.physPage b.retainedStack page) (wi.2 % 32768)
      (wi.1 ++ List.replicate (16 - wi.1.length) ⟨0, false⟩)) s

/-- Read the retained image back: its bytes, unless a block of it cannot be read (R456). -/
def State.readImage (s : State) (b : Binding) (len : Nat) : Option (List Byte) :=
  let blocks := (List.range ((len + 63) / 64)).map (fun i =>
    deliverBlock (s.storeBlock b.retainedStack (s.physPage b.retainedStack (b.retainedPage + i / 32768)) (i % 32768)))
  if blocks.any (fun ws => ws.any PWord.poison) then none
  else some ((bytesOfWords blocks.flatten).take len)

/-- The end of a binding image by BIND_LOAD: measurement, checks and load (R339, R385), then the commit notices (R321). Answers
the refusal code too (DESIGN CHOICE, log entry 12; DEDUCED, log entry 105). -/
def State.loadImage (s : State) (p : Nat) (image : Option Binding) (bytes : List Byte) : Nat × State :=
  let measure := sha384 bytes
  let refuse (code : Nat) : Nat × State :=
    (code, s.modBind p (fun x => { x with
      refuse := code, loading := false, received := [], state := if x.state = 1 then (if x.image.isSome then 4 else 0) else x.state }))
  if s.loadBusy p then refuse refuseBusy
  else
    let code := s.bindRefuse p image bytes.length
    match image, code with
    | some b, 0 =>
      let s1 := (s.applyBinding p b false).retainImage b bytes
      let s2 := s1.modOwner p (fun o => { o with measure := measure })
      let s3 := s2.modBind p (fun x => { x with
        state := 2, refuse := 0, block := 0, imageLen := bytes.length, rebindNeeded := false, rebindAsked := false, noAuto := false,
        rebindStep := 0 })
      (0, { s3 with faults := { s3.faults with exhausted := s3.faults.exhausted.filter (· != p) } }.releaseStacks.sendNotices p)
    | _, c => refuse c

end Sys2Proof.Machine
end

