-- ==== Sys2Proof/Machine/Host.lean ====
section
/-! DEFINITION. The host port: queues, entries and completions (R328 to R341). The store requests of an entry go through the
arbiters as the host DMA class; a sealed payload is given in clear with the outcome of each chunk's tag. -/

namespace Sys2Proof.Machine

open Sys2Proof

/-- Guard of a command that names a host queue. -/
def onQueue (q : Nat) (t : State) : Answer := onNumber "host queue" 16 q t

/-! Statuses of Table 11.4. -/

def hsOk : Nat := 0
def hsDenied : Nat := 1
def hsRange : Nat := 2
def hsAlign : Nat := 3
def hsAuth : Nat := 4
def hsAborted : Nat := 5
def hsPoison : Nat := 6
def hsNoFlow : Nat := 7
def hsBindRefused : Nat := 8
def hsReplayed : Nat := 9
def hsPeerFail : Nat := 10

/-! Queue registers. -/

/-- SQ_TAIL_WRITE: covered entries become available; one that reaches the module while EN is 0 covers nothing
(R335); a tail write wakes the module from W4 (R420). -/
def execSqTailWrite (q : Nat) (v : Word) (s : State) : Answer :=
  onQueue q ((s.modHostQ q (fun x => if x.en then { x with sqTail := v.toNat % 2 ^ x.sqLog2 } else x)).askWake)

/-- CQ_HEAD_WRITE: completion entries are free again (R332). -/
def execCqHeadWrite (q : Nat) (v : Word) (s : State) : Answer :=
  onQueue q (s.modHostQ q (fun x => if x.en then { x with cqHead := v.toNat % 2 ^ x.cqLog2 } else x))

/-- HQ_CFG_WRITE: sizes only while EN is 0; setting EN resets the pointers and the phase (R331). A queue stays disabled while
its partition's buffers are being zeroed (R334) (DEDUCED, log entry 100). -/
def hqCfgEffect (q : Nat) (v : Word) (s : State) : State :=
  let on := v.getLsbD 8 && !(s.owner (q / 2)).busy
  let size (new old : Nat) : Nat := if 4 ≤ new ∧ new ≤ 12 then new else old
  s.modHostQ q (fun x =>
    let y := if x.en then x else { x with sqLog2 := size (fld v 3 0) x.sqLog2, cqLog2 := size (fld v 7 4) x.cqLog2 }
    let z := { y with en := on, irqEn := v.getLsbD 9 }
    if on && !x.en then { z with sqHead := 0, sqTail := 0, cqTail := 0, cqHead := 0, phase := true } else z)

def execHqCfgWrite (q : Nat) (v : Word) (s : State) : Answer := onQueue q (hqCfgEffect q v s)

/-! Disabling queues (R334). -/

def hostRequestOf (q : Nat) (r : StoreReq) : Bool := match r.who with | .hostDma _ m _ => m == q | _ => false

/-- Drop what a queue's entry in progress has under way; its flits in the mesh land (DEDUCED, log entry 98). -/
def State.dropJob (s : State) (q : Nat) : State :=
  let s1 := s.modStore (fun t => { t with reqs := t.reqs.filter (fun r => !hostRequestOf q r) })
  let s2 := s1.modHostQ q (fun x => { x with job := none })
  let keep (x : Flit) : Bool := match x.cargo with
    | .toFlow _ m _ _ => m != q
    | _ => true
  let none_ (m : SMap (List Flit)) : SMap (List Flit) :=
    (m.map (fun kv => (kv.1, kv.2.filter keep))).filter (fun kv => !kv.2.isEmpty)
  let s2 := s2.modFabric (fun f => { f with edges := none_ f.edges })
  { s2 with clusters := mapAll clusterD s2.clusters (fun _ c => { c with staged := c.staged.filter (fun g =>
      match g.land with
      | some l => !(l.host && l.n == q)
      | none => true) }) }

/-- Unread completions of a queue. -/
def HostQ.unread (x : HostQ) : Nat := (x.cqTail + 2 ^ x.cqLog2 - x.cqHead) % 2 ^ x.cqLog2

/-- Disable a queue with a cause (DEDUCED, log entry 101). -/
def State.disableQueue (s : State) (q cause : Nat) : State :=
  (s.dropJob q).modHostQ q (fun x => { x with en := false, qerr := true, cause := cause })

/-- Write a completion and its MSI-X message (R332, R336); a CQ that would overflow disables its queue with cause 4. -/
def State.writeCompletion (s : State) (q status moved poison : Nat) (mixed : Bool) (e : SqEntry) : State :=
  let x := s.hostQ q
  if x.unread + 1 ≥ 2 ^ x.cqLog2 then (s.disableQueue q 4).emit (.msix 16)
  else
    let s1 := s.emit (.completion q e.cid status (b2n x.phase + 2 * b2n mixed) x.sqHead moved poison)
    let wrap := decide (x.cqTail + 1 = 2 ^ x.cqLog2)
    let s2 := s1.modHostQ q (fun y => { y with
      cqTail := (y.cqTail + 1) % 2 ^ y.cqLog2, phase := if wrap then !y.phase else y.phase, job := none })
    if e.irq && x.irqEn then s2.emit (.msix q) else s2

/-- Disable every queue: the entry in progress cannot be completed over a link that is gone (DEDUCED, log entry 98). -/
def State.disableAll (s : State) (cause : Nat) : State := (List.range 16).foldl (fun t q => t.disableQueue q cause) s

/-- Disable the queues of a partition, each entry in progress completing with ABORTED (R334) (DEDUCED, log entry 98). -/
def State.disableOwnerQueues (s : State) (p : Nat) : State :=
  [2 * p, 2 * p + 1].foldl (fun t q =>
    let t1 := match (t.hostQ q).job with
      | some j => t.writeCompletion q hsAborted j.moved j.poison false j.e
      | none => t
    (t1.disableQueue q 3).emit (.msix 16)) s

/-- The link goes down: every queue is disabled (R334, R455). -/
def State.hostLinkOff (s : State) : State :=
  let s1 := s.disableAll 1
  { s1 with host := { s1.host with rate := 0, width := 0, flit := false }, boot := { s1.boot with hostUp := false } }

/-- HOST_LINK_DOWN (R334, R455). -/
def execHostLinkDown (s : State) : Answer := .next s.hostLinkOff

/-- HOST_LINK_UP: HOST_LINK reports the rate and width trained (R328, R455, R503). -/
def execHostLinkUp (rate width : Nat) (flit : Bool) (s : State) : Answer :=
  if rate = 0 ∨ 6 < rate then .fault (.noSuchElement "link rate" rate)
  else if width ∉ [1, 2, 4, 8, 16] then .fault (.noSuchElement "link width" width)
  else .next { s with host := { s.host with rate := rate, width := width, flit := flit }, boot := { s.boot with hostUp := true } }

/-- PERST_DEASSERT: once step 4 of bring-up is complete, configuration requests are answered within 100 ms (R452). -/
def execPerstDeassert (s : State) : Answer :=
  .next (if 4 ≤ s.boot.step then { s with host := { s.host with configBy := some (s.localNs + 100000000) } } else s)

/-! Entries. -/

/-- May queue q read its next entry: enabled, an entry covered, the module READY, and the one before it done (R332, R335,
R452)? -/
def State.queueReady (s : State) (q : Nat) : Bool :=
  let x := s.hostQ q
  x.en && x.sqHead != x.sqTail && s.boot.moduleState == 1 && x.job.isNone

def newJob (op : Nat) (e : SqEntry) (now : Nat) : HostJob :=
  { op := op, e := e, total := 0, finished := 0, moved := 0, poison := 0, status := 0, copySel := none, mixed := false,
    read := [], acked := 0, sent := 0, rto := 2000000, progressAt := now, sentAt := 0 }

/-- Take an entry: SQ_HEAD moves past it and it is in progress (DEDUCED, log entry 82; DESIGN CHOICE, log entry 97). -/
def State.takeEntry (s : State) (q op : Nat) (e : SqEntry) : State :=
  s.modHostQ q (fun x => { x with sqHead := (x.sqHead + 1) % 2 ^ x.sqLog2, job := some (newJob op e s.localNs) })

def State.modJob (s : State) (q : Nat) (f : HostJob → HostJob) : State :=
  s.modHostQ q (fun x => { x with job := x.job.map f })

/-- End an entry with a status before its first request. -/
def State.endEntry (s : State) (q status : Nat) : State := s.modJob q (fun j => { j with status := status })

/-- Is LENGTH or HOST_ADDR misaligned (R333)? -/
def entryMisaligned (e : SqEntry) : Bool :=
  e.length % 64 != 0 || e.length == 0 || decide (2 ^ 32 ≤ e.length) || e.hostAddr.toNat % 64 != 0

/-- A status an entry's form gives it before its first request. -/
def firstStatus (checks : List Nat) : Nat := (checks.find? (fun c => c != 0)).getD 0

/-- A sealed entry needs the partition's key, an unsealed one a test state (R338, R382): AUTH, or 0 (DEDUCED, log entry 82). -/
def State.sealKey (s : State) (q : Nat) (e : SqEntry) : Nat :=
  if (if e.sealed then (s.owner (q / 2)).keyState == 2 else s.testState) then 0 else hsAuth

/-- The sealing checks of R337, R338 and R382: AUTH, REPLAYED_SEQ, or 0. `dir` is 0 inbound, 1 outbound (DEDUCED, log entry 82). -/
def State.sealStatus (s : State) (q dir : Nat) (e : SqEntry) : Nat :=
  firstStatus [s.sealKey q e,
    if e.sealed ∧ e.sealSeq < mapGet (natD 0) s.host.sealUsed (2 * (q / 2) + dir) then hsReplayed else 0]

/-- Record the use of a SEAL_SEQ: the least a later entry of the direction may use is one more. -/
def State.useSeal (s : State) (q dir : Nat) (e : SqEntry) : State :=
  if e.sealed then
    { s with host := { s.host with sealUsed := mapSet (natD 0) s.host.sealUsed (2 * (q / 2) + dir) (e.sealSeq + 1) } }
  else s

/-- Chunks of 4,096 B that verify before the first that fails, of an inbound payload (R338). -/
def goodChunks (sealed : Bool) (tags : List Bool) (length : Nat) : Nat :=
  if sealed then (tags.takeWhile id).length else (length + 4095) / 4096

/-- Bytes of an inbound entry that pass. -/
def goodBytes (e : SqEntry) (tags : List Bool) : Nat := min e.length (4096 * goodChunks e.sealed tags e.length)

/-- Pieces of a run of n bytes from store address a that do not cross a 512 B unit. -/
def unitRuns (fuel a n : Nat) : List (Nat × Nat) :=
  match fuel with
  | 0 => []
  | k + 1 =>
    if n = 0 then []
    else
      let l := min n (512 - a % 512)
      (a, l) :: unitRuns k (a + l) (n - l)

/-- Queue the store requests of an entry: requester number `num`, n bytes at address a (R329, R333) (DESIGN CHOICE, log entry 97). -/
def State.hostRequests (s : State) (q num : Nat) (op : StoreOp) (a n : Nat) (ws : List PWord) (first : Nat) : State :=
  let runs := unitRuns (n / 64 + 1) a n
  let rs := runs.zipIdx.map (fun ri =>
    ({ stack := saStack ri.1.1, pch := saPch ri.1.1, part := q / 2, who := .hostDma num q (first + ri.2), op := op,
       addr := ri.1.1, len := ri.1.2, data := ((ws.drop ((ri.1.1 - a) / 4)).take (ri.1.2 / 4)), status := .queued, age := 0,
       prio := 0, refused := false, page := none, link := 0, at_ := saStack ri.1.1 / 6 } : StoreReq))
  (s.modStore (fun t => { t with reqs := t.reqs ++ rs })).modJob q (fun j => { j with total := j.total + rs.length })

/-- The words of a payload. -/
def payloadWords (data : List Byte) (n : Nat) : List PWord :=
  wordsOfBytes (data.take n ++ List.replicate (n - data.length) 0)

/-- SQ_WRITE: host to store. Chunks are written up to the first whose tag fails (R333, R336, R338). -/
def sqWriteEffect (q : Nat) (e : SqEntry) (data : List Byte) (tags : List Bool) (s : State) : State :=
  if !s.queueReady q then s
  else
    let s1 := s.takeEntry q 2 e
    let a := e.target.toNat
    let st := firstStatus [if entryMisaligned e then hsAlign else 0,
      if a % 64 ≠ 0 ∨ 2 ^ 48 ≤ a ∨ saView a ∨ !saRun a e.length then hsRange else 0, s.sealStatus q 0 e]
    if st ≠ 0 then s1.endEntry q st
    else
      let n := goodBytes e tags
      let s2 := (s1.useSeal q 0 e).hostRequests q q .write a n (payloadWords data n) 0
      if n < e.length then s2.endEntry q hsAuth else s2

def execSqWrite (q : Nat) (e : SqEntry) (data : List Byte) (tags : List Bool) (s : State) : Answer :=
  onQueue q (sqWriteEffect q e data tags s)

/-- SQ_READ: store to host (R333, R336). -/
def sqReadEffect (q : Nat) (e : SqEntry) (s : State) : State :=
  if !s.queueReady q then s
  else
    let s1 := s.takeEntry q 3 e
    let a := e.target.toNat
    let st := firstStatus [if entryMisaligned e then hsAlign else 0,
      if a % 64 ≠ 0 ∨ 2 ^ 48 ≤ a ∨ !saRun a e.length then hsRange else 0, s.sealStatus q 1 e]
    if st ≠ 0 then s1.endEntry q st else (s1.useSeal q 1 e).hostRequests q q .read a e.length [] 0

def execSqRead (q : Nat) (e : SqEntry) (s : State) : Answer := onQueue q (sqReadEffect q e s)

/-- Host data passes the south-west corner bridge and any other on its way to an edge switch, a slot for each 512 B (R194, R341)
(DESIGN CHOICE, log entry 81). -/
def State.fromHost (s : State) (p edge n : Nat) : Option State :=
  (List.range ((n + 511) / 512)).foldl (fun acc _ => acc.bind (fun t =>
    if edge = 0 ∨ edge = 3 then (t.bridgeSlot p 4).bind (fun u => u.cross p 3 edge)
    else (t.bridgeSlot p 7).bind (fun u => u.cross p 2 edge))) (some s)

/-- Words of a host flow wait at its edge link as elastic flits (R341). -/
def State.ingestFlits (s : State) (q f : Nat) (ws : List PWord) : State :=
  let edge := bitsN (s.hflowWord f) 5 4
  let c := s.hflowCluster f
  let key := queueKey c edge (q / 2)
  (s.modFabric (fun x => { x with edges := mapMod flitsD x.edges key (· ++
    mkFlits (q / 2) c edge s.clock.fab ws (fun _ => .toFlow c q f (hflowOf (s.hflowWord f)).circ)) })).feedEdge key

/-- INGEST: host data lands in a host flow's arrival region (R340, R341) (DESIGN CHOICE, log entry 97). -/
def ingestEffect (q : Nat) (e : SqEntry) (data : List Byte) (tags : List Bool) (s : State) : State :=
  if !s.queueReady q then s
  else
    let s1 := s.takeEntry q 4 e
    let f := e.target.toNat
    let flow := hflowOf (s.hflowWord f)
    let st := firstStatus [if entryMisaligned e then hsAlign else 0,
      if 256 ≤ f ∨ !flow.en ∨ mapGet (natD 255) s.host.flowOwner f ≠ q / 2 then hsNoFlow else 0, s.sealStatus q 0 e]
    if st ≠ 0 then s1.endEntry q st
    else
      let n := goodBytes e tags
      let s2 := (s1.useSeal q 0 e).modJob q (fun j => { j with total := n })
      let s3 := if n = 0 then s2 else match s2.fromHost (q / 2) (bitsN (s.hflowWord f) 5 4) n with
        | some t => t.ingestFlits q f (payloadWords data n)
        | none => s2
      if n < e.length then s3.endEntry q hsAuth else s3

def execIngest (q : Nat) (e : SqEntry) (data : List Byte) (tags : List Bool) (s : State) : Answer :=
  onQueue q (ingestEffect q e data tags s)

/-- Is every sequencer of partition p in IDLE, DONE, STOPPED or FAULT (R339)? -/
def State.loadable (s : State) (p : Nat) : Bool :=
  s.clusters.all (fun kv => !(s.owns p kv.1) || [SeqState.idle, .done, .stopped, .fault].contains kv.2.seq.state)

/-- BIND_LOAD: image bytes in contiguous offsets; with LAST the image is measured, checked and loaded (R339).
(DESIGN CHOICE, log entry 12.) (DEDUCED, log entry 99). -/
def bindLoadEffect (q : Nat) (e : SqEntry) (data : List Byte) (tags : List Bool) (image : Option Binding) (s : State) : State :=
  if !s.queueReady q then s
  else if (s.wakeOf (q / 2)).w ≠ 0 then s.wakeUp (q / 2)
  else
    let p := q / 2
    let s1 := s.takeEntry q 1 e
    let b := s.bind p
    let st := firstStatus [if entryMisaligned e then hsAlign else 0,
      if e.target.toNat ≠ b.received.length ∧ e.target.toNat ≠ 0 then hsRange else 0, s.sealStatus q 0 e]
    if st ≠ 0 then s1.endEntry q st
    else if !s.loadable p || b.state == 5 then
      (s1.modBind p (fun x => { x with refuse := refuseBusy })).endEntry q hsBindRefused
    else
      let n := goodBytes e tags
      let old := if e.target.toNat = 0 then [] else b.received
      let got := old ++ (data ++ List.replicate (e.length - data.length) 0).take n
      let s2 := ((s1.useSeal q 0 e).modBind p (fun x => { x with received := got, loading := true, state := 1 })).modOwner p
        (fun o => { o with measure := 0 })
      let s3 := s2.modJob q (fun j => { j with moved := n })
      if n < e.length then s3.endEntry q hsAuth
      else if e.last then
        let r := s3.loadImage p image got
        if r.1 ≠ 0 then r.2.endEntry q hsBindRefused else r.2
      else s3

def execBindLoad (q : Nat) (e : SqEntry) (data : List Byte) (tags : List Bool) (image : Option Binding) (s : State) : Answer :=
  onQueue q (bindLoadEffect q e data tags image s)

/-! Completion. -/

/-- Are the effects of an entry done (R336)? A parameter-server pull needs every byte received and written; a push needs its
acknowledgement. -/
def State.jobDone (s : State) (q : Nat) (j : HostJob) : Bool :=
  let idle := !(s.store.reqs.any (hostRequestOf q))
  match j.op with
  | 1 => true
  | 4 => decide (j.total ≤ j.acked)
  | 5 => idle && (j.status != 0 || decide (j.e.length ≤ j.acked))
  | 6 => idle && (j.status != 0 || decide (j.e.length ≤ j.moved))
  | _ => idle

/-- Data a READ has moved, request by request up to the first not read. -/
def HostJob.output (j : HostJob) : List (List PWord) :=
  ((List.range j.total).map (fun i => mapGet (fun _ => []) j.read i)).takeWhile (fun ws => !ws.isEmpty)

/-- ENTRY_COMPLETE: the completion is written after the entry's effects, with any MSI-X after it (R332, R336). -/
def entryCompleteEffect (q : Nat) (s : State) : State :=
  match (s.hostQ q).job with
  | none => s
  | some j =>
    if !s.jobDone q j then s
    else
      let ws := j.output.flatten
      let s1 := if j.op = 3 ∧ !ws.isEmpty then s.emit (.toHost q 0 (bytesOfWords ws)) else s
      let st := if j.status = 0 ∧ j.op = 3 ∧ 0 < j.poison then hsPoison else j.status
      let s2 := if j.op = 3 then s1.count (counterKey (0x5200 + q / 2) 6 0) j.moved
        else if j.op = 5 ∨ j.op = 6 then s1 else s1.count (counterKey (0x5200 + q / 2) 5 0) j.moved
      s2.writeCompletion q st j.moved j.poison j.mixed j.e

def execEntryComplete (q : Nat) (s : State) : Answer := onQueue q (entryCompleteEffect q s)

end Sys2Proof.Machine
end

