-- ==== Sys2Proof/Machine/Server.lean ====
section
/-! DEFINITION. The server ports: sessions and their replay window (R343, R384), export (R345, R346), the parameter-server
exchange (R347), link state and ICMPv6 (Table 11.5). -/

namespace Sys2Proof.Machine

open Sys2Proof

/-- Guard of a command that names a server port. -/
def onServer (k : Nat) (t : State) : Answer := onNumber "server port" 2 k t

def State.modServer (s : State) (f : Server → Server) : State := { s with server := f s.server }

/-! Datagrams. -/

/-- Accept a datagram, or drop it: its session, its tag, and the window of 1,024 PKT_SEQ values (R343); a session ends before PKT_SEQ
2^48 (R384). -/
def Srv.accepts (x : Srv) (d : Dgram) : Bool :=
  x.up && d.tagOk && d.keyGen == x.keyGen && decide (d.pktSeq < 2 ^ 48) && (match x.rxHigh with
    | none => true
    | some h => decide (h < d.pktSeq + 1024) && !x.rxSeen.contains d.pktSeq)

def Srv.note (x : Srv) (q : Nat) : Srv :=
  let h := match x.rxHigh with | none => q | some h => max h q
  { x with rxHigh := some h, rxSeen := (q :: x.rxSeen).filter (fun v => decide (h < v + 1024)) }

/-- The window of a received datagram, then what it does; one of no session, or that the receiver does not accept, is dropped (R343). -/
def onDatagram (d : Dgram) (act : State → State) (s : State) : Answer :=
  .next (if d.part < 8 ∧ d.peer < 9 ∧ (s.srv d.part d.peer).accepts d then act (s.modSrv d.part d.peer (fun x => x.note d.pktSeq)) else s)

/-- May the session with a peer carry a datagram? A new handshake is made before PKT_SEQ reaches 2^48 (R384). -/
def Srv.usable (x : Srv) : Bool := x.up && decide (x.txSeq.toNat < 2 ^ 48)

/-- Send a datagram to a peer: its counter and key generation (R343). -/
def State.sendDatagram (s : State) (port ty p peer stack id offset ackId : Nat) (last : Bool) (data : List Byte) : State :=
  let x := s.srv p peer
  (s.modSrv p peer (fun y => { y with txSeq := y.txSeq + 1 })).emit
    (.datagram port ty { peer := peer, tagOk := true, part := p, stack := stack, id := id, offset := offset, last := last,
                         pktSeq := x.txSeq.toNat, keyGen := x.keyGen, ackId := ackId, data := data })

/-- Payload a port puts in one datagram (R343, Table 11.5). -/
def State.payloadMax (s : State) (port : Nat) : Nat :=
  match (s.srvPort port).mtu with
  | none => 8192
  | some m => max 64 (min 8192 ((m - 96) / 64 * 64))

/-! Export. -/

/-- Committed segments of partition p in a stack, in order. -/
def Uep.exportable (x : Uep) : List Segment :=
  let hs := x.halves.filter Half.released
  match hs with
  | [a, b] => if a.step.toNat ≤ b.step.toNat then a.segs ++ b.segs else b.segs ++ a.segs
  | _ => hs.flatMap Half.segs

/-- The server port a stack's export leaves on: stack mod 2, or the other while that one is down (R345). -/
def State.exportPort (s : State) (stack : Nat) : Nat := if (s.srvPort (stack % 2)).up then stack % 2 else 1 - stack % 2

/-- Export destination of partition p: all zeros sends nothing (R503). -/
def State.exportDest (s : State) (p : Nat) : Nat := s.setting (0x3C10 + p) 1

/-- The next segment to send of partition p from a stack. -/
def State.nextSegment (s : State) (stack p : Nat) : Option Segment :=
  (s.uep stack p).exportable.find? (fun g => g.seg.toNat == (s.exp stack p).nextSeg)

/-- Last step of p all of whose segments in a stack are acknowledged. -/
def Uep.ackedStep (x : Uep) : Nat :=
  (x.halves.filter (fun h => h.released && !h.acked)).foldl (fun acc h => min acc (h.step.toNat - 1)) x.committed.toNat

/-- 0x3C10 + p .0B: last step acknowledged on every stack. -/
def State.ackedSteps (s : State) (p : Nat) : Nat :=
  match s.stacksOf p with
  | [] => 0
  | k :: r => r.foldl (fun acc j => min acc (s.uep j p).ackedStep) (s.uep k p).ackedStep

/-- An acknowledgement up to a segment: a half whose last segment it covers is free (R262), and EXPORT_ACKED shows the last step all
of whose export is acknowledged (R267). -/
def Uep.ackTo (u : Uep) (n : Nat) : Uep :=
  let covers (h : Half) : Bool := h.released && h.segs.all (fun g => decide (g.seg.toNat ≤ n))
  let v := { u with halves := u.halves.map (fun h => if covers h then { h with acked := true } else h) }
  if u.halves.any (fun h => covers h && !h.acked) then { v with exportAcked := BitVec.ofNat 32 v.ackedStep } else v

/-- EXP_ACK: committed segments up to ACK_ID are acknowledged, those to be sent again after a rewind too (R345); any advance returns
the retransmission time to 2 ms (R346) (DEDUCED, log entry 102). -/
def expAckEffect (d : Dgram) (s : State) : State :=
  let x := s.exp d.stack d.part
  if d.stack ≥ 24 ∨ d.ackId ≤ x.acked ∨ !((s.uep d.stack d.part).exportable.any (fun g => g.seg.toNat == d.ackId)) then s
  else
    let s1 := s.modExp d.stack d.part (fun y => { y with
      acked := d.ackId, rto := 2000000, sentAt := s.localNs, nextSeg := max y.nextSeg (d.ackId + 1)
      nextOff := if y.nextSeg ≤ d.ackId then 0 else y.nextOff })
    let s2 := s1.modUep d.stack d.part (fun u => u.ackTo d.ackId)
    let covered := ((s.uep d.stack d.part).halves.flatMap Half.segs).filter (fun g =>
      decide (x.acked < g.seg.toNat) && decide (g.seg.toNat ≤ d.ackId))
    let bytes := covered.foldl (fun acc g => acc + 64 * ((72 + g.payload.length + 63) / 64)) 0
    let s2 := s2.count (counterKey (0x5200 + d.part) 7 0) bytes
    let s3 := if s.server.stalled.contains d.part then s2.raiseEvent 9 (0x3C10 + d.part) 10 [d.part, d.stack] else s2
    s3.modServer (fun v => { v with
      stalled := v.stalled.filter (· != d.part)
      advancedAt := mapSet (natD 0) v.advancedAt d.part s.localNs
      ackedStep := mapSet (natD 0) v.ackedStep d.part (s2.ackedSteps d.part) })

def execExpAck (d : Dgram) (s : State) : Answer := onDatagram d (fun t => if d.peer = 8 then expAckEffect d t else t) s

/-- EXPORT_RETRANSMIT: an uncovered segment is sent again whole and the time doubles, to at most 256 ms (R346). -/
def retransmitEffect (stack p : Nat) (s : State) : State :=
  let x := s.exp stack p
  if x.nextSeg ≤ x.acked + 1 then s
  else
    let s1 := s.atNs (x.sentAt + x.rto)
    s1.modExp stack p (fun y => { y with
      nextSeg := y.acked + 1, nextOff := 0, rto := min 256000000 (2 * y.rto), sentAt := s1.localNs })

def execExportRetransmit (stack p : Nat) (s : State) : Answer := onStackPart stack p (retransmitEffect stack p s)

/-- EXPORT_STALL_TIMEOUT: nothing of p has advanced for 30 s while segments wait (R346, R503). -/
def stallEffect (p : Nat) (s : State) : State :=
  if s.ueps.any (fun kv => kv.1 % 8 == p && kv.2.halves.any (fun h => h.released && !h.acked)) then
    let s1 := s.atNs (mapGet (natD 0) s.server.advancedAt p + 30000000000)
    if s.server.stalled.contains p then s1
    else
      let stack := ((s.ueps.find? (fun kv => kv.1 % 8 == p && kv.2.halves.any (fun h => h.released && !h.acked))).map (fun kv => kv.1 / 8)).getD 0
      (s1.modServer (fun v => { v with stalled := v.stalled ++ [p] })).raiseEvent 9 (0x3C10 + p) 10 [p, stack]
  else s

def execExportStallTimeout (p : Nat) (s : State) : Answer := onPartition p (stallEffect p s)

/-! The parameter-server exchange (R347). -/

/-- Peer and store address of a parameter-server entry (Table 11.3). -/
def psPeer (e : SqEntry) : Nat := bitsN e.target.toNat 50 48
def psAddr (e : SqEntry) : Nat := e.target.toNat % 2 ^ 48

/-- Server port an exchange uses: port 0, or port 1 while it is down (DEDUCED, log entry 102). -/
def State.psPort (s : State) : Nat := if (s.srvPort 0).up then 0 else 1

/-- Does a run lie in HOST pages (kind 5)? -/
def State.inHostPages (s : State) (a n : Nat) : Bool :=
  (List.range ((a % 2 ^ 21 + n + 2 ^ 21 - 1) / 2 ^ 21)).all (fun i => (s.page (saStack a) (saPage a + i)).kind == 5)

/-- The checks both entries share before their first request; no host data are sealed, so no SEAL_SEQ is used (R333, R338, R382)
(DEDUCED, log entry 82). -/
def State.psStatus (s : State) (q : Nat) (e : SqEntry) : Nat :=
  let a := psAddr e
  firstStatus [if entryMisaligned e then hsAlign else 0, if a % 64 ≠ 0 ∨ saView a ∨ !saRun a e.length then hsRange else 0, s.sealKey q e,
    if s.inHostPages a e.length then 0 else hsDenied]

/-- PS_PUSH: the region is read and sent to the peer. -/
def psPushEffect (q : Nat) (e : SqEntry) (s : State) : State :=
  if !s.queueReady q then s
  else
    let s1 := s.takeEntry q 5 e
    let st := s.psStatus q e
    if st ≠ 0 then s1.endEntry q st else s1.hostRequests q (16 + s.psPort) .read (psAddr e) e.length [] 0

def execPsPush (q : Nat) (e : SqEntry) (s : State) : Answer := onQueue q (psPushEffect q e s)

/-- PS_PULL: the transfer is requested of the peer. -/
def psPullEffect (q : Nat) (e : SqEntry) (s : State) : State :=
  if !s.queueReady q then s
  else
    let s1 := s.takeEntry q 6 e
    let st := s.psStatus q e
    if st ≠ 0 then s1.endEntry q st else s1

def execPsPull (q : Nat) (e : SqEntry) (s : State) : Answer := onQueue q (psPullEffect q e s)

/-- The queue of partition p whose entry in progress is the transfer `id` with a peer. -/
def State.transferQueue (s : State) (p op id peer : Nat) : Option Nat :=
  [2 * p, 2 * p + 1].find? (fun q =>
    match (s.hostQ q).job with
    | some j => j.op == op && j.e.xferId == id && psPeer j.e == peer
    | none => false)

/-- PS_DATA: a payload not received before is written into the region; the transfer is acknowledged once it is whole. -/
def psDataEffect (d : Dgram) (s : State) : State :=
  match s.transferQueue d.part 6 d.id d.peer with
  | none => s
  | some q =>
    match (s.hostQ q).job with
    | none => s
    | some j =>
      let n := d.data.length / 64 * 64
      if n = 0 ∨ d.offset % 64 ≠ 0 ∨ j.e.length < d.offset + n then s
      else
        let again := (mapFind j.read d.offset).isSome
        let s1 := if again then s
          else (s.hostRequests q (16 + s.psPort) .write (psAddr j.e + d.offset) n (wordsOfBytes (d.data.take n)) 0).modJob q (fun x =>
            { x with acked := x.acked + n, progressAt := s.localNs, read := mapSet (fun _ => []) x.read d.offset [⟨0, false⟩] })
        let got := if again then j.acked else j.acked + n
        if j.e.length ≤ got then s1.sendDatagram s.psPort 0x04 d.part d.peer 0xFF d.id 0 d.id true [] else s1

def execPsData (d : Dgram) (s : State) : Answer := onDatagram d (psDataEffect d) s

/-- PS_ACK: the peer's acknowledgement covers a pushed transfer. -/
def psAckEffect (d : Dgram) (s : State) : State :=
  match s.transferQueue d.part 5 d.ackId d.peer with
  | none => s
  | some q => s.modJob q (fun j => { j with acked := j.e.length, progressAt := s.localNs })

def execPsAck (d : Dgram) (s : State) : Answer := onDatagram d (psAckEffect d) s

/-- KEEPALIVE: authenticated and accepted, and nothing more. -/
def execKeepalive (d : Dgram) (s : State) : Answer := onDatagram d id s

/-- PS_PEER_TIMEOUT: no progress for 10 s ends the entry with PEER_FAIL; what is written stays written. -/
def peerTimeoutEffect (q : Nat) (s : State) : State :=
  match (s.hostQ q).job with
  | none => s
  | some j =>
    if (j.op == 5 || j.op == 6) && j.status == 0 && !s.jobDone q j then
      let s1 := s.atNs (j.progressAt + 10000000000)
      (s1.modStore (fun t => { t with reqs := t.reqs.filter (fun r => !hostRequestOf q r) })).endEntry q hsPeerFail
    else s

def execPsPeerTimeout (q : Nat) (s : State) : Answer := onQueue q (peerTimeoutEffect q s)

/-! Sending. -/

/-- One export datagram of partition p from a stack. -/
def State.sendExport (s : State) (port stack p : Nat) (g : Segment) : State :=
  let x := s.exp stack p
  let c := s.coord
  let bytes := segBytes g p stack c.1 c.2.1 c.2.2
  let n := s.payloadMax port
  let last := decide (bytes.length ≤ x.nextOff + n)
  (s.sendDatagram port 0x01 p 8 stack x.nextSeg x.nextOff 0 last ((bytes.drop x.nextOff).take n)).modExp stack p (fun y => { y with
    nextSeg := if last then y.nextSeg + 1 else y.nextSeg
    nextOff := if last then 0 else y.nextOff + n
    sentAt := if y.nextSeg = y.acked + 1 ∧ last then s.localNs else y.sentAt })

/-- Bytes a push has read so far from the start of its region. -/
def HostJob.readBytes (j : HostJob) : List Byte := bytesOfWords j.output.flatten

/-- What a parameter-server entry has to send: the offset, or none. An unanswered transfer is sent again after its
retransmission time (R346, R347). -/
def HostJob.toSend (j : HostJob) (now : Nat) : Option Nat :=
  if j.status ≠ 0 ∨ (j.op ≠ 5 ∧ j.op ≠ 6) then none
  else if j.op = 5 then
    if j.e.length ≤ j.acked then none
    else if j.sent < j.readBytes.length then some j.sent
    else if j.sent = j.e.length ∧ j.sentAt + j.rto ≤ now then some 0 else none
  else if j.e.length ≤ j.acked then none
  else if j.sent = 0 ∨ j.sentAt + j.rto ≤ now then some 0 else none

/-- One datagram of a parameter-server entry. -/
def State.sendPs (s : State) (port q off : Nat) (j : HostJob) : State :=
  let p := q / 2
  let again := decide (0 < j.sent) && off == 0
  let rto := if again then min 256000000 (2 * j.rto) else j.rto
  if j.op = 5 then
    let n := s.payloadMax port
    let data := (j.readBytes.drop off).take n
    let last := decide (j.e.length ≤ off + data.length)
    (s.sendDatagram port 0x03 p (psPeer j.e) 0xFF j.e.xferId off 0 last data).modJob q (fun x => { x with
      sent := off + data.length, rto := rto, sentAt := s.localNs })
  else
    (s.sendDatagram port 0x05 p (psPeer j.e) 0xFF j.e.xferId 0 0 true (beBytes 4 j.e.length)).modJob q (fun x => { x with
      sent := 1, rto := rto, sentAt := s.localNs })

/-- SERVER_DATAGRAM_SEND: in a slot of its owner the port sends one datagram: export first, by stack, then the owner's queues
(R344 to R347) (DEDUCED, log entry 102). -/
def datagramSendEffect (port slot : Nat) (s : State) : State :=
  let s1 := s.modServer (fun v => { v with ports := mapMod srvPortD v.ports port (fun x => { x with slot := slot }) })
  if !(s.srvPort port).up then s1
  else
    match slotOwner s.pmap.srvShare slot with
    | none => s1
    | some p =>
      let stackTab := (List.range 24).filter (fun k =>
        s.exportPort k == port && (s.nextSegment k p).isSome && (s.srv p 8).usable && s.exportDest p != 0)
      match stackTab with
      | k :: _ =>
        match s.nextSegment k p with
        | some g => s1.sendExport port k p g
        | none => s1
      | [] =>
        let jobs := [2 * p, 2 * p + 1].filterMap (fun q =>
          match (s.hostQ q).job with
          | some j =>
            if s.psPort = port ∧ (s.srv p (psPeer j.e)).usable then (j.toSend s.localNs).map (fun off => (q, off, j)) else none
          | none => none)
        match jobs with
        | x :: _ => s1.sendPs port x.1 x.2.1 x.2.2
        | [] => s1

def execServerDatagramSend (port slot : Nat) (s : State) : Answer :=
  if slot < 256 then onServer port (datagramSendEffect port slot s) else .fault (.noSuchElement "server slot" slot)

/-! Sessions and links. -/

/-- SERVER_HANDSHAKE: only the key whose hash the binding names is accepted; KEY_GEN counts the handshakes completed since the
owner epoch began (R384). -/
def handshakeEffect (p peer : Nat) (peerHash : BitVec 384) (sigOk : Bool) (s : State) : State :=
  let named : Option (BitVec 384) := match (s.bind p).image with
    | some b => mapFind b.peers peer
    | none => none
  if sigOk && named == some peerHash && (s.owner p).keyState == 2 && s.trust.lifecycle == 2 then
    s.modSrv p peer (fun x => { x with up := true, keyGen := x.keyGen + 1, txSeq := 0, rxHigh := none, rxSeen := [] })
  else s

def execServerHandshake (p peer : Nat) (peerHash : BitVec 384) (sigOk : Bool) (s : State) : Answer :=
  if p < 8 then onNumber "server peer" 9 peer (handshakeEffect p peer peerHash sigOk s) else .fault (.noSuchElement "partition" p)

/-- SERVER_LINK_DOWN: export goes on by the other port, delayed (R345, R455). -/
def execServerLinkDown (port : Nat) (s : State) : Answer :=
  onServer port (s.modServer (fun v => { v with ports := mapMod srvPortD v.ports port (fun x => { x with up := false }) }))

/-- SERVER_LINK_UP: the port carries its stacks' export again (R345). -/
def execServerLinkUp (port : Nat) (s : State) : Answer :=
  onServer port (s.modServer (fun v => { v with ports := mapMod srvPortD v.ports port (fun x => { x with up := true }) }))

/-- ICMPV6_MESSAGE: neighbour discovery and echo are answered; Packet Too Big bounds the datagrams; Destination Unreachable is
processed and leaves retransmission to do its work (R342, R346, Table 11.5). -/
def execIcmpv6Message (port : Nat) (m : IcmpMsg) (s : State) : Answer :=
  onServer port (match m with
    | .neighbourSolicitation => if (s.srvPort port).up then s.emit (.icmp port 0) else s
    | .echoRequest => if (s.srvPort port).up then s.emit (.icmp port 1) else s
    | .packetTooBig mtu =>
      s.modServer (fun v => { v with ports := mapMod srvPortD v.ports port (fun x => { x with mtu := some mtu }) })
    | .unreachable => s)

end Sys2Proof.Machine
end

