-- ==== Sys2Proof/Machine/Trust.lean ====
section
/-! DEFINITION. Lifecycle, owners, keys and reports (R368 to R386), and the copies of a stored record (R442 to R444). A
signature check, a decapsulation and an unwrapping are inputs by their outcome; every key the module derives by HKDF alone is
derived. -/

namespace Sys2Proof.Machine

open Sys2Proof

/-- The lifecycle record as the present state gives it. -/
def State.lifecycleVal (s : State) : NvVal := .lifecycle s.trust.lifecycle s.trust.operatorPk s.trust.sealEpoch

def State.modTrust (s : State) (f : Trust → Trust) : State := { s with trust := f s.trust }

/-! Stopping at once. -/

/-- Partition p stops and everything it launched is over (R94, R259). -/
def State.stopNow (s : State) (p why : Nat) : State :=
  if s.partStopped p then s
  else
    let s1 := if (s.part p).stopping.isSome then s else stopDeliveredEffect p (s.raiseStop p why)
    let s2 := s1.modFabric (fun f => { f with
      flits := f.flits.filter (fun x => x.part != p), landings := f.landings.filter (fun x => x.part != p) })
    let s3 := s2.eachCtx p (fun _ x => if x.state = 4 then { x with state := 0, descs := [], reqs := [] } else x)
    partitionStoppedEffect p s3

def State.stopAllNow (s : State) (why : Nat) : State := (List.range 8).foldl (fun t p => t.stopNow p why) s

/-! Owners (R377, R378). -/

/-- Time in ns that the zeroing of a partition's resources takes (Table 13.6). -/
def State.zeroTime (s : State) (p : Nat) : Nat :=
  let share := max 1 (s.pmap.storeShare.getD p 0)
  let pages := (List.range 24).foldl (fun acc k => max acc (s.pmap.pages.getD (8 * k + p) (0, 0)).2) 0
  max 20000 (pages * 1050 * 256 / share)

/-- A cluster whose owner changes: its memories, registers, contexts and sync objects; zeroing is in progress (R106, R122, R123,
R136, R228). -/
def State.zeroOwned (t : State) (c : Nat) : State :=
  let t1 := t.zeroCluster c (fun _ => true) true
  let t2 := t1.modCluster c (fun x => { Cluster.reset with guard := x.guard, zeroBusy := true, zeroUntil := t.clock.fab + 4096 })
  (List.range 4).foldl (fun u k => (u.modCtx c k (fun _ => Ctx.reset)).modSync (4 * c + k) (fun _ => SyncObj.reset)) t2

/-- Pages go to another owner: they are zeroed and their table entries reset, requests still on their way to them are refused, and the
update engine's registers of their stacks and the blocks of the partitions they belonged to are reset (R61, R201, R268). `ns` is the
time the zeroing of a stack takes. -/
def State.givePages (s : State) (moves : Nat → Nat → Bool) (block : Nat → Nat → Bool) (ns : Nat → Nat) : State :=
  let goes (a : Nat) : Bool :=
    let q := a / 16 / 2 ^ 18
    match s.logicalPage (q / 24704) (q % 24704) with
    | some g => moves (q / 24704) g
    | none => false
  let s1 := { s with smem := mapClear s.smem goes, ueps := mapAll uepD s.ueps (fun k x => if block (k / 8) (k % 8) then Uep.reset else x) }
  s1.modStore (fun st => { st with
    pages := mapAll pageD st.pages (fun k g =>
      if moves (k / 24576) (k % 24576) then { Page.reset with remapped := g.remapped, spareIdx := g.spareIdx } else g)
    reqs := st.reqs.map (fun r => if moves r.stack (saPage r.addr) then { r with status := .granted, refused := true } else r)
    stackTab := ((List.range 24).filter (fun k => (List.range 8).any (block k))).foldl (fun m k =>
      mapMod stackD m k (fun x => { x.resetUe with zeroUntil := s.localNs + ns k })) st.stackTab })

/-- Zero every resource of a partition (Table 13.6): cluster, quire and stream-context memory, registers, flags and counts,
store pages and the system page, slot tables and groups, flows, port buffers, counters. -/
def State.zeroPartition (s : State) (p : Nat) : State :=
  let s1 := (s.clustersOf p).foldl State.zeroOwned s
  let mine (k : Nat) : Bool := s.entryOwner (k / 256 / 5) (k / 256 % 5) (k % 256) == some p
  let s2 := s1.modFabric (fun f => { f with tables := mapClear f.tables mine })
  let s3 := (List.range 256).foldl (fun t g =>
    if s.groupOwner g = some p then (t.modGroup g (fun _ => Group.reset)).modColl g (fun _ => Coll.reset) else t) s2
  let s4 := s3.givePages (fun k n => s.pageOwner k n == some p) (fun k q => q == p && s.ownsPages k p)
    (fun k => s.pagesTime p (s.pmap.pages.getD (8 * k + p) (0, 0)).2)
  let s5 := { s4 with smem := mapClear s4.smem (fun a => a / 16 / 2 ^ 18 % 24704 == systemPage p) }.modStore (fun st =>
    { st with reqs := st.reqs.filter (fun r => r.part != p) })
  let s6 := { s5 with
    ueps := mapAll uepD s5.ueps (fun k x => if k % 8 = p then Uep.reset else x)
    idles := mapAll idleD s5.idles (fun k x => if k = p then { Idle.reset with interval := x.interval } else x)
    counters := mapClear s5.counters (fun k => k / 8192 / 256 == 0x5200 + p)
    server := { s5.server with
      exports := mapAll exportD s5.server.exports (fun k x => if k % 8 = p then Export.reset else x)
      stalled := s5.server.stalled.filter (· != p) } }
  { s6 with ports := mapAll portD s6.ports (fun n x => if s.portOwner n = some p then { x with flows := [], landed := [] } else x) }

/-- An owner change of partition p (R377, R378): the epoch, the keys, the sessions, the host queues, then the zeroing. -/
def State.ownerChange (s : State) (p : Nat) (id : BitVec 384) : State :=
  let s1 := s.modOwner p (fun o => { o with
    id := id, epoch := o.epoch + 1, keyState := 0, runId := 0, runKey := 0, ekNonce := 0, measure := 0 })
  let s2 := (List.range 9).foldl (fun t k => t.modSrv p k (fun _ => Srv.reset)) (s1.nvErase 5 p)
  let s3 := ((List.range 256).filter (fun n => s.portOwner n == some p)).foldl (fun t n => t.dropSession n) s2
  let s4 := s3.disableOwnerQueues p
  let mine (f : Nat) : Bool := mapGet (natD 255) s4.host.flowOwner f == p
  let s5 := { s4 with host := { s4.host with
    sealUsed := mapClear s4.host.sealUsed (fun k => k / 2 == p), flows := mapClear s4.host.flows mine,
    landed := mapClear s4.host.landed mine, flowOwner := mapClear s4.host.flowOwner mine } }
  let s6 := (s5.zeroPartition p).modOwner p (fun o => { o with busy := true, busyUntil := s.localNs + s.zeroTime p })
  let s7 := (s6.modPart p (fun _ => Part.reset)).modBind p (fun _ => { Bind.reset with newOwner := true })
  let s8 := { s7 with faults := { s7.faults with exhausted := s7.faults.exhausted.filter (· != p) } }
  s8.releaseStacks.raiseEvent 10 0x1810 1 [s.trust.lifecycle, p, (s8.owner p).epoch.toNat]

/-- Index of OWNER_ID of partition p in the settings of its record. -/
def ownerKey (p : Nat) : Nat := (0x1810 + p) * 256 + 1

/-- May owners be assigned and bindings loaded in this state (Table 13.4)? -/
def State.computeState (s : State) : Bool := s.testState || s.trust.lifecycle == 2

/-- OWNER_ID_WRITE: the value becomes part of a stored record, and is in force once that is committed (R377, R490, R491);
refused while p is not stopped. A value equal to the one in force writes nothing. -/
def ownerIdEffect (p : Nat) (owner : BitVec 384) (who : MCore) (reply : Option (Nat × Nat × Nat × Nat)) (s : State) : State :=
  if !s.computeState || !(s.partStopped p) || (s.owner p).id = owner then s
  else s.nvRequest 6 (0x810 + p) (.change [(ownerKey p, owner.toNat), (ownerKey p + 1, ((s.owner p).epoch + 1).toNat)]) (some who) reply

def execOwnerIdWrite (p : Nat) (owner : BitVec 384) (who : MCore) (s : State) : Answer :=
  onPartition p (s.guarded who (ownerIdEffect p owner who none s))

/-- OWNER_ZEROING_COMPLETE: the last zeroing write has taken effect (R377). -/
def ownerZeroedEffect (p : Nat) (s : State) : State :=
  if (s.owner p).busy then
    let s1 := s.atNs (s.owner p).busyUntil
    let s2 := s1.modOwner p (fun o => { o with busy := false })
    { s2 with clusters := mapAll clusterD s2.clusters (fun c x => if s2.owns p c then { x with zeroBusy := false } else x) }
  else s

def execOwnerZeroingComplete (p : Nat) (s : State) : Answer := onPartition p (ownerZeroedEffect p s)

/-! Lifecycle. -/

/-- Enter a lifecycle state: its record, the event, the end of every Maunvo session, and group 4 of the pins off outside
MANUFACTURE and DEBUG (R372, R469, R515). -/
def State.enterLifecycle (s : State) (v : Nat) : State :=
  let s0 := if v = 0 ∨ v = 3 ∨ (s.pinGroup 4).fn = 0 then s else s.modPinGroup 4 (fun g => { g with fn := 0, upto := none })
  let s1 := s0.modTrust (fun t => { t with lifecycle := v })
  let s2 := (s1.nvPut 1 0 s1.lifecycleVal).raiseEvent 10 0x1800 1 [v, 255, 0]
  { s2 with maunvo := { s2.maunvo with sessions := [], handshakes := [] } }

/-- Steps 1 to 6 of R375: every partition stopped, every key destroyed, every session lost, the blobs erased under a new
SEAL_EPOCH, every owner removed and everything zeroed. -/
def State.wipe (s : State) : State :=
  let s1 := s.stopAllNow stopHost
  let s2 := ((List.range 256).foldl (fun t n => t.dropSession n) s1).modTrust (fun t => { t with sealEpoch := t.sealEpoch + 1 })
  let s3 := (List.range 8).foldl (fun t p => t.ownerChange p 0) s2
  (List.range 8).foldl (fun t p =>
    (ownerZeroedEffect p t).nvPut 6 (0x810 + p) (.settings [(ownerKey p, 0), (ownerKey p + 1, (t.owner p).epoch.toNat)])) s3

/-- Why a command is refused: CMD_FAIL, or 0 (R374, R376). `states` are the lifecycle states it is allowed in (DEDUCED, log entry 112). -/
def State.cmdFail (s : State) (cmd : LcCmd) (states : List Nat) (vendor : Bool) (more : Nat) : Nat :=
  if cmd.identity ≠ s.trust.identity then 1
  else if !(match s.trust.report with
    | some (n, at_, used) => n == cmd.nonce && decide (s.localNs < at_ + 60000000000) && !used
    | none => false) then 2
  else if !cmd.operatorSigOk then 3
  else if vendor && !cmd.vendorSigOk then 4
  else if s.trust.lifecycle ∉ states then 5
  else more

/-- Run a lifecycle command: refused with its cause, or its effect with the nonce used (R374). A write whose layout is not
Table 13.5 changes nothing. -/
def State.runCmd (s : State) (cmd : LcCmd) (fail : Nat) (effect : State → State) : State :=
  if !cmd.magicOk then s
  else if fail ≠ 0 then s.modTrust (fun t => { t with cmdFail := fail })
  else effect (s.modTrust (fun t => { t with cmdFail := 0, report := t.report.map (fun r => (r.1, r.2.1, true)) }))

/-- Entries of the test area return to their defaults (R505). -/
def State.resetTest (s : State) : State :=
  { s with dict := mapClear s.dict (fun k => k / 256 == 0x7000 || k / 256 == 0x7001) }

/-- ENTER_DEBUG (R375, R376). -/
def State.enterDebugCmd (s : State) (cmd : LcCmd) : State :=
  s.runCmd cmd (s.cmdFail cmd [2] true (if s.trust.debugCount < 64 then 0 else 6)) (fun t =>
    ((t.wipe.modTrust (fun x => { x with debugCount := x.debugCount + 1 })).resetTest).enterLifecycle 3)

def execEnterDebug (cmd : LcCmd) (who : MCore) (s : State) : Answer := .next (s.guarded who (s.enterDebugCmd cmd))

/-- RELEASE: steps 1 to 6, OPERATOR_PK cleared, PROVISIONED (R374). -/
def State.releaseCmd (s : State) (cmd : LcCmd) : State :=
  s.runCmd cmd (s.cmdFail cmd [2] false 0) (fun t =>
    (t.wipe.modTrust (fun x => { x with operatorPk := [] })).enterLifecycle 1)

def execRelease (cmd : LcCmd) (who : MCore) (s : State) : Answer := .next (s.guarded who (s.releaseCmd cmd))

/-- Stores in self-refresh, optics dark (R391, R453). -/
def State.lightsOut (s : State) : State :=
  let s1 := (List.range 256).foldl (fun t n => t.dropSession n) s
  { s1 with
    ports := mapAll portD s1.ports (fun _ x => if x.state = 7 then x else { x with state := 0, los := false })
    power := { s1.power with selfRefresh := true } }

/-- RETIRE: steps 1 to 6, the RETIRED fuse, and compute, stores and optics off (R374). -/
def State.retireCmd (s : State) (cmd : LcCmd) : State :=
  s.runCmd cmd (s.cmdFail cmd [2, 3] false 0) (fun t =>
    let t1 := t.wipe.lightsOut
    (({ t1 with power := { t1.power with stages := [] } }).modTrust (fun x => { x with retiredFuse := true })).enterLifecycle 4)

def execRetire (cmd : LcCmd) (who : MCore) (s : State) : Answer := .next (s.guarded who (s.retireCmd cmd))

/-- SET_SVN: FW_SVN rises to ARG, which may not exceed the running image's version (R374). -/
def State.setSvnCmd (s : State) (cmd : LcCmd) : State :=
  s.runCmd cmd (s.cmdFail cmd [2, 3] false (if cmd.arg ≤ s.trust.imageSvn then 0 else 5)) (fun t =>
    t.modTrust (fun x => { x with fwSvn := max x.fwSvn cmd.arg }))

def execSetSvn (cmd : LcCmd) (who : MCore) (s : State) : Answer := .next (s.guarded who (s.setSvnCmd cmd))

/-- OPERATOR_PK_WRITE: only in PROVISIONED, of 2,592 bytes; OPERATIONAL once the lifecycle record is committed (R372, R490,
R491). -/
def operatorPkEffect (pk : List Byte) (who : MCore) (reply : Option (Nat × Nat × Nat × Nat)) (s : State) : State :=
  if s.trust.lifecycle = 1 ∧ pk.length = 2592 then s.nvRequest 1 0 (.lifecycle 2 pk s.trust.sealEpoch) (some who) reply else s

def execOperatorPkWrite (pk : List Byte) (who : MCore) (s : State) : Answer := .next (s.guarded who (operatorPkEffect pk who none s))

/-- PROVISIONING: Efboran writes the colophon, the defect map and the lifecycle record and blows the PROVISIONED fuse (R371,
R372, R444). The elements the self-test has found bad make the defect map. -/
def execProvisioning (pkHash : BitVec 384) (s : State) : Answer :=
  .next (if s.trust.lifecycle = 0 ∧ !s.trust.provisionedFuse then
    let s1 := s.modTrust (fun t => { t with identity := pkHash, provisionedFuse := true })
    (s1.nvPut 2 0 (.defects (s1.faults.recs.map RetRec.element))).enterLifecycle 1
  else s)

/-! Measurements and reports. -/

/-- The partition-map image (Table 18.6a). -/
def Pmap.bytes (m : Pmap) : List Byte :=
  leBytes 4 1 ++ m.bandOwner.flatMap (leBytes 1) ++ m.meshShare.flatMap (leBytes 2) ++ m.storeShare.flatMap (leBytes 2)
    ++ m.srvShare.flatMap (leBytes 2) ++ m.ctxQuota.flatMap (leBytes 1) ++ m.groupFirst.flatMap (leBytes 1)
    ++ m.groupCount.flatMap (leBytes 2) ++ leBytes 4 0 ++ m.boundary ++ leBytes 8 0
    ++ m.pages.flatMap (fun fc => leBytes 4 fc.1 ++ leBytes 4 fc.2)

/-- PMAP_MEASURE (R385). -/
def State.pmapMeasure (s : State) : BitVec 384 :=
  sha384 (s.pmap.bytes ++ (List.range 8).flatMap (fun p => beBytes 48 (s.owner p).id.toNat)
    ++ (List.range 8).flatMap (fun p => leBytes 4 (s.owner p).epoch.toNat))

/-- Is partition p bound: an image loaded, and none in progress or refused since (R385)? -/
def State.bound (s : State) (p : Nat) : Bool := (s.bind p).image.isSome && (s.owner p).measure != 0

/-- STATE bits of a partition record. -/
def State.reportBits (s : State) (p : Nat) : Nat :=
  let o := s.owner p
  b2n (o.id != 0) + 2 * b2n (o.keyState == 2) + 4 * b2n (s.bound p) + 8 * b2n (s.part p).running + 16 * b2n o.busy

/-- The record of partition p in a report of a scope (R386). -/
def State.reportPart (s : State) (scope p : Nat) : List Byte :=
  let o := s.owner p
  let full := scope == p || scope == 0xFF
  beBytes 48 o.id.toNat ++ leBytes 4 o.epoch.toNat ++ leBytes 1 (if full then s.reportBits p else s.reportBits p % 2)
    ++ leBytes 3 0 ++ leBytes 8 (if scope = p then o.runId.toNat else 0)
    ++ beBytes 48 (if scope = p then o.measure.toNat else 0)

/-- Table 13.8 up to EK. -/
def State.reportBytes (s : State) (nonce : BitVec 256) (scope : Nat) : List Byte :=
  leBytes 4 0x52544145 ++ leBytes 2 1 ++ leBytes 1 s.trust.lifecycle ++ leBytes 1 scope ++ beBytes 32 nonce.toNat
    ++ beBytes 48 s.trust.identity.toNat ++ leBytes 4 s.trust.imageSvn ++ leBytes 2 s.trust.debugCount ++ leBytes 2 s.faults.boot
    ++ beBytes 48 s.trust.fwMeasure.toNat ++ leBytes 8 s.localNs ++ leBytes 8 s.ttNs.toNat ++ leBytes 4 s.torusTime.epoch.toNat
    ++ leBytes 4 0 ++ beBytes 48 s.pmapMeasure.toNat ++ (List.range 8).flatMap (s.reportPart scope)

/-- Does a report of scope p carry a fresh encapsulation key (R379)? -/
def State.issuesEk (s : State) (p : Nat) : Bool :=
  let o := s.owner p
  o.id != 0 && o.keyState != 2 && !o.busy && s.trust.lifecycle == 2

/-- What the issue of a report leaves: the module-scope nonce for lifecycle commands (R374), or the key issued for a partition
(R379). -/
def State.reportIssued (s : State) (nonce : BitVec 256) (scope : Nat) : State :=
  if scope = 0xFF then s.modTrust (fun t => { t with report := some (nonce, s.localNs, false) })
  else if s.issuesEk scope then s.modOwner scope (fun o => { o with keyState := 1, ekNonce := nonce }) else s

/-- May a report of a scope be made? RETIRED gives module scope only (Table 13.4). -/
def State.reportAllowed (s : State) (scope : Nat) : Bool := scope == 0xFF || s.trust.lifecycle != 4

/-- ATTESTATION_REPORT (R379, R386); a scope that is neither the module's nor a partition's is refused (R476). -/
def reportEffect (nonce : BitVec 256) (scope : Nat) (s : State) : State :=
  if s.reportAllowed scope && (scope == 0xFF || decide (scope < 8)) then
    (s.emit (.report (s.reportBytes nonce scope) (scope != 0xFF && s.issuesEk scope))).reportIssued nonce scope
  else s

def execAttestationReport (nonce : BitVec 256) (scope : Nat) (s : State) : Answer :=
  .next (reportEffect nonce scope s)

/-! Key delivery. -/

/-- RUN_ID of a run key (R381). -/
def runIdOfKey (key : BitVec 256) : BitVec 64 :=
  BitVec.ofNat 64 (leNat (hkdfExpand (beBytes 32 key.toNat) (ascii "umazar run id") 8))

/-- KEY_FAIL of a delivery, or 0: the first check that fails (R380, R381). -/
def State.keyFail (s : State) (p : Nat) (d : KeyDel) : Nat :=
  let o := s.owner p
  if s.trust.lifecycle ≠ 2 then 6
  else if o.id = 0 ∨ d.pkHash ≠ o.id then 1
  else if !d.sigOk then 2
  else if d.epoch ≠ o.epoch then 3
  else if o.keyState ≠ 1 ∨ d.nonce ≠ o.ekNonce then 4
  else if d.unwrapped.isNone then 5
  else 0

/-- Hold a run key: RUN_ID follows, and p's ports in a session or handshake begin a new one (R306, R381). -/
def State.holdKey (s : State) (p : Nat) (key : BitVec 256) : State :=
  let s1 := s.modOwner p (fun o => { o with keyState := 2, runKey := key, runId := runIdOfKey key, ekNonce := 0, keyFail := 0 })
  ((List.range 256).filter (fun n => s1.portOwner n == some p && ((s1.port n).state == 2 || (s1.port n).state == 3))).foldl
    (fun t n => t.beginSession n) s1

/-- KEY_DELIVERY (R380, R381): accepted, with a key blob when PERSIST is set; or refused with KEY_FAIL. -/
def keyDeliveryEffect (p : Nat) (d : KeyDel) (s : State) : State :=
  if !d.magicOk then s
  else
    match s.keyFail p d, d.unwrapped with
    | 0, some key =>
      let s1 := s.holdKey p key
      if d.persist then
        s1.nvRequest 5 p (.keyBlob (s1.owner p).id (s1.owner p).epoch key s1.trust.sealEpoch) none none
      else s1
    | f, _ => s.modOwner p (fun o => { o with keyFail := f })

def execKeyDelivery (p : Nat) (d : KeyDel) (who : MCore) (s : State) : Answer := onPartition p (s.guarded who (keyDeliveryEffect p d s))

end Sys2Proof.Machine
end

