-- ==== Sys2Proof/Machine/Entries.lean ====
section
/-! DEFINITION. The entries of the object dictionary: index, subindex, type, access and range of every row of Tables 9.6, 12.8,
13.2, 13.9, 14.7, 15.4, 16.6, 17.7, 18.4 to 18.10 (R483 to R487). -/

namespace Sys2Proof.Machine

open Sys2Proof

/-- Types of Table 18.2. -/
inductive EType where
  | bool | u8 | u16 | u32 | u64 | i16 | i32 | f32 | time64
  | str (n : Nat)
  | octets (n : Nat)
  | domain
  deriving DecidableEq, Repr

/-- Access codes (R14, R487). -/
inductive Access where
  | ro | rw | rws | wo | const
  deriving DecidableEq, Repr

/-- An entry: its type, its access, and the least and greatest number a write may give it. -/
structure Entry where
  ty : EType
  acc : Access
  lo : Nat
  hi : Nat
  deriving DecidableEq, Repr

/-- A run of entries: first and last index, first and last subindex. -/
structure EntryRow where
  i0 : Nat
  i1 : Nat
  s0 : Nat
  s1 : Nat
  entry : Entry
  deriving DecidableEq, Repr

def roE (ty : EType) : Entry := ⟨ty, .ro, 0, 0⟩
def u32Max : Nat := 0xFFFFFFFF

def entriesIdentity : List EntryRow :=
  [⟨0x1000, 0x1000, 1, 1, ⟨.str 10, .const, 0, 0⟩⟩, ⟨0x1000, 0x1000, 2, 2, ⟨.str 2, .const, 0, 0⟩⟩,
   ⟨0x1000, 0x1000, 3, 3, ⟨.u64, .const, 0, 0⟩⟩, ⟨0x1000, 0x1000, 4, 4, ⟨.octets 2592, .const, 0, 0⟩⟩,
   ⟨0x1000, 0x1000, 5, 5, ⟨.octets 48, .const, 0, 0⟩⟩, ⟨0x1000, 0x1000, 6, 6, ⟨.domain, .const, 0, 0⟩⟩,
   ⟨0x1000, 0x1000, 7, 7, ⟨.octets 12, .const, 0, 0⟩⟩,
   ⟨0x1100, 0x1100, 1, 1, ⟨.octets 16, .rws, 0, 0⟩⟩, ⟨0x1100, 0x1100, 2, 2, ⟨.u8, .rws, 1, 128⟩⟩,
   ⟨0x1100, 0x1100, 3, 3, ⟨.octets 16, .rws, 0, 0⟩⟩, ⟨0x1100, 0x1100, 4, 4, roE .u8⟩,
   ⟨0x1100, 0x1100, 5, 5, ⟨.u32, .rws, 10, 3600⟩⟩, ⟨0x1100, 0x1100, 6, 6, roE .u32⟩,
   ⟨0x1100, 0x1100, 7, 7, ⟨.bool, .wo, 0, 1⟩⟩, ⟨0x1100, 0x1100, 8, 8, ⟨.u32, .rws, 0, u32Max⟩⟩]

def entriesTrust : List EntryRow :=
  [⟨0x1800, 0x1800, 1, 1, roE .u8⟩, ⟨0x1800, 0x1800, 2, 2, roE .u16⟩, ⟨0x1800, 0x1800, 3, 3, roE .u32⟩,
   ⟨0x1800, 0x1800, 4, 4, roE (.octets 48)⟩, ⟨0x1800, 0x1800, 5, 5, roE .u32⟩,
   ⟨0x1800, 0x1800, 6, 6, ⟨.octets 2592, .rws, 0, 0⟩⟩, ⟨0x1800, 0x1800, 7, 7, ⟨.domain, .wo, 0, 0⟩⟩,
   ⟨0x1800, 0x1800, 8, 8, roE .u8⟩, ⟨0x1801, 0x1801, 1, 1, roE .domain⟩,
   ⟨0x1810, 0x1817, 1, 1, ⟨.octets 48, .rws, 0, 0⟩⟩, ⟨0x1810, 0x1817, 2, 2, roE .u32⟩,
   ⟨0x1810, 0x1817, 3, 3, roE .u8⟩, ⟨0x1810, 0x1817, 4, 4, roE .u64⟩, ⟨0x1810, 0x1817, 5, 5, ⟨.domain, .wo, 0, 0⟩⟩,
   ⟨0x1810, 0x1817, 6, 6, roE .bool⟩, ⟨0x1810, 0x1817, 7, 7, roE (.octets 48)⟩, ⟨0x1810, 0x1817, 8, 8, roE .u8⟩]

def entriesPower : List EntryRow :=
  [⟨0x2000, 0x2000, 1, 1, ⟨.u8, .rws, 0, 1⟩⟩, ⟨0x2000, 0x2000, 2, 2, roE .u32⟩, ⟨0x2000, 0x2000, 3, 3, roE .f32⟩,
   ⟨0x2000, 0x2000, 4, 4, ⟨.u32, .rws, 8000, 24000⟩⟩, ⟨0x2000, 0x2000, 5, 5, roE .f32⟩,
   ⟨0x2000, 0x2000, 6, 6, ⟨.bool, .rws, 0, 1⟩⟩, ⟨0x2000, 0x2000, 7, 7, roE .u16⟩, ⟨0x2000, 0x2000, 8, 8, roE .f32⟩,
   ⟨0x2000, 0x2000, 9, 9, ⟨.u8, .rws, 5, 40⟩⟩, ⟨0x2000, 0x2000, 10, 10, ⟨.u8, .rws, 5, 40⟩⟩,
   ⟨0x2000, 0x2000, 11, 11, roE .u64⟩, ⟨0x2000, 0x2000, 12, 12, ⟨.u64, .const, 0, 0⟩⟩,
   ⟨0x2000, 0x2000, 13, 15, roE .f32⟩, ⟨0x2001, 0x2001, 1, 3, roE .domain⟩,
   ⟨0x2100, 0x2100, 1, 8, ⟨.u32, .rw, 0, u32Max⟩⟩, ⟨0x2101, 0x2101, 1, 8, roE .u8⟩,
   ⟨0x2102, 0x2102, 1, 4, ⟨.u32, .rws, 0, u32Max⟩⟩,
   ⟨0x2400, 0x2400, 1, 1, ⟨.u8, .rws, 0, 3⟩⟩, ⟨0x2400, 0x2400, 2, 2, roE .u32⟩,
   ⟨0x2400, 0x2400, 3, 3, ⟨.u32, .rw, 0, u32Max⟩⟩, ⟨0x2400, 0x2400, 4, 4, roE .u32⟩,
   ⟨0x2600, 0x2600, 1, 1, roE .time64⟩, ⟨0x2600, 0x2600, 2, 2, roE .u32⟩, ⟨0x2600, 0x2600, 3, 3, ⟨.bool, .rws, 0, 1⟩⟩,
   ⟨0x2600, 0x2600, 4, 4, ⟨.u8, .rws, 0, 127⟩⟩, ⟨0x2600, 0x2600, 5, 5, roE .u8⟩, ⟨0x2600, 0x2600, 6, 6, roE .u64⟩,
   ⟨0x2600, 0x2600, 7, 7, roE .u32⟩, ⟨0x2600, 0x2600, 8, 8, roE .i32⟩, ⟨0x2600, 0x2600, 9, 9, roE .i16⟩,
   ⟨0x2600, 0x2600, 10, 10, ⟨.bool, .wo, 0, 1⟩⟩, ⟨0x2600, 0x2600, 11, 11, roE .domain⟩]

def entriesResources : List EntryRow :=
  [⟨0x3000, 0x3000, 1, 1, ⟨.domain, .rws, 0, 0⟩⟩, ⟨0x3000, 0x3000, 2, 2, roE .u8⟩, ⟨0x3000, 0x3000, 3, 3, roE (.octets 48)⟩,
   ⟨0x3000, 0x3000, 4, 4, roE .u8⟩, ⟨0x3010, 0x3017, 1, 1, roE .u8⟩,
   ⟨0x3400, 0x3400, 1, 1, roE .u32⟩, ⟨0x3400, 0x3400, 2, 3, roE .domain⟩,
   ⟨0x3410, 0x3417, 1, 1, ⟨.u32, .rw, 0, u32Max⟩⟩, ⟨0x3410, 0x3417, 2, 4, roE .u64⟩,
   ⟨0x3800, 0x3800, 1, 1, ⟨.octets 16, .rws, 0, 0⟩⟩, ⟨0x3800, 0x3800, 2, 2, ⟨.u8, .rws, 1, 96⟩⟩,
   ⟨0x3800, 0x3800, 3, 3, ⟨.u8, .rws, 1, 128⟩⟩, ⟨0x3800, 0x3800, 4, 4, roE .u8⟩,
   ⟨0x3800, 0x3800, 5, 5, ⟨.u8, .rws, 0, 95⟩⟩, ⟨0x3800, 0x3800, 6, 6, ⟨.u8, .rws, 0, 127⟩⟩,
   ⟨0x3801, 0x3801, 1, 1, ⟨.u32, .rws, 10, 10000⟩⟩, ⟨0x3802, 0x3802, 1, 4, roE .domain⟩,
   ⟨0x3803, 0x3803, 1, 1, ⟨.u16, .wo, 0, 255⟩⟩, ⟨0x3803, 0x3803, 2, 2, ⟨.u32, .wo, 0, 2047⟩⟩,
   ⟨0x3C00, 0x3C00, 1, 1, roE .u32⟩, ⟨0x3C01, 0x3C02, 1, 1, ⟨.octets 16, .rws, 0, 0⟩⟩,
   ⟨0x3C01, 0x3C02, 2, 2, ⟨.u8, .rws, 1, 128⟩⟩, ⟨0x3C01, 0x3C02, 3, 3, ⟨.octets 16, .rws, 0, 0⟩⟩,
   ⟨0x3C01, 0x3C02, 4, 4, ⟨.u16, .rws, 0, 4094⟩⟩, ⟨0x3C01, 0x3C02, 5, 5, roE .u32⟩,
   ⟨0x3C10, 0x3C17, 1, 9, ⟨.octets 16, .rws, 0, 0⟩⟩, ⟨0x3C10, 0x3C17, 10, 10, roE .bool⟩, ⟨0x3C10, 0x3C17, 11, 11, roE .u64⟩]

def entriesFaults : List EntryRow :=
  [⟨0x4000, 0x4000, 1, 2, roE .u32⟩, ⟨0x4000, 0x4000, 3, 3, roE .domain⟩,
   ⟨0x4400, 0x4400, 1, 1, roE .u16⟩, ⟨0x4400, 0x4400, 2, 2, roE .domain⟩, ⟨0x4400, 0x4400, 3, 3, roE .bool⟩,
   ⟨0x4400, 0x4400, 4, 4, ⟨.u64, .wo, 0, 0xFFFFFFFFFFFFFFFF⟩⟩, ⟨0x4400, 0x4400, 5, 5, roE .bool⟩,
   ⟨0x4401, 0x4401, 13, 13, ⟨.u8, .rws, 3, 3⟩⟩, ⟨0x4401, 0x4401, 1, 15, ⟨.u8, .rws, 1, 15⟩⟩,
   ⟨0x4402, 0x4402, 1, 15, ⟨.u32, .rws, 1, 3600000⟩⟩]

def entriesCounters : List EntryRow :=
  let c : Entry := ⟨.u64, .rw, 0, 0xFFFFFFFFFFFFFFFF⟩
  [⟨0x5000, 0x5000, 1, 1, roE .domain⟩, ⟨0x5000, 0x5000, 2, 3, roE .bool⟩,
   ⟨0x5010, 0x5010, 1, 15, c⟩, ⟨0x5011, 0x5011, 1, 6, c⟩, ⟨0x5100, 0x5100, 1, 7, roE .domain⟩, ⟨0x5101, 0x5101, 1, 4, roE .domain⟩,
   ⟨0x5110, 0x5110, 1, 6, roE .domain⟩, ⟨0x5120, 0x5120, 1, 5, roE .domain⟩, ⟨0x5200, 0x5207, 1, 7, c⟩,
   ⟨0x5300, 0x5307, 1, 10, roE .u64⟩, ⟨0x5310, 0x5317, 1, 10, roE .u64⟩, ⟨0x5310, 0x5317, 11, 11, roE .time64⟩,
   ⟨0x5310, 0x5317, 12, 12, roE .u8⟩, ⟨0x5320, 0x5320, 1, 1, ⟨.u32, .rws, 10, 60000⟩⟩,
   ⟨0x5410, 0x5410, 1, 15, roE .u8⟩, ⟨0x5411, 0x5411, 1, 6, roE .u8⟩, ⟨0x5600, 0x5607, 1, 7, roE .u8⟩,
   ⟨0x5700, 0x5707, 1, 10, roE .u8⟩, ⟨0x5710, 0x5717, 1, 10, roE .u8⟩]

def entriesControl : List EntryRow :=
  [⟨0x6000, 0x6000, 1, 3, roE .u8⟩, ⟨0x6000, 0x6000, 4, 4, roE .u16⟩, ⟨0x6000, 0x6000, 5, 5, roE .u32⟩,
   ⟨0x6000, 0x6000, 6, 6, roE .u8⟩, ⟨0x6000, 0x6000, 7, 7, roE .u32⟩,
   ⟨0x6010, 0x6017, 1, 1, roE .u8⟩, ⟨0x6010, 0x6017, 2, 2, ⟨.u8, .wo, 1, 6⟩⟩, ⟨0x6010, 0x6017, 3, 3, roE .u8⟩,
   ⟨0x6010, 0x6017, 4, 4, ⟨.bool, .rws, 0, 1⟩⟩, ⟨0x6010, 0x6017, 5, 5, ⟨.u32, .rws, 0, 3600000⟩⟩,
   ⟨0x6010, 0x6017, 6, 7, roE .u8⟩,
   ⟨0x7000, 0x7000, 1, 1, roE .bool⟩, ⟨0x7000, 0x7000, 2, 2, ⟨.u8, .rw, 0, 4⟩⟩,
   ⟨0x7000, 0x7000, 3, 3, ⟨.u64, .rw, 0, 0xFFFFFFFFFFFFFFFF⟩⟩, ⟨0x7000, 0x7000, 4, 4, ⟨.u16, .rw, 4, 4096⟩⟩,
   ⟨0x7000, 0x7000, 5, 5, roE .domain⟩, ⟨0x7000, 0x7000, 6, 6, ⟨.domain, .wo, 0, 0⟩⟩,
   ⟨0x7001, 0x7001, 1, 8, ⟨.u16, .rw, 0, 0xFFFF⟩⟩, ⟨0x7002, 0x7002, 1, 5, ⟨.u8, .rw, 0, 255⟩⟩]

def entryRows : List EntryRow :=
  entriesIdentity ++ entriesTrust ++ entriesPower ++ entriesResources ++ entriesFaults ++ entriesCounters ++ entriesControl

def EntryRow.has (r : EntryRow) (index sub : Nat) : Bool :=
  decide (r.i0 ≤ index) && decide (index ≤ r.i1) && decide (r.s0 ≤ sub) && decide (sub ≤ r.s1)

/-- Highest subindex defined at an index, 0 for an index that is not defined. -/
def topSub (index : Nat) : Nat :=
  (entryRows.filter (fun r => decide (r.i0 ≤ index) && decide (index ≤ r.i1))).foldl (fun acc r => max acc r.s1) 0

/-- The entry of an index and subindex; subindex 0 of a defined index is CONST (R483). -/
def findEntry (index sub : Nat) : Option Entry :=
  if sub = 0 then (if topSub index = 0 then none else some ⟨.u8, .const, 0, 0⟩)
  else (entryRows.find? (fun r => r.has index sub)).map EntryRow.entry

/-- Bytes of a type, none for a DOMAIN. -/
def EType.size : EType → Option Nat
  | .bool | .u8 => some 1
  | .u16 | .i16 => some 2
  | .u32 | .i32 | .f32 => some 4
  | .u64 | .time64 => some 8
  | .str n | .octets n => some n
  | .domain => none

/-- Is a number one a write may give an entry? OCTETS take any bytes; MARGIN_MIN is never above MARGIN_NORMAL; STEP_TIMEOUT is 0
or at least 1,000; DBG_LEN is a multiple of 4; CLKMON, test signals and pin functions have rules of their own. -/
def State.inBounds (s : State) (index sub v : Nat) (e : Entry) : Bool :=
  (match e.ty with
    | .octets _ => true
    | _ => decide (e.lo ≤ v) && decide (v ≤ e.hi))
    && (if index = 0x2000 ∧ sub = 9 then decide (s.setting 0x2000 10 ≤ v)
        else if index = 0x2000 ∧ sub = 10 then decide (v ≤ s.setting 0x2000 9)
        else if 0x6010 ≤ index ∧ index ≤ 0x6017 ∧ sub = 5 then v == 0 || decide (1000 ≤ v)
        else if index = 0x7000 ∧ sub = 4 then v % 4 == 0
        else if index = 0x3800 ∧ sub = 5 then decide (v < s.setting 0x3800 2)
        else if index = 0x3800 ∧ sub = 6 then decide (v < s.setting 0x3800 3)
        else true)

/-- The number an entry's bytes stand for: OWNER_ID is a hash, read from its first byte as the most significant. -/
def entryValue (index sub : Nat) (bs : List Byte) : Nat :=
  if 0x1810 ≤ index ∧ index ≤ 0x1817 ∧ sub = 1 then beNat bs else leNat bs

/-- The bytes of an entry's number. -/
def entryBytes (index sub n v : Nat) : List Byte :=
  if 0x1810 ≤ index ∧ index ≤ 0x1817 ∧ sub = 1 then beBytes n v else leBytes n v

end Sys2Proof.Machine
end

