-- ==== Sys2Proof/Machine/Records.lean ====
section
/-! DEFINITION. Stored records (R442 to R444, R490, R492, R528): their payloads where the manual gives a layout, writing,
committing, and what a power loss leaves. -/

namespace Sys2Proof.Machine

open Sys2Proof

/-! Payloads. -/

/-- Table 12.9. -/
def RetRec.bytes (r : RetRec) : List Byte :=
  leBytes 8 r.element ++ leBytes 1 r.state ++ leBytes 1 r.part ++ leBytes 2 r.boot ++ leBytes 4 r.faultSeq ++ leBytes 8 r.ns
    ++ leBytes 8 r.stateNs

/-- A retirement record from its 32 bytes (Table 12.9) (DEDUCED, log entry 110). -/
def RetRec.ofBytes (inst : Nat) (bs : List Byte) : RetRec :=
  let at_ (o n : Nat) : Nat := leNat ((bs.drop o).take n)
  { inst := inst, element := at_ 0 8, state := at_ 8 1, part := at_ 9 1, boot := at_ 10 2, faultSeq := at_ 12 4, ns := at_ 16 8,
    stateNs := at_ 24 8, committed := true }

/-- A partition-map image (Table 18.6a) of 1,696 bytes; none when VERSION or a zero field is wrong. -/
def Pmap.ofBytes (bs : List Byte) : Option Pmap :=
  let at_ (o n : Nat) : Nat := leNat ((bs.drop o).take n)
  let run (o n k : Nat) : List Nat := (List.range k).map (fun i => at_ (o + n * i) n)
  if bs.length ≠ 1696 ∨ at_ 0 4 ≠ 1 ∨ at_ 0x5C 4 ≠ 0 ∨ at_ 0x98 8 ≠ 0 then none
  else some
    { bandOwner := run 4 1 8, meshShare := run 0x0C 2 8, storeShare := run 0x1C 2 8, srvShare := run 0x2C 2 8,
      ctxQuota := run 0x3C 1 8, groupFirst := run 0x44 1 8, groupCount := run 0x4C 2 8, boundary := (bs.drop 0x60).take 56,
      pages := (List.range 192).map (fun i => (at_ (0xA0 + 8 * i) 4, at_ (0xA4 + 8 * i) 4)) }

/-- The subindices of a TYPE 0x06 payload, with their bytes (R490). -/
def storedSubs (n : Nat) (bs : List Byte) : List (Nat × List Byte) :=
  match n with
  | 0 => []
  | k + 1 =>
    if bs.length < 4 then []
    else
      let len := leNat ((bs.drop 2).take 2)
      (leNat (bs.take 1), (bs.drop 4).take len) :: storedSubs k (bs.drop (4 + len))

/-- Settings by index * 256 + subindex of a TYPE 0x06 payload: a subindex whose LEN does not match its type, or whose value lies
outside the range, keeps its default (R492). -/
def State.storedSettings (s : State) (index : Nat) (bs : List Byte) : SMap Nat :=
  (storedSubs (leNat ((bs.drop 2).take 1)) (bs.drop 4)).foldl (fun m sv =>
    match findEntry index sv.1 with
    | some e =>
      if e.acc = .rws ∧ e.ty.size = some sv.2.length ∧ s.inBounds index sv.1 (entryValue index sv.1 sv.2) e then
        mapSet settingD m (index * 256 + sv.1) (entryValue index sv.1 sv.2)
      else m
    | none => m) []

/-- What the payload of a record written by a core spells: dictionary values and the partition map have layouts the manual
gives, the rest is kept as bytes. -/
def State.payloadValue (s : State) (ty inst : Nat) (bs : List Byte) : NvVal :=
  let index := inst + 0x1000
  if ty = 6 ∧ leNat (bs.take 2) = index then
    if index = 0x3000 then
      match (storedSubs (leNat ((bs.drop 2).take 1)) (bs.drop 4)).find? (fun sv => sv.1 == 1) with
      | some sv => (match Pmap.ofBytes sv.2 with
        | some m => .pmap m
        | none => .raw bs)
      | none => .settings []
    else .settings (s.storedSettings index bs)
  else .raw bs

/-! Committing. -/

/-- The copy is in the array. A record of TYPE 0x04 is a retirement record: 32 bytes put it in force, none takes it out
(R528) (DEDUCED, log entry 110). -/
def State.nvStore (s : State) (w : NvWrite) : State :=
  if w.ty = 4 then
    match w.v with
    | .raw bs =>
      let rest := s.faults.recs.filter (fun r => r.inst != w.inst)
      { s with faults := { s.faults with recs := if bs.length = 32 then rest ++ [RetRec.ofBytes w.inst bs] else rest } }
    | _ => s
  else s.nvPut w.ty w.inst w.v

/-- Does a core's commit byte pass the check of R446? (DEDUCED, log entry 114). -/
def State.mayCommit (s : State) (w : NvWrite) : Bool :=
  match w.core with
  | none => true
  | some c => s.holdsLease c

/-- Is a record's size at most 32 KiB (R444)? -/
def NvVal.small : NvVal → Bool
  | .raw bs => decide (32 + bs.length + 8 ≤ 32768)
  | _ => true

/-- The input has failed: the write in progress is completed by the hold-up or, a longer one, cut before its commit byte; the
writes behind it never begin (R391, R443, R444) (DEDUCED, log entry 115). -/
def State.holdUp (s : State) : State :=
  match s.nv.writes with
  | [] => s
  | w :: _ =>
    let s1 := { s with nv := { s.nv with writes := [] } }
    if w.v.small && s.mayCommit w then s1.nvStore w else if w.ty = 4 then s1 else s1.nvCut w.ty w.inst

/-- RECORD_LOST in the fault log: the manual names no class for it (DEDUCED, log entry 52). -/
def State.logLost (s : State) (ty inst : Nat) : State := s.log 0 1 255 5 0 (nvKey ty inst) 0

/-- STORED_RECORD_WRITE: a core asks for a record's write; TYPE and INSTANCE are of two bytes and LEN is at most 65,504 (R442,
R443) (DESIGN CHOICE, log entry 33). -/
def storedWriteEffect (ty inst : Nat) (payload : List Byte) (who : MCore) (s : State) : State :=
  if payload.length ≤ 65504 then s.nvRequest ty inst (s.payloadValue ty inst payload) (some who) none else s

def execStoredRecordWrite (ty inst : Nat) (payload : List Byte) (who : MCore) (s : State) : Answer :=
  if ty < 65536 then onNumber "record instance" 65536 inst (s.guarded who (storedWriteEffect ty inst payload who s))
  else .fault (.noSuchElement "record type" ty)

/-! Answers that waited for a commit. -/

/-- Keep a response: the last 8 of a session (R475) (DEDUCED, log entry 126). -/
def Session.keep (x : Session) (r : MResp) : Session :=
  let ks := x.kept.filter (fun k => k.reqId != r.reqId) ++ [r]
  { x with kept := ks.drop (ks.length - 8), waiting := x.waiting.filter (fun (w : Waiting) => w.reqId != r.reqId), txSeq := x.txSeq + 1 }

/-- Send a RESPONSE to a session that is still open. -/
def State.respond (s : State) (session : Nat) (r : MResp) : State :=
  match mapFind s.maunvo.sessions session with
  | none => s
  | some x => ({ s with maunvo := { s.maunvo with sessions := mapSet sessionD s.maunvo.sessions session (x.keep r) } }).emit (.response session r)

/-- Answer a request whose end has come: a session's, or the chassis port's as session 0. -/
def State.answerLater (s : State) (reply : Option (Nat × Nat × Nat × Nat)) (status : Nat) : State :=
  match reply with
  | none => s
  | some (0, _, _, _) => s.emit (.i3c status [])
  | some (session, reqId, index, sub) => s.respond session ⟨reqId, index, sub, status, 0, 0, []⟩

end Sys2Proof.Machine
end

