-- ==== Sys2Proof/Machine/Power.lean ====
section
/-! DEFINITION. Power delivery, heat and the wake policy (R390 to R421), and the safe state (R453). Readings come with their
commands, in thousandths of their unit. -/

namespace Sys2Proof.Machine

open Sys2Proof

def State.modPower (s : State) (f : Power → Power) : State := { s with power := f s.power }

/-- POWER_STATUS (Table 14.7). -/
def State.powerStatus (s : State) : Nat :=
  let w := s.power
  w.mode % 2 + 2 * b2n w.sprinting + 4 * b2n w.marginLowered + 8 * (s.fabric.stretch % 32) + 2 ^ 8 * b2n (w.sT != 0)
    + 2 ^ 9 * b2n (w.sP != 0) + 2 ^ 10 * b2n (decide (s.localNs < w.clampUntil)) + 2 ^ 11 * b2n w.coolantWarn
    + 2 ^ 12 * b2n w.emSpent + 2 ^ 13 * b2n w.powerTrip + 2 ^ 14 * b2n w.thermalTrip + 2 ^ 15 * b2n w.failSeen

/-- The POWER event, when one of the bits it reports has changed since `old` (Table 17.6). -/
def State.powerEvent (s : State) (old : Nat) : State :=
  let seen (v : Nat) : Nat := v / 2 % 2 + 2 * bitsN v 10 3 + 2 ^ 9 * bitsN v 14 13
  if seen old = seen s.powerStatus then s else s.raiseEvent 5 0x2000 2 [s.powerStatus]

/-- MODULE_STATE, with its event. -/
def State.setModule (s : State) (v : Nat) : State :=
  if s.boot.moduleState = v then s
  else ({ s with boot := { s.boot with moduleState := v } }).raiseEvent 0 0x6000 1 [v]

/-- Enter the safe state with a cause of Table 16.4 (R453, R515). -/
def State.enterSafe (s : State) (cause : Nat) : State :=
  let s1 := (s.stopAllNow stopPower).lightsOut.disableAll 1
  let s2 := { s1 with
    power := { s1.power with stages := [] }
    server := { s1.server with ports := mapAll srvPortD s1.server.ports (fun _ x => { x with up := false }) }
    boot := { s1.boot with safeCause := cause } }
  let s3 := (s2.modPinGroup 1 (fun g => { g with fn := 1, upto := none })).modPinGroup 4 (fun g => { g with fn := 0, upto := none })
  (s3.setModule 2).say 0 cause

/-! Input. -/

/-- Record TYPE 0x08 as the present state gives it (Table 16.2). -/
def State.countersVal (s : State) (pf : Bool) : NvVal :=
  .counters s.faults.boot s.faults.seq (s.torusTime.epoch.toNat / 65536) s.lease.epoch pf

/-- Partition stop everywhere, compute halted, stores in self-refresh, optics off; POWER_FAIL_SEEN goes to storage, and the
hold-up completes the record write in progress (R391, R444). -/
def State.failInput (s : State) : State :=
  let s1 := (s.holdUp.raiseStopAll stopPower).lightsOut
  (s1.modPower (fun w => { w with on := false, stages := [] })).nvPut 8 0 (s1.countersVal true)

/-- POWER_FAIL: the input is below 45.0 V for 20 us (R390, R391). -/
def execPowerFail (s : State) : Answer := .next s.failInput

/-- OVERVOLTAGE: the input is above 60.0 V for 1 us; the first stage stays off (R390, R391). -/
def execOvervoltage (s : State) : Answer := .next (s.failInput.modPower (fun w => { w with heldOff := true }))

/-- OVERVOLTAGE_RECOVERY: the input has been inside 48 to 58 V for 1 s (R391). -/
def execOvervoltageRecovery (s : State) : Answer := .next (s.modPower (fun w => { w with heldOff := false }))

/-! Domains. -/

/-- Bring LOCAL_NS to the next whole multiple of a period (DEDUCED, log entry 121). -/
def State.nextPeriod (s : State) (period : Nat) : State := s.atNs ((s.localNs / period + 1) * period)

def State.marginTarget (s : State) : Nat := if s.power.marginLowered then s.setting 0x2000 10 else s.setting 0x2000 9

/-- A domain's set point after a reading at an operating point (R398) (DEDUCED, log entry 120). -/
def Domain.steer (x : Domain) (op target margin : Nat) : Domain :=
  if x.off then x
  else
    let v := if margin < target then clampPoint (x.setPoint + 10)
      else if target + 4 ≤ margin then clampPoint (x.setPoint - 5) else x.setPoint
    { x with margin := margin, setPoint := v, steered := mapSet (natD 0) x.steered op v }

/-- The least of a list of codes, each 0 to 127. -/
def leastCode (l : List Nat) : Nat := l.foldl min 127

/-- STEERING_PERIOD: every 10 us each domain that reports sensors is steered by the least of them (R398) (DEDUCED, log entry 120). -/
def steeringEffect (sensors : SMap (List Nat)) (s : State) : State :=
  let s1 := s.nextPeriod 10000
  sensors.foldl (fun t kv =>
    if kv.1 < domainCount t.power.mode ∧ !kv.2.isEmpty ∧ t.domainClocked kv.1 then t.modDomain kv.1 (fun x => x.steer s1.clk.opInForce s1.marginTarget (leastCode kv.2)) else t) s1

def execSteeringPeriod (sensors : SMap (List Nat)) (s : State) : Answer := .next (steeringEffect sensors s)

/-- Guard of a command that names a domain; in ganged mode there are 256 (R394), and an event of a higher number does not
occur (DEDUCED, log entry 119). -/
def onDomain (d : Nat) (s t : State) : Answer := onNumber "regulator domain" 4096 d (if d < domainCount s.power.mode then t else s)

def domainElement (d : Nat) : Nat := elemCode 0x0F d

/-- Switch a domain off: its clusters enter FAULT with DOMAIN_FAULT and their partition stops at once (R355, R403). -/
def State.domainOff (s : State) (d : Nat) : State :=
  let s1 := s.modDomain d (fun x => { x with off := true })
  (domainClusters s.power.mode d).foldl (fun t c => t.clusterFault c 0x12 (t.curDesc c)) s1

/-- OUT_OF_REGULATION: one event; the set point rises by 20 mV, or at the threshold the domain is switched off (R399, Table
12.2) (DEDUCED, log entry 119). -/
def regulationEffect (d : Nat) (s : State) : State :=
  if (s.domain d).off then s
  else
    let r := s.elementEvent (domainElement d) .marking false (s.domainOwner d) 0 0 0
    if r.2 then r.1.domainOff d else r.1.modDomain d (fun x => { x with setPoint := clampPoint (x.setPoint + 40) })

def execOutOfRegulation (d : Nat) (s : State) : Answer := onDomain d s (regulationEffect d s)

/-- ABNORMAL_DROP: the domain is off within 2 us and retired at its first event; on a second set of slots it is defective (R355,
R402, R403) (DEDUCED, log entry 119). -/
def dropEffect (d : Nat) (s : State) : State :=
  if (s.domain d).off then s
  else
    let slots := s.domainSlots d
    let bad := match (s.domain d).dropped with
      | some old => old != slots
      | none => false
    let r := s.elementEvent (domainElement d) .single false (s.domainOwner d) 0 4 0
    (r.1.domainOff d).modDomain d (fun x => { x with
      defective := x.defective || bad, dropped := if x.dropped.isSome then x.dropped else some slots })

def execAbnormalDrop (d : Nat) (s : State) : Answer := onDomain d s (dropEffect d s)

/-! Ticks. -/

def State.powerCap (s : State) : Nat := s.setting 0x2000 4 * 1000

/-- EM_BUDGET, in units of 100 us (R412). -/
def emBudget : Nat := 20000000000

/-- SPRINT_USED and the run at or below POWER_CAP after a tick (R404). -/
def Power.sprint (w : Power) (cap pf : Nat) : Power :=
  if cap < pf then { w with sprinting := true, sprintUsed := w.sprintUsed + 1, underCap := 0 }
  else { w with sprinting := false, underCap := w.underCap + 1 }

/-- The limit in force in a tick (R404). -/
def State.limit (s : State) (w : Power) : Nat :=
  if s.setting 0x2000 6 = 1 ∧ !w.emSpent ∧ w.sprintUsed < 450 then s.powerCap + 3000000 else s.powerCap

/-- The power controller's action over L, and its release under it (R405, R406). `held`: the fast clamp holds. -/
def Power.act (w : Power) (lim pf : Nat) (held : Bool) : Power :=
  if lim < pf then
    if !w.marginLowered then { w with lowTicks := 0, calmTicks := 0, marginLowered := true }
    else { w with lowTicks := 0, calmTicks := 0, sP := min 16 (w.sP + 1) }
  else if pf + 1000000 < lim then
    let calm := if w.sP = 0 then w.calmTicks + 1 else 0
    let y := { w with calmTicks := calm, lowTicks := w.lowTicks + 1, marginLowered := w.marginLowered && decide (calm < 100) }
    if w.sP ≠ 0 ∧ 10 ≤ y.lowTicks ∧ !held then { y with sP := w.sP - 1, lowTicks := 0 } else y
  else { w with lowTicks := 0, calmTicks := 0 }

/-- The trip: over POWER_CAP with full stretch and lowered margins (R405). -/
def Power.trips (w : Power) (cap pf : Nat) : Bool := decide (cap < pf) && w.sP == 16 && w.marginLowered

/-- The thermal demand after a tick (R408). -/
def Power.heat (w : Power) (t : Nat) : Power :=
  let x := { w with tmax := t, hotTicks := if 95000 ≤ t then w.hotTicks + 1 else 0 }
  if 95000 ≤ t then { x with sT := 16, coolTicks := 0 }
  else if 90000 ≤ t then { x with sT := min 16 (w.sT + 1), coolTicks := 0 }
  else if t < 88000 then
    if 10 ≤ w.coolTicks + 1 then { x with sT := w.sT - 1, coolTicks := 0 } else { x with coolTicks := w.coolTicks + 1 }
  else { x with coolTicks := 0 }

/-- POWER_TICK: one tick of 100 us (R404 to R406, R408, R410, R412). -/
def powerTickEffect (vin pf tmax : Nat) (s : State) : State :=
  let s1 := s.nextPeriod 100000
  let old := s1.powerStatus
  let cap := s1.powerCap
  let w0 := { s1.power with vin := vin, pf := pf }
  let w1 := w0.sprint cap pf
  let trip := w1.trips cap pf
  let w2 := w1.act (s1.limit w1) pf (decide (s1.localNs < w1.clampUntil))
  let w3 := { (w2.heat tmax) with powerTrip := w2.powerTrip || trip }
  let od := w3.overdrive + b2n (decide (24000000 < pf))
  let w4 := { w3 with
    overdrive := od, emSpent := w3.emSpent || decide (emBudget ≤ od)
    sprintUsed := if 5000 ≤ w3.underCap then 0 else w3.sprintUsed }
  let s2 := { s1 with power := w4, fabric := { s1.fabric with stretchNext := max w4.sP w4.sT } }
  let s3 := if trip then s2.raiseStopAll stopPower else s2
  s3.powerEvent old

def execPowerTick (vinMilli pfMilli tmaxMilli : Nat) (s : State) : Answer := .next (powerTickEffect vinMilli pfMilli tmaxMilli s)

/-- FAST_CLAMP: three consecutive samples above 27,000 W, in W, set S_P to 16 for at least 1 ms (R407). -/
def fastClampEffect (s0 s1 s2 : Nat) (s : State) : State :=
  if 27000 < s0 ∧ 27000 < s1 ∧ 27000 < s2 then
    let t := s.modPower (fun w => { w with sP := 16, lowTicks := 0, calmTicks := 0, clampUntil := s.localNs + 1000000 })
    ({ t with fabric := { t.fabric with stretchNext := 16 } }).powerEvent s.powerStatus
  else s

def execFastClamp (s0 s1 s2 : Nat) (s : State) : Answer := .next (fastClampEffect s0 s1 s2 s)

/-- THERMAL_TRIP: a condition of R409 holds; the one of 100 ticks is the one the ticks have counted. -/
def thermalTripEffect (cause : TripCause) (s : State) : State :=
  if cause = .tmax95 ∧ s.power.hotTicks < 100 then s
  else
    let s1 := (s.modPower (fun w => { w with thermalTrip := true })).powerEvent s.powerStatus
    s1.enterSafe 3

def execThermalTrip (cause : TripCause) (s : State) : Answer := .next (thermalTripEffect cause s)

/-- OVERDRIVE_SAVE: every 10 s OVERDRIVE_S goes to storage (R412). -/
def execOverdriveSave (s : State) : Answer := .next (s.nvRequest 7 0 (.overdrive s.power.overdrive) none none)

/-- COOLANT_SAMPLE: flow, inlet and outlet as 1 s means, and COOLANT_WARN (R414). -/
def coolantEffect (flow inlet outlet : Nat) (s : State) : State :=
  let warn := decide (flow < 36000) || decide (35000 < inlet) || decide (inlet + 10000 < outlet)
  let s1 := s.modPower (fun w => { w with flow := flow, inlet := inlet, outlet := outlet, coolantWarn := warn })
  if s.power.coolantWarn = warn then s1 else s1.raiseEvent 6 0x2000 13 [flow, inlet]

def execCoolantSample (flowMilli inletMilli outletMilli : Nat) (s : State) : Answer :=
  .next (coolantEffect flowMilli inletMilli outletMilli s)

/-! Power groups and wake states. -/

def State.groupStage (s : State) (g : Nat) : Nat := mapGet (natD 0) s.power.stages g

/-- Does power group g sequence: at bring-up each group after the one before it, once the fabric clock stands, later the groups of a
partition on its way out of W3 (R401, R449)? -/
def State.groupSequences (s : State) (g : Nat) : Bool :=
  if s.boot.moduleState = 0 then decide (6 ≤ s.boot.step) && (g == 0 || s.groupStage (g - 1) == 4)
  else
    let p := s.pmap.bandOwner.getD g 255
    decide (p < 8) && (s.wakeOf p).w == 3 && (s.wakeOf p).due.isSome

/-- POWER_GROUP_STAGE: the next header stage of a group that sequences, 30 us long (R400, R401). -/
def groupStageEffect (g : Nat) (s : State) : State :=
  if !s.power.on || decide (4 ≤ s.groupStage g) || !s.groupSequences g then s
  else
    let s1 := s.atNs (s.localNs + 30000)
    let s2 := s1.modPower (fun w => { w with stages := mapSet (natD 0) w.stages g (s.groupStage g + 1) })
    if s2.boot.moduleState = 0 ∧ (List.range 8).all (fun k => s2.groupStage k == 4) then
      { s2 with boot := { s2.boot with step := max 7 s2.boot.step, memZeroUntil := s2.clock.fab + 4096 } }
    else s2

def execPowerGroupStage (g : Nat) (s : State) : Answer := onNumber "power group" 8 g (groupStageEffect g s)

/-- DWELL of a wake state in us. -/
def State.dwell (s : State) (w : Nat) : Nat := s.setting 0x2102 w

/-- Time in us for which a partition has been idle. -/
def State.idleFor (s : State) (p : Nat) : Nat := (s.clock.time - (s.wakeOf p).lastBusy) / 168000

/-- The deepest of W1 to W3 that partition p may be placed in (R416). -/
def State.wakeTarget (s : State) (p : Nat) : Nat :=
  let tol := s.setting 0x2100 (p + 1)
  ([3, 2, 1].find? (fun w => decide (wakeLatency w ≤ tol * 1000) && decide (s.dwell w ≤ s.idleFor p))).getD 0

/-- Bands of a partition. -/
def State.bandsOf (s : State) (p : Nat) : List Nat := (List.range 8).filter (fun b => s.pmap.bandOwner.getD b 255 == p)

/-- WAKE_ENTRY: an idle partition goes to the deepest wake state its owner and its dwell allow; the headers of its groups open
in W3 (R400, R415, R416) (DEDUCED, log entry 122). -/
def wakeEntryEffect (p : Nat) (s : State) : State :=
  let w := s.wakeTarget p
  if !s.partIdle p || s.boot.moduleState != 1 || (s.part p).startRaised.isSome || decide (w ≤ (s.wakeOf p).w) then s
  else
    let s1 := s.modWake p (fun x => { x with w := w, due := none })
    if w = 3 then s1.modPower (fun y => { y with stages := (s.bandsOf p).foldl (fun m g => mapSet (natD 0) m g 0) y.stages }) else s1

def execWakeEntry (p : Nat) (s : State) : Answer := onPartition p (wakeEntryEffect p s)

/-- WAKE_EVENT: a cause of R418 reaches a sleeping partition. -/
def execWakeEvent (p : Nat) (_cause : WakeCause) (s : State) : Answer := onPartition p (s.wakeUp p)

/-- Zero the bank words of a partition that are not resident, with ZERO_BUSY set until the last write has taken effect (R123, R419). -/
def State.zeroNonResident (s : State) (p : Nat) : State :=
  let s1 := ((s.clustersOf p).foldl (fun t c => t.zeroing c (fun w => !(s.cluster c).isResident w) false) s).advance zeroCycles
  (s.clustersOf p).foldl (fun t c => t.modCluster c (fun x => { x with zeroBusy := false })) s1

/-- WAKE_COMPLETE: the partition is in W0; out of W3 its groups are powered and its words that are not resident are zero (R401,
R418, R419) (DEDUCED, log entry 122). -/
def wakeCompleteEffect (p : Nat) (s : State) : State :=
  match (s.wakeOf p).due with
  | none => s
  | some t =>
    let deep := (s.wakeOf p).w == 3
    if deep && (s.bandsOf p).any (fun g => s.groupStage g != 4) then s
    else
      let s1 := s.atNs t
      let s2 := if deep then s1.zeroNonResident p else s1
      s2.modWake p (fun x => { x with w := 0, due := none })

def execWakeComplete (p : Nat) (s : State) : Answer := onPartition p (wakeCompleteEffect p s)

/-- May the module enter W4 (R420)? -/
def State.w4Ready (s : State) : Bool :=
  s.boot.moduleState == 1
    && (List.range 8).all (fun p => (s.owner p).id == 0 || decide (800000 ≤ s.setting 0x2100 (p + 1)))
    && (List.range 8).all (fun p => s.partIdle p && decide (s.dwell 4 ≤ s.idleFor p) && !(s.part p).running)
    && s.ueps.all (fun kv => kv.2.state ≤ 1 && kv.2.halves.all (fun h => !h.released || h.acked))
    && s.host.queues.all (fun kv => kv.2.job.isNone)

/-- W4_ENTRY: module sleep; every session is lost and every binding unloaded, owners, keys and store pages kept (R415, R420).
(DEDUCED, log entry 142.) -/
def w4EntryEffect (s : State) : State :=
  if !s.w4Ready then s
  else
    let s1 := s.lightsOut
    let s2 := { s1 with
      cmem := [], qmem := []
      clusters := mapAll clusterD s1.clusters (fun _ x => { Cluster.reset with guard := x.guard })
      ctxs := [], syncs := [], groups := [], colls := []
      ueps := mapAll uepD s1.ueps (fun _ x => { x with state := 0 })
      parts := []
      fabric := { s1.fabric with
        tables := [], flits := [], landings := [], queues := [], departs := [], edges := [], lastSlot := [], credits := [], creditsDue := [] }
      binds := mapAll bindD s1.binds (fun _ x => { Bind.reset with newOwner := x.newOwner, refuse := x.refuse })
      power := { s1.power with stages := [], w4Wake := none, wakes := (List.range 8).foldl (fun m p => mapMod wakeD m p (fun w => { w with w := 4, due := none })) s1.power.wakes } }
    s2.setModule 3

def execW4Entry (s : State) : Answer := .next (w4EntryEffect s)

/-- W4_WAKE_COMPLETE: memories zeroed, stores out of self-refresh, every port UP that is not retired, every partition IDLE
(R420). -/
def w4WakeEffect (s : State) : State :=
  match s.power.w4Wake with
  | none => s
  | some _ =>
    if s.boot.moduleState != 3 || !((List.range 256).all (fun n => (s.port n).state == 3 || (s.port n).state == 7)) then s
    else
      let s1 := s.modPower (fun w => { w with
        selfRefresh := false, w4Wake := none
        stages := (List.range 8).map (fun g => (g, 4))
        wakes := mapAll wakeD w.wakes (fun _ x => { x with w := 0, due := none }) })
      s1.setModule 1

/-- WAKE: writing 1 to 0x1100.07 wakes the module from W4 (R420, R482). -/
def execWake (v : Bool) (who : MCore) (s : State) : Answer := .next (s.guarded who (if v then s.askWake else s))

end Sys2Proof.Machine
end

