-- ==== Sys2Proof/Machine/Clocks.lean ====
section
/-! DEFINITION. Clocks and the root's time (R422 to R439): the crystal's judgement and loss, selectors, the operating point
and its relock, CLKMON, and the reference that PTP gives. -/

namespace Sys2Proof.Machine

open Sys2Proof

def State.modClk (s : State) (f : Clk → Clk) : State := { s with clk := f s.clk }

/-! The crystal (R423, R424). -/

def inRange (n : Nat) : Bool := decide (48750 ≤ n ∧ n ≤ 51250)

/-- The selectors after the loss of the crystal: those on it, or on a PLL it is the reference of, are on SAFE (R422, R424); the host's
PLL (114) and the recovered clocks of the optical ports (from 117) have other references. -/
def Clk.offCrystal (c : Clk) : SMap Nat :=
  (List.range 373).filterMap (fun k =>
    let v := mapGet (natD 0) c.selectors k
    let w := if v = 2 ∨ (v = 0 ∧ k < 117 ∧ k ≠ 114) then 1 else v
    if w = 0 then none else some (k, w))

/-- The crystal is lost: SAFE everywhere, a relock in progress over, every partition stopped, the safe state (R424, R432). -/
def State.crystalLoss (s : State) : State :=
  let s1 := s.modClk (fun c => { c with
    xtalReady := false, xtalLost := true, mgmtOnXtal := false, fabLock := false, fabOnSafe := true, relockBusy := false,
    selectors := c.offCrystal })
  ((s1.modTime (fun t => { t with degraded := true })).raiseStopAll stopPower).enterSafe 2

/-- The relock of the fabric PLL begins: the selector moves to SAFE at the next FRAME_SLOT 0 and the PLL is programmed (Table
15.3). -/
def State.beginRelock (s : State) (op : Nat) : State :=
  let s1 := s.advance ((256 - s.clock.fab % 256) % 256)
  s1.modClk (fun c => { c with
    fabOnSafe := true, fabLock := false, relockBusy := true, fabLockFail := false, gates := 0, opPoint := op,
    relockFrom := s1.localNs })

/-- A comparison before the crystal is judged stable. A failing one starts a run of which it is the reference, if it lies in
the range (R423) (DEDUCED, log entry 123). -/
def Clk.judge (c : Clk) (n : Nat) : Clk :=
  let near := decide (n ≤ c.refN + 25 ∧ c.refN ≤ n + 25)
  let x := { c with lastN := n, comparisons := c.comparisons + 1 }
  let y :=
    if !inRange n then { x with refN := 0, passes := 0 }
    else if c.refN = 0 then { x with refN := n, passes := 1 }
    else if near then { x with passes := c.passes + 1 }
    else { x with refN := n, passes := 0 }
  if 16 ≤ y.passes then { y with xtalReady := true, mgmtOnXtal := true }
  else if 2000 ≤ y.comparisons then { y with xtalFail := true } else y

/-- CRYSTAL_COMPARISON: one gate of 50,000 oscillator cycles. The crystal's becoming ready lets bring-up lock the fabric
PLL. -/
def comparisonEffect (n : Nat) (s : State) : State :=
  let s1 := s.nextPeriod 1000000
  if s1.clk.xtalReady then
    let bad := if inRange n then 0 else s1.clk.outOfRange + 1
    let s2 := s1.modClk (fun c => { c with lastN := n, outOfRange := bad })
    if 2 ≤ bad then s2.crystalLoss else s2
  else if s1.clk.xtalFail || s1.clk.xtalLost || !s1.clk.oscReady then s1.modClk (fun c => { c with lastN := n })
  else
    let s2 := s1.modClk (fun c => c.judge n)
    if s2.clk.xtalReady ∧ s2.boot.romDone then s2.beginRelock (s2.setting 0x2400 1) else s2

def execCrystalComparison (count : Nat) (s : State) : Answer := .next (comparisonEffect count s)

/-- CRYSTAL_LOST: 1 us without a crystal edge (R424). -/
def execCrystalLost (s : State) : Answer := .next (if s.clk.xtalReady then s.crystalLoss else s)

/-- PHASE_FAULT: a pointer separation outside 1 to 3 is one event of class 0x08, and the direction is lost (R426). -/
def phaseFaultEffect (c d separation : Nat) (s : State) : State :=
  if 1 ≤ separation ∧ separation ≤ 3 then s
  else linkLostEffect c d (s.elementEvent (s.linkElement c d) .plain true (s.ownerOf c) 0 0 0).1

def execPhaseFault (c d separation : Nat) (s : State) : Answer :=
  if d < 4 then onCluster c (phaseFaultEffect c d separation s) else .fault (.noSuchElement "mesh side" d)

/-! Selectors (R429 to R431). -/

/-- Number of a selector. -/
def selNum : Selector → Nat
  | .fabric => 0 | .management => 1 | .update k => 2 + k | .store k => 26 + k | .opticalTx e => 50 + e | .host => 114
  | .server k => 115 + k | .opticalRx n => 117 + n

def selExists : Selector → Bool
  | .update k | .store k => decide (k < 24)
  | .opticalTx e => decide (e < 64)
  | .server k => decide (k < 2)
  | .opticalRx n => decide (n < 256)
  | _ => true

def srcCode : ClkSrc → Nat
  | .safe => 1 | .crystal => 2 | .oscillator => 3 | .pll => 0 | .hostRef => 4 | .recovered => 0

/-- Is a source one the selector can take, with its READY flag set (R429)? -/
def State.sourceReady (s : State) (sel : Selector) (src : ClkSrc) : Bool :=
  let own := !s.clk.notReady.contains (selNum sel)
  match src with
  | .safe => true
  | .crystal => s.clk.xtalReady
  | .oscillator => s.clk.oscReady
  | .pll => match sel with
    | .fabric => s.clk.fabLock
    | .management => own && (s.clk.xtalReady || s.clk.oscReady)
    | .opticalRx _ => false
    | _ => own && s.clk.xtalReady
  | .hostRef => sel == .host && own
  | .recovered => match sel with
    | .opticalRx n => own && !(s.port n).los
    | .server k => own && (s.srvPort k).up
    | _ => false

/-- Point a selector at a source. -/
def State.select (s : State) (sel : Selector) (src : ClkSrc) : State :=
  s.modClk (fun c => { c with
    selectors := mapSet (natD 0) c.selectors (selNum sel) (srcCode src)
    fabOnSafe := if sel = .fabric then srcCode src != 0 else c.fabOnSafe
    mgmtOnXtal := if sel = .management then c.xtalReady && srcCode src != 3 else c.mgmtOnXtal })

/-- SOURCE_SWITCH: to a ready source, else refused (R429, R430). -/
def switchEffect (sel : Selector) (src : ClkSrc) (s : State) : State :=
  if s.sourceReady sel src then (s.select sel src).modClk (fun c => { c with switchRefused := false })
  else s.modClk (fun c => { c with switchRefused := true })

def execSourceSwitch (sel : Selector) (src : ClkSrc) (s : State) : Answer :=
  if selExists sel then .next (switchEffect sel src s) else .fault (.noSuchElement "clock selector" (selNum sel))

/-- READY_LOST: the READY flag of a selected source clears (R431). -/
def readyLostEffect (sel : Selector) (s : State) : State :=
  let s1 := (s.select sel .safe).modClk (fun c => { c with
    notReady := if sel = .fabric ∨ c.notReady.contains (selNum sel) then c.notReady else c.notReady ++ [(selNum sel)] })
  match sel with
  | .fabric => if s.clk.fabOnSafe then s else (s1.raiseStopAll stopFault).beginRelock s.clk.opInForce
  | .update k => ((List.range 8).filter (fun p => s.ownsPages k p)).foldl (fun t p => t.raiseStop p stopFault) s1
  | .opticalRx n => if (s.port n).state = 3 then s1.retrain n else s1
  | _ => s1

def execReadyLost (sel : Selector) (s : State) : Answer :=
  if selExists sel then .next (readyLostEffect sel s) else .fault (.noSuchElement "clock selector" (selNum sel))

/-! The operating point (R432, R433). -/

/-- Is every partition STOPPED or IDLE? -/
def State.quiet (s : State) : Bool := s.allStopped && (List.range 8).all (fun p => (s.bind p).state != 3 && (s.bind p).state != 5)

/-- Set points for a higher frequency: the last steered value there plus 20 mV, or 0.85 V (Table 15.3). -/
def Domain.raise (x : Domain) (op : Nat) : Domain :=
  let v := mapGet (natD 0) x.steered op
  { x with setPoint := if v = 0 then 1700 else clampPoint (v + 40) }

/-- The sequence of Table 15.3 from the write's taking effect. -/
def State.changeOpPoint (s : State) (op : Nat) : State :=
  let s1 :=
    if op < s.clk.opInForce then
      s.modPower (fun w => { w with domains := ((List.range (domainCount w.mode)).map (fun d => (d, (s.domain d).raise op))).filter (fun kv => kv.2 != Domain.reset) })
    else s
  s1.beginRelock op

/-- OP_POINT_WRITE: the checks and the stored record; the sequence starts once the record is committed; a write
of the value in force writes no record and runs it at once (R432, R491) (DEDUCED, log entry 124). -/
def opPointEffect (v : Nat) (who : MCore) (reply : Option (Nat × Nat × Nat × Nat)) (s : State) : State :=
  if v ≤ 3 ∧ s.quiet ∧ s.clk.xtalReady then
    if v = s.setting 0x2400 1 then s.changeOpPoint v else s.nvRequest 6 0x1400 (.change [(0x240001, v)]) (some who) reply
  else s

def execOpPointWrite (v : Nat) (who : MCore) (s : State) : Answer := .next (s.guarded who (opPointEffect v who none s))

/-- E of a verifying gate. -/
def gateCount (op : Nat) : Nat := [32000, 28000, 24000, 16000].getD op 32000

/-- VERIFYING_GATE: two consecutive passes put the PLL into service (R433); at bring-up that is its step 6. -/
def gateEffect (count : Nat) (s : State) : State :=
  if !s.clk.relockBusy || s.clk.fabLockFail then s
  else
    let s1 := s.atNs (s.localNs + 20000)
    let e := gateCount s.clk.opPoint
    if e - 8 ≤ count ∧ count ≤ e then
      if 1 ≤ s.clk.gates then
        let s2 := s1.modClk (fun c => { c with
          gates := 2, fabLock := true, fabOnSafe := false, opInForce := c.opPoint, relockBusy := false
          selectors := mapSet (natD 0) c.selectors 0 0 })
        { s2 with boot := { s2.boot with step := if s2.boot.moduleState = 0 then max 6 s2.boot.step else s2.boot.step } }
      else s1.modClk (fun c => { c with gates := 1 })
    else s1.modClk (fun c => { c with gates := 0 })

def execVerifyingGate (count : Nat) (s : State) : Answer := .next (gateEffect count s)

/-- RELOCK_TIMEOUT: 1 ms after step 3 without two passes, the fabric stays on SAFE (R433) (DEDUCED, log entry 124). -/
def relockTimeoutEffect (s : State) : State :=
  if !s.clk.relockBusy || s.clk.fabLockFail then s
  else (s.atNs (s.clk.relockFrom + 1000000)).modClk (fun c => { c with fabLockFail := true, relockBusy := false })

def execRelockTimeout (s : State) : Answer := .next (relockTimeoutEffect s)

/-! CLKMON (R434). -/

/-- Frequency of a source in units of 0.1 MHz (Tables 15.1 and 15.2; DEDUCED, log entry 51). -/
def State.monFreq (s : State) (src : Nat) : Nat :=
  match src with
  | 1 | 2 => 500
  | 3 => 4000
  | 4 | 5 => [16000, 14000, 12000, 8000].getD s.clk.opInForce 16000
  | 6 => 9766
  | 7 => 12000
  | 8 | 9 => 1062500
  | 10 => [0, 25000, 50000, 80000, 160000, 320000, 640000].getD s.host.rate 0
  | 11 => 531250
  | _ => 0

/-- Is the READY flag of a CLKMON source set? -/
def State.monReady (s : State) (src i : Nat) : Bool :=
  match src with
  | 1 => s.clk.xtalReady
  | 2 => s.clk.oscReady
  | 3 => s.sourceReady .management .pll
  | 4 | 5 => s.clk.fabLock
  | 6 => s.sourceReady (.store i) .pll
  | 7 => s.sourceReady (.update i) .pll
  | 8 => s.sourceReady (.opticalTx (i / 4)) .pll
  | 9 => s.sourceReady (.opticalRx i) .recovered
  | 10 => s.host.rate != 0
  | 11 => s.sourceReady (.server i) .pll
  | _ => true

/-- Is INDEX in range for a source? -/
def monIndexOk (src i : Nat) : Bool :=
  match src with
  | 5 => decide (i < 4096) | 6 | 7 => decide (i < 24) | 8 | 9 => decide (i < 256) | 11 => decide (i < 2) | _ => true

/-- Is a CLKMON setting accepted? -/
def State.monOk (s : State) (v : Word) : Bool :=
  let src := fld v 3 0
  let d := fld v 13 4 + 1
  decide (src ≤ 12) && monIndexOk src (fld v 25 14) && s.monReady src (fld v 25 14)
    && (src == 0 || src == 12 || decide (s.monFreq src ≤ 2500 * d))

/-- CLKMON_CTRL_WRITE: taken, or refused as a request for a source that is not ready (R429, R434). -/
def clkmonEffect (v : Word) (s : State) : State :=
  if s.monOk v then s.modClk (fun c => { c with clkmon := v &&& 0x03FFFFFF#32, switchRefused := false })
  else s.modClk (fun c => { c with switchRefused := true })

def execClkmonCtrlWrite (v : Word) (who : MCore) (s : State) : Answer := .next (s.guarded who (clkmonEffect v s))

/-! The root's reference (R436, R438, R439). -/

/-- PTP_MESSAGE at the module that TIME_ROOT makes root: an announce makes it root, a measured time corrects it. -/
def ptpEffect (m : PtpMsg) (s : State) : State :=
  if !s.timeRoot then s
  else
    match m with
    | .announce u =>
      let s1 := s.modTime (fun t => { t with ptpOk := true, utcOffset := u, ptpDomain := s.setting 0x2600 4 })
      if s1.torusTime.root || s1.torusTime.smallerAt.isSome then s1 else s1.becomeRoot
    | .sync ref => if s.torusTime.root && s.torusTime.ptpOk then s.correct ((ref : Int) - (s.ttNs.toNat : Int)) else s

def execPtpMessage (m : PtpMsg) (s : State) : Answer := .next (ptpEffect m s)

/-- PTP_LOST: three announce intervals without an announce (R436, R439). -/
def execPtpLost (s : State) : Answer :=
  .next (if s.torusTime.root && s.torusTime.ptpOk then (s.modTime (fun t => { t with ptpOk := false })).setHoldover true else s)

/-- TIME_DISCONTINUITY_CLEAR: a write of 1 to 0x2600.0A (R437, Table 15.4). -/
def execTimeDiscontinuityClear (v : Bool) (who : MCore) (s : State) : Answer :=
  .next (s.guarded who (if v then s.modTime (fun t => { t with discontinuity := false }) else s))

end Sys2Proof.Machine
end

