-- ==== Sys2Proof/Machine/BringUp.lean ====
section
/-! DEFINITION. The management lease (R445 to R448), cold power-on and readiness (R449 to R452), the safe state and what leaves
it (R453, R454), and recalibration (R455). -/

namespace Sys2Proof.Machine

open Sys2Proof

/-! The lease. -/

def State.modLease (s : State) (f : Lease → Lease) : State := { s with lease := f s.lease }

/-- Give HOLDER a value, with its event when it changes (Table 17.6). -/
def State.setHolder (s : State) (h : Nat) : State :=
  if s.lease.holder = h then s
  else
    let t := s.modLease (fun l => { l with holder := h })
    t.raiseEvent 8 0x6000 6 [h, t.lease.epoch.toNat]

/-- REMAIN after a grant or a renewal: 250 ms. -/
def leaseTime : Nat := 250000000

/-- Do the management cores run: started by the boot ROM, and not halted by the safe state (R368, R453)? -/
def State.coresRun (s : State) : Bool := s.boot.romDone && s.boot.moduleState != 2

/-- LEASE_ACQUIRE: granted when HOLDER is 0 or REMAIN is 0; of A and B in one cycle, A is granted (R445). The grant is part of
step 5 of bring-up (DEDUCED, log entry 116; DEDUCED, log entry 118). -/
def acquireEffect (core : MCore) (both : Bool) (s : State) : State :=
  if !s.coresRun || s.lease.standDown then s
  else if s.lease.holder = 0 ∨ s.lease.expires ≤ s.localNs then
    let w := if both then MCore.a else core
    let s1 := s.modLease (fun l => { l with epoch := l.epoch + 1, expires := s.localNs + leaseTime })
    let s2 := s1.setHolder (coreCode w)
    let s3 := { s2 with boot := { s2.boot with step := if s2.boot.step = 4 then 5 else s2.boot.step } }
    s3.nvPut 8 0 (s3.countersVal false)
  else s

def execLeaseAcquire (core : MCore) (both : Bool) (s : State) : Answer := .next (acquireEffect core both s)

/-- LEASE_RENEW: by the holder with REMAIN above 0 (R445). -/
def execLeaseRenew (core : MCore) (s : State) : Answer :=
  .next (if s.coresRun && s.holdsLease core then s.modLease (fun l => { l with expires := s.localNs + leaseTime }) else s)

/-- LEASE_RELEASE: by the holder (R445). -/
def execLeaseRelease (core : MCore) (s : State) : Answer :=
  .next (if s.coresRun && s.lease.holder == coreCode core then s.setHolder 0 else s)

/-- LEASE_EXPIRY: REMAIN reaches 0 (R446). -/
def execLeaseExpiry (s : State) : Answer :=
  .next (if s.lease.holder = 1 ∨ s.lease.holder = 2 then s.atNs s.lease.expires else s)

/-- LEASE_UNCORRECTABLE: both cores stand down and the module enters the safe state (R448). -/
def uncorrectableEffect (s : State) : State :=
  let s1 := s.modLease (fun l => { l with standDown := true, expires := s.localNs })
  (s1.setHolder 3).enterSafe 4

def execLeaseUncorrectable (s : State) : Answer := .next (uncorrectableEffect s)

/-! Recovery of records (R444, Table 16.2). -/

/-- A value as recovery reads it: the fields of a payload whose layout the manual does not give are open (DESIGN CHOICE, log entry 33). -/
def NvVal.read (v : NvVal) (ty inst : Nat) : NvVal :=
  match v with
  | .raw bs =>
    let f (i : Nat) : Nat := Config.recordField ty inst bs i
    (match ty with
      | 1 => .lifecycle (f 0 % 5) (leBytes 2592 (f 1)) (f 2 % 2 ^ 32)
      | 2 => .defects ((List.range (f 0 % (bs.length + 1))).map (fun i => f (i + 1)))
      | 5 => .keyBlob (BitVec.ofNat 384 (f 0)) (BitVec.ofNat 32 (f 1)) (BitVec.ofNat 256 (f 2)) (f 3 % 2 ^ 32)
      | 7 => .overdrive (f 0 % 2 ^ 64)
      | 8 => .counters (f 0 % 2 ^ 16) (f 1 % 2 ^ 32) (f 2 % 2 ^ 16) (BitVec.ofNat 32 (f 3)) (f 4 % 2 == 1)
      | _ => .raw bs)
  | w => w

def State.recovered (s : State) (ty inst : Nat) : Option NvVal := (s.nvRec ty inst).value.map (fun v => v.read ty inst)

/-- A retirement record as power loss leaves it: a marking not committed is gone, a rewriting not committed did not happen
(R356, R444). -/
def RetRec.afterLoss (r : RetRec) : Option RetRec :=
  if r.committed then some r else if r.state = 0 then none else some { r with state := 0, committed := true }

/-! The guard map (R450). -/

/-- Name a slot in its row's guard map, if a spare is left. -/
def State.mapOutSlot (s : State) (slot : Nat) : State :=
  match retireGuard (s.rowGuard (slot / 66)) (slot % 66) with
  | some h =>
    (s.modFabric (fun f => { f with guards := mapSet guardD f.guards (slot / 66) h })).moveCores (slot / 66) (s.rowGuard (slot / 66)) h
  | none => s

/-- Give a mesh lane the next spare of its input, if one is left. -/
def State.mapOutLane (s : State) (e : Nat) : State :=
  let key (i : Nat) : Nat := (elemSlot e * 4 + bitsN e 14 13) * 16 + i
  match (List.range 16).find? (fun i => !(mapGet laneD s.fabric.lanes (key i)).en) with
  | some i => s.modFabric (fun f => { f with lanes := mapSet laneD f.lanes (key i) ⟨bitsN e 26 15, true⟩ })
  | none => s

/-- Leave an element out of the maps, as its spare's taking effect did; the second failed core of a row takes its slot (R71). -/
def State.mapOut (s : State) (e : Nat) : State :=
  let cls := elemClass e
  if cls = 0x0F then (s.domainSlots (bitsN e 11 0)).foldl (fun t x => t.mapOutSlot x) s
  else if cls = 0x01 then
    match s.logicalAt (elemSlot e) with
    | some c =>
      let g := mapGet (natD 8) (s.cluster c).guard (bitsN e 14 13)
      if g = bitsN e 18 15 then s
      else if g = 8 then s.modCluster c (fun x => { x with guard := mapSet (natD 8) x.guard (bitsN e 14 13) (bitsN e 18 15) })
      else s.mapOutSlot (elemSlot e)
    | none => s
  else if cls = 0x07 then s.mapOutLane e
  else if (2 ≤ cls ∧ cls ≤ 6) ∨ cls = 0x10 then s.mapOutSlot (elemSlot e)
  else s

/-- Insert an element in the order of R357. -/
def insertElem (e : Nat) (l : List Nat) : List Nat :=
  let key (x : Nat) : Nat := retireRank x * 2 ^ 64 + x
  l.takeWhile (fun x => decide (key x ≤ key e)) ++ [e] ++ l.dropWhile (fun x => decide (key x ≤ key e))

/-- The guard map from the defect map and the retirement records (Table 16.2) (DEDUCED, log entry 53; DEDUCED, log entry 110). -/
def State.buildGuards (s : State) (defects : List Nat) : State :=
  let es := defects ++ (s.faults.recs.filter (fun r => r.state == 1)).map RetRec.element
  (es.foldl (fun l e => insertElem e l) []).foldl (fun t e => t.mapOut e) s

/-- The stored guard map in force, or one built anew; a lost record is logged. -/
def State.restoreGuards (s : State) (defects : List Nat) : State :=
  match s.recovered 3 0 with
  | some (.guardMap g c l) =>
    let s1 := s.modFabric (fun f => { f with guards := g, lanes := l })
    c.foldl (fun t kv => t.modCluster (kv.1 / 4) (fun x => { x with guard := mapSet (natD 8) x.guard (kv.1 % 4) kv.2 })) s1
  | _ => (if (s.nvRec 3 0).lost then s.logLost 3 0 else s).buildGuards defects

/-! Dictionary, owners, counters. -/

/-- Settings from the records of TYPE 0x06; an index whose record is lost takes its defaults and is logged (R492). -/
def State.restoreSettings (s : State) : State :=
  s.nv.recs.foldl (fun t kv =>
    if kv.1 / 65536 ≠ 6 then t
    else
      let index := kv.1 % 65536 + 0x1000
      let t1 := if kv.2.lost then t.logLost 6 (kv.1 % 65536) else t
      if 0x1810 ≤ index ∧ index ≤ 0x1817 then t1
      else match kv.2.value with
        | some (.settings vs) => vs.foldl (fun u v => { u with dict := mapSet settingD u.dict v.1 v.2 }) t1
        | some (.pmap m) => { t1 with pmap := m }
        | _ => t1) s

/-- OWNER_ID and OWNER_EPOCH of each partition, and the key of a blob that still matches them (R377, R381). -/
def State.restoreOwners (s : State) : State :=
  (List.range 8).foldl (fun t p =>
    let vs : SMap Nat := match t.recovered 6 (0x810 + p) with | some (.settings v) => v | _ => []
    let id := BitVec.ofNat 384 (mapGet (natD 0) vs (ownerKey p))
    let ep := BitVec.ofNat 32 (mapGet (natD 0) vs (ownerKey p + 1))
    let t1 := t.modOwner p (fun _ => { Owner.reset with id := id, epoch := ep })
    match t1.recovered 5 p with
    | some (.keyBlob oid oep key sep) =>
      if oid = id ∧ oep = ep ∧ sep = t1.trust.sealEpoch ∧ id ≠ 0 then
        t1.modOwner p (fun o => { o with keyState := 2, runKey := key, runId := runIdOfKey key })
      else t1
    | _ => t1) s

/-- Record TYPE 0x08: BOOT goes up by one and is committed, LEASE_EPOCH resets to one more than stored (R448, Table 16.2). -/
def State.restoreCounters (s : State) : State :=
  let v : Nat × Nat × Nat × BitVec 32 × Bool := match s.recovered 8 0 with
    | some (.counters b q r l p) => (b, q, r, l, p)
    | _ => (0, 0, 0, 0, false)
  let s1 := { s with
    faults := { s.faults with boot := (v.1 + 1) % 65536, seq := v.2.1 }
    torusTime := { s.torusTime with epoch := epochOf v.2.2.1 0 }
    lease := { s.lease with epoch := v.2.2.2.1 + 1 }
    power := { s.power with failSeen := v.2.2.2.2 } }
  let s2 := if (s.nvRec 8 0).lost then s1.logLost 8 0 else s1
  s2.nvPut 8 0 (s2.countersVal false)

/-- Record TYPE 0x08 is written on each change of a counter it holds; here, before it is next read (Table 16.2) (DESIGN CHOICE, log entry
168). -/
def State.saveCounters (s : State) : State :=
  match (s.nvRec 8 0).value with
  | some (.counters b q r l p) => if NvVal.counters b q r l p = s.countersVal p then s else s.nvPut 8 0 (s.countersVal p)
  | _ => s

/-- OVERDRIVE_S as stored, with what up to 10 s since its last writing may have added; a lost record spends the budget (R412,
Table 16.2). -/
def State.restoreOverdrive (s : State) : State :=
  match s.recovered 7 0 with
  | some (.overdrive n) => { s with power := { s.power with overdrive := n + 100000, emSpent := decide (emBudget ≤ n + 100000) } }
  | _ => { s with power := { s.power with emSpent := (s.nvRec 7 0).lost } }

/-! Cold power-on. -/

/-- The lifecycle state while no record says another: from the fuses alone (R372; DEDUCED, log entry 54). -/
def Trust.fuseState (t : Trust) : Nat := if t.retiredFuse then 4 else if t.provisionedFuse then 1 else 0

/-- What stands of the elements: defective domains off, retired stacks, remapped pages, lost and substituted ports, lanes on
position 8 (R450). -/
def State.keepHardware (s t : State) : State :=
  let rs := t.faults.recs
  let has (st : Nat → Bool) (e : Nat) : Bool := rs.any (fun r => st r.state && r.element == e)
  let domains := mapAll domainD s.power.domains (fun _ x =>
    { Domain.reset with defective := x.defective, dropped := x.dropped, off := x.defective })
  let stackTab := mapAll stackD s.store.stackTab (fun k x =>
    { Stack.reset with
      badSpares := x.badSpares
      retired := x.retired && rs.any (fun r => r.state == 1 && retireRank r.element == 1 && elemStack r.element == k) })
  let pages := mapAll pageD s.store.pages (fun k x =>
    if has (· == 1) (elemCode 0x09 (k / 24576 + 32 * (k % 24576))) then { Page.reset with remapped := x.remapped, spareIdx := x.spareIdx }
    else Page.reset)
  let lane (n : Nat) (send : Bool) : Option Nat := (List.range 8).find? (fun i => has (· == 1) (opticalLane n send i))
  let ports := (List.range 256).foldl (fun m n =>
    mapSet portD m n (
      if has (fun _ => true) (portElement 0x0E n) then { Port.reset with state := 7, sub := (s.port n).sub }
      else { Port.reset with sub := (s.port n).sub, rxSpared := lane n false, txSpared := lane n true })) []
  { t with
    power := { t.power with domains := domains }
    store := { t.store with stackTab := stackTab, pages := pages }
    ports := ports }

/-- The module as power finds it: everything at its reset value but the commands that wait, what has been put out, storage,
fuses, and the records of retired elements. A restart from the safe state also keeps the clocks, LOCAL_NS, the fault log with
the elements' stamps, the trip bits, LEASE_REFUSED and the counters that only a cold power-on resets (R352, R353, R454, R487,
R497) (DEDUCED, log entry 117). -/
def State.bare (s : State) (b : BootIn) (cold : Bool) : State :=
  let t := s.trust
  let t0 : Trust := { Trust.reset with
    provisionedFuse := t.provisionedFuse, retiredFuse := t.retiredFuse, debugCount := t.debugCount, fwSvn := t.fwSvn,
    identity := t.identity, imageSvn := b.imageSvn, fwMeasure := b.fwMeasure }
  let r : State := { State.reset with
    pending := s.pending, nv := { s.nv with writes := [] }, out := s.out, free := s.free
    trust := { t0 with lifecycle := t0.fuseState }
    faults := { Faults.reset with recs := s.faults.recs.filterMap RetRec.afterLoss }
    clk := { Clk.reset with oscReady := true }
    power := { Power.reset with on := true, selfRefresh := true }
    boot := { Boot.reset with slot := b.slot }
    pins := { Pins.reset with groups := [(1, { PinGroup.reset with fn := 1 })] } }
  if cold then r
  else
    { r with
      clock := s.clock, clk := s.clk
      faults := { r.faults with elems := s.faults.elems, log := s.faults.log, unread := s.faults.unread, logLost := s.faults.logLost }
      counters := s.counters.filter (fun kv => decide (0x5100 ≤ kv.1 / 8192 / 256) && decide (kv.1 / 8192 / 256 < 0x5200))
      lease := { r.lease with refused := s.lease.refused }
      power := { r.power with powerTrip := s.power.powerTrip, thermalTrip := s.power.thermalTrip }
      boot := { r.boot with moduleState := s.boot.moduleState, hostUp := s.boot.hostUp }
      host := { HostPort.reset with rate := s.host.rate, width := s.host.width, flit := s.host.flit } }

/-- Every pending retirement that needs no partition's stop is applied (R450, R451): lanes of the mesh, then the order of
R357 (DEDUCED, log entry 111). -/
def State.applyAll (s : State) : State :=
  let lanes := s.faults.recs.filter (fun r => r.state == 0 && r.committed && elemClass r.element == 0x07)
  let s1 := lanes.foldl (fun t r => (t.mapOut r.element).closeRecord r.element 1 6) s
  s1.applyPending 8 (fun e => elemClass e != 0x0E)

/-- Steps 3 to 5 of Table 16.3 once the firmware is verified: lifecycle, defect map, records, guard map. -/
def State.recover (s old : State) : State :=
  let made := s.trust.provisionedFuse || s.trust.retiredFuse
  let life := s.recovered 1 0
  let bad (ty : Nat) : Bool := (s.nvRec ty 0).lost || (made && (s.nvRec ty 0).value.isNone)
  let s0 := { s with boot := { s.boot with romDone := true, step := 4 } }
  if bad 1 || bad 2 then s0.enterSafe 5
  else
    let s1 := match life with
      | some (.lifecycle v pk ep) =>
        let st := if s0.trust.retiredFuse then 4 else if !s0.trust.provisionedFuse then 0 else if v = 3 then 2 else v
        let u := s0.modTrust (fun t => { t with lifecycle := st, operatorPk := pk, sealEpoch := ep })
        if v = 3 ∧ st = 2 then u.nvPut 1 0 u.lifecycleVal else u
      | _ => s0
    let defects := match s1.recovered 2 0 with | some (.defects l) => l | _ => []
    let s2 := ({ s1 with pmap := Pmap.single }).restoreCounters.restoreSettings.restoreOwners.restoreOverdrive
    let s3 := { s2 with
      power := { s2.power with mode := s2.setting 0x2000 1 }
      pins := { s2.pins with groups := [(1, { PinGroup.reset with fn := 1 }), (3, { PinGroup.reset with fn := 1 }), (5, { PinGroup.reset with fn := 1 })] } }
    let s4 := (old.keepHardware s3).restoreGuards defects
    let s5 := { s4 with faults := { s4.faults with
      elems := s4.faults.recs.foldl (fun m (r : RetRec) => if r.state = 0 then mapMod elemD m r.element (fun e => { e with marked := true }) else m) s4.faults.elems } }
    s5.applyAll

/-- COLD_POWER_ON: the input first exceeds 47.0 V; the first stage is not held off (R391). The boot ROM's checks decide whether
bring-up goes on (R368) (DEDUCED, log entry 118). -/
def coldPowerOnEffect (b : BootIn) (s : State) : State :=
  if s.power.heldOff then s
  else
    let s1 := s.holdUp.saveCounters
    let s2 := s1.bare b true
    if !b.fwOk || decide (b.imageSvn < s.trust.fwSvn) then s2.enterSafe 1 else s2.recover s1

def execColdPowerOn (b : BootIn) (s : State) : Answer := .next (coldPowerOnEffect b s)

/-- Restart of bring-up at step 4 from the safe state (R454) (DEDUCED, log entry 117). -/
def State.restart (s : State) : State :=
  let s0 := s.saveCounters
  let s1 := (s0.bare ⟨true, s.trust.imageSvn, s.trust.fwMeasure, s.boot.slot⟩ false).recover s0
  if s1.boot.moduleState = 2 ∧ s1.boot.safeCause ≠ 0 then s1
  else
    let s2 := s1.setModule 0
    if s2.clk.fabLock && !s2.clk.fabOnSafe then { s2 with boot := { s2.boot with step := 6 } }
    else if s2.clk.xtalReady then s2.beginRelock (s2.setting 0x2400 1) else s2

/-- HOST_RESET: outside the safe state the queues are disabled (R334); in it, a hot reset or an FLR that Table 16.4 allows
restarts bring-up (R454). -/
def hostResetEffect (ev : HostEvent) (s : State) : State :=
  if s.boot.moduleState = 2 then
    if ev = .linkDown then s.disableAll 1
    else if s.boot.safeCause = 4 ∨ (s.boot.safeCause = 3 ∧ s.power.tmax < 80000 ∧ 36000 ≤ s.power.flow) then s.restart
    else s
  else s.disableAll (match ev with | .flr => 2 | _ => 1)

def execHostReset (ev : HostEvent) (s : State) : Answer := .next (hostResetEffect ev s)

/-! Readiness (R451, R452). -/

/-- May the module become READY: bring-up, fabric locked, groups powered, host link up? -/
def State.mayBeReady (s : State) : Bool :=
  s.boot.moduleState == 0 && s.boot.romDone && s.clk.fabLock && !s.clk.fabOnSafe && s.boot.hostUp
    && (List.range 8).all (fun g => s.groupStage g == 4)

/-- Mark what self-test found and commit its record (R451). -/
def State.selfTestFail (s : State) (e : Nat) : State :=
  if (mapGet elemD s.faults.elems e).marked then s
  else
    let s1 := s.markElement e ((List.range 8).find? (fun p => s.elemOf p e)) 0 0
    { s1 with faults := { s1.faults with recs := s1.faults.recs.map (fun r => if r.element = e then { r with committed := true } else r) } }

/-- MODULE_READY: stores trained and zeroed, memories zeroed, self-test complete with what it found retired, READY.
(DEDUCED, log entry 118.) -/
def readyEffect (fails : List Nat) (s : State) : State :=
  if !s.mayBeReady then s
  else
    let s1 := (fails.foldl (fun t e => t.selfTestFail e) (zeroingCompleteEffect 0 s)).applyAll
    let s2 := { s1 with
      cmem := [], qmem := [], smem := []
      store := { s1.store with stackTab := (List.range 24).foldl (fun m k => mapMod stackD m k (fun x => { x with trained := !x.retired })) s1.store.stackTab }
      power := { s1.power with selfRefresh := false }
      boot := { s1.boot with memZeroing := false, step := 12, selfTested := true, readyAt := s1.localNs } }
    s2.setModule 1

def execModuleReady (selfTestFails : List Nat) (s : State) : Answer := .next (readyEffect selfTestFails s)

/-- SAFE_STATE_ENTRY with a cause of Table 16.4 (R453). -/
def execSafeStateEntry (cause : Nat) (s : State) : Answer :=
  if 1 ≤ cause ∧ cause ≤ 5 then .next (s.enterSafe cause) else .fault (.noSuchElement "safe-state cause" cause)

/-- STORE_RECALIBRATION: inside the refresh commands; it takes no round from any partition and changes no register (R455). -/
def execStoreRecalibration (stack : Nat) (s : State) : Answer := onNumber "stack" 24 stack s

end Sys2Proof.Machine
end

