-- ==== Sys2Proof/Machine/Rebind.lean ====
section
/-! DEFINITION. Binding control (R456 to R461): START, STOP, REBIND, the warm re-bind with its regeneration of compute copies
(R362), and the step timeout. -/

namespace Sys2Proof.Machine

open Sys2Proof

/-! What blocks a partition (R457). -/

/-- START_BLOCKED in some stack (R255), or a list of poisoned blocks that overflowed (R362). -/
def State.startBlocked (s : State) (p : Nat) : Bool :=
  s.ueps.any (fun kv => kv.1 % 8 == p && (kv.2.startBlocked || kv.2.poisonOverflow))

/-- BLOCK_CAUSE as it stands now, or 0 (DEDUCED, log entry 108). -/
def State.blockCause (s : State) (p : Nat) : Nat :=
  if s.inDoubt p then 1
  else if s.startBlocked p then 2
  else if s.faults.exhausted.contains p then 3
  else if (s.bind p).image.isNone ∨ (s.bind p).block = 4 then 4
  else if (s.owner p).keyState ≠ 2 then 5
  else if s.clk.relockBusy then 6
  else 0

/-! START, STOP, REBIND (Table 16.6). -/

/-- May a partition be started (R312, R433, R457, R461, R524)? (DEDUCED, log entry 108; DEDUCED, log entry 124). -/
def State.startable (s : State) (p : Nat) : Bool :=
  ((s.bind p).state == 2 || (s.bind p).state == 4) && !s.inDoubt p && !s.startBlocked p && !s.faults.exhausted.contains p
    && !(s.bind p).rebindNeeded && !s.clk.relockBusy && !s.clk.fabOnSafe && s.boot.moduleState == 1 && s.computeState
    && (s.part p).stopping.isNone && (s.part p).startRaised.isNone && s.pins.instr != 0x11 && s.pins.dieLink == 0

/-- START is raised on the spine, and a sleeping partition is woken (R94, R418). -/
def State.raiseStart (s : State) (p : Nat) : State :=
  (s.modPart p (fun q => { q with startRaised := some s.clock.fab })).wakeUp p

/-- START: refused where the state does not permit it (R461). -/
def State.askStart (s : State) (p : Nat) : State := if s.startable p then s.raiseStart p else s

def execStart (p : Nat) (who : MCore) (s : State) : Answer := onPartition p (s.guarded who (s.askStart p))

/-- STOP (R94); during a re-bind it has no effect (R459). -/
def execStop (p : Nat) (who : MCore) (s : State) : Answer := onPartition p (s.guarded who (s.raiseStop p stopHost))

/-- May REBIND be asked of a partition: it has stopped (R457)? -/
def State.rebindable (s : State) (p : Nat) : Bool := (s.bind p).state == 4 || (s.bind p).state == 6

/-- REBIND. -/
def State.askRebind (s : State) (p : Nat) : State :=
  if s.rebindable p then s.modBind p (fun b => { b with rebindAsked := true }) else s

def execRebind (p : Nat) (who : MCore) (s : State) : Answer := onPartition p (s.guarded who (s.askRebind p))

/-! Regeneration of compute copies (R362). -/

/-- Elements of a shard in groups that are not marked. -/
def liveElements (marks : List Nat) (h : Shard) : Nat :=
  128 * (List.range (h.nEl / 128)).countP (fun j => !shardMarked marks h (128 * j))

/-- Draws a shard's pass takes before CC0, by CC0 and by CC1 (R57, R254). -/
def shardDraws (marks : List Nat) (h : Shard) : Nat × Nat × Nat :=
  let u := liveElements marks h
  let m := if h.momSr ∧ (h.rule = 0 ∨ h.firstMom) then u else 0
  let v := if h.momSr ∧ h.rule = 1 then u else 0
  let cc (fmt : Nat) : Nat := if h.ccSr ∧ fmt ≠ 15 then u else 0
  if h.rule = 3 then (0, 0, 0) else (m + v, cc h.cc0Fmt, cc h.cc1Fmt)

/-- Advance a generator over n draws. -/
def jumpDraws (n : Nat) (g : Word) : Word :=
  match n with
  | 0 => g
  | k + 1 => jumpDraws k (lfsrDraw g).1

/-- Bits of an element of a compute copy. -/
def copyBits (fmt : Nat) : Nat := match fmt with | 1 => 16 | 2 => 8 | 4 => 4 | _ => 2

/-- Element a byte of a compute-copy plane belongs to. -/
def copyElement (h : Shard) (fmt b : Nat) : Nat :=
  let bytes := h.nEl * copyBits fmt / 8
  if b < bytes then b * 8 / copyBits fmt else (b - bytes) * 32

/-- Unmarked groups of 128 elements of a copy that hold a listed block. -/
def hitGroups (x : Uep) (h : Shard) (pl : Plane) (fmt copy : Nat) : List Nat :=
  let bytes := copyBytes fmt h.nEl
  (x.poisonBlocks.flatMap (fun e =>
    let page := e / 32768
    let b := (page - pl.page) / 2 * 2 ^ 21 + e % 32768 * 64
    if page % 2 = copy ∧ pl.page ≤ page ∧ pl.off * 512 ≤ b ∧ b < pl.off * 512 + bytes then
      (List.range (min 64 (pl.off * 512 + bytes - b))).map (fun i => copyElement h fmt (b - pl.off * 512 + i) / 128)
    else [])).eraseDups.filter (fun j => !shardMarked x.marks h (128 * j))

/-- Regenerate the listed groups of one copy from the committed W, with the generator as it stood there. Answers false when a
group's W is poisoned (DEDUCED, log entry 107). -/
def State.regenCopy (s : State) (stack : Nat) (x : Uep) (h : Shard) (pl : Plane) (fmt : Nat) (gen : Word) : Bool × State :=
  let cur := b2n x.copySel
  let gs := hitGroups x h pl fmt cur
  if fmt = 15 ∨ gs.isEmpty then (true, s)
  else
    let w := s.readPlane stack h.wPlane 2 cur (4 * h.nEl) (fun i => !gs.contains (i / 8))
    if gs.any (fun j => (w.1.drop (128 * j)).take 128 |>.any PWord.poison) then (false, w.2)
    else
      let bytes := copyBytes fmt h.nEl
      let old := (w.2.readAll stack pl 2 cur bytes).1
      let r := copyPlane h fmt (fun j => shardMarked x.marks h (128 * j)) old (w.1.map PWord.w) gen
      (true, w.2.mixPlane stack pl cur bytes (fun b => gs.contains (copyElement h fmt b / 128)) r.1)

/-- Regenerate every listed copy of a stack's shards in order; the list is then empty. A poisoned W blocks the start (R255).
(DEDUCED, log entry 107.) -/
def State.regenerate (s : State) (stack p : Nat) : State :=
  let x := s.uep stack p
  if x.poisonBlocks.isEmpty then s
  else
    let out := x.shards.foldl (fun (acc : (Bool × State) × Word) h =>
      let d := shardDraws x.marks h
      let g0 := jumpDraws d.1 acc.2
      let g1 := jumpDraws d.2.1 g0
      let g2 := jumpDraws d.2.2 g1
      if h.rule = 3 then acc
      else
        let a := acc.1.2.regenCopy stack x h h.cc0Plane h.cc0Fmt g0
        let b := a.2.regenCopy stack x h h.cc1Plane h.cc1Fmt g1
        ((acc.1.1 && a.1 && b.1, b.2), g2)) ((true, s), lfsrSeed x.param.ueSeed x.copyStep)
    if out.1.1 then out.1.2.modUep stack p (fun y => { y with poisonBlocks := [] }) else out.1.2.ueFault stack p 3

/-! The warm re-bind (R457 to R459, Table 16.5). -/

def State.block (s : State) (p cause : Nat) : State := s.modBind p (fun b => { b with state := 6, block := cause })

/-- AUTO_REBIND. -/
def State.autoRebind (s : State) (p : Nat) : Bool := s.setting (0x6010 + p) 4 == 1 && !(s.bind p).noAuto

/-- Steps 2 to 4: ports with lost sessions begin training, pending retirements are applied, the clusters R363 names are
zeroed (DEDUCED, log entry 95). -/
def State.rebindRepairs (s : State) (p : Nat) : State :=
  let s1 := { s with ports := mapAll portD s.ports (fun n x =>
    if s.portOwner n = some p ∧ x.state = 6 ∧ x.refuse = 0 ∧ !x.los then { x with state := 1, since := s.localNs, trainFails := 0 } else x) }
  let s2 := s1.applyPending p (s1.elemOf p)
  let mine := s2.faults.zeroNext.filter (s2.owns p)
  let s3 := mine.foldl (fun t c => t.zeroing c (fun _ => true) true) s2
  { s3 with faults := { s3.faults with zeroNext := s3.faults.zeroNext.filter (fun c => !s3.owns p c) } }

/-- Steps 5 and 6: the image is read, hashed and loaded, and the copies are regenerated. -/
def State.rebindLoad (s : State) (p : Nat) (b : Binding) : State :=
  match s.readImage b (s.bind p).imageLen with
  | none => s.block p 4
  | some bytes =>
    if sha384 bytes ≠ (s.owner p).measure then s.block p 4
    else
      let s1 := s.applyBinding p b true
      let s2 := (b.stackTab.map StackImg.stack).foldl (fun t k => t.regenerate k p) s1
      if s2.startBlocked p then s2.modBind p (fun x => { x with state := 4, noAuto := true, rebindAsked := false })
      else s2.modBind p (fun x => { x with state := 5, block := 0, rebindStep := 6, rebindNeeded := false })

/-- WARM_REBIND: of a stopped partition whose re-bind is wanted; it does not start while a condition of R457 holds.
(DEDUCED, log entry 108.) -/
def warmRebindEffect (p : Nat) (s : State) : State :=
  let b := s.bind p
  if !(b.state == 4 || b.state == 6) || !(s.autoRebind p || b.rebindAsked) || !(s.part p).stopping.isNone then s
  else
    match s.blockCause p, b.image with
    | 0, some img =>
      let s1 := s.rebindRepairs p
      if s1.faults.exhausted.contains p then s1.block p 3 else s1.rebindLoad p img
    | 0, none => s.block p 4
    | c, _ => s.block p c

def execWarmRebind (p : Nat) (s : State) : Answer := onPartition p (warmRebindEffect p s)

/-- WARM_REBIND_START: once every port the binding uses is UP with RUN_MATCH, the module gives START itself when AUTO_REBIND is
set; otherwise the partition is LOADED and waits for the host's (R458) (DEDUCED, log entry 105). -/
def rebindStartEffect (p : Nat) (s : State) : State :=
  let b := s.bind p
  let open_ := match b.image with
    | some img => img.ports.all (fun n => (s.port (s.outPort n)).open_)
    | none => false
  if b.state ≠ 5 || !open_ || s.clk.relockBusy || s.clk.fabOnSafe then s
  else
    let s1 := s.modBind p (fun x => { x with state := 2, rebindAsked := false, rebindStep := 8 })
    if s.autoRebind p then s1.raiseStart p else s1

def execWarmRebindStart (p : Nat) (s : State) : Answer := onPartition p (rebindStartEffect p s)

/-- STEP_TIMEOUT: COMMITTED_STEP has not advanced for STEP_TIMEOUT ms of running (R460). -/
def stepTimeoutEffect (p : Nat) (s : State) : State :=
  let lim := s.setting (0x6010 + p) 5
  if lim = 0 || !(s.part p).running then s
  else (s.atNs ((s.bind p).lastStep + lim * 1000000)).raiseStop p stopTimeout

def execStepTimeout (p : Nat) (s : State) : Answer := onPartition p (stepTimeoutEffect p s)

end Sys2Proof.Machine
end

