-- ==== Sys2Proof/Machine/Registers.lean ====
section
/-! DEFINITION. Control words: what a read of a register returns and latches or clears (R11, R104, R105), what a write does
(R11 to R13, R70, R103, R120, R121, R134, R199, R208, R216, R267, R327, R331). Spaces are those of Table 18.10. -/

namespace Sys2Proof.Machine

open Sys2Proof

/-! Words of the control pages of a cluster (Tables 3.13 and 4.7), by offset from 0xFF_E000. -/

/-- PART_CYCLE of the partition that owns a cluster (R529). -/
def State.cycleOf (s : State) (c : Nat) : Nat :=
  match s.ownerOf c with
  | some p => (s.part p).partCycle
  | none => 0

/-- SEQ_STATUS. -/
def State.seqStatus (s : State) (c : Nat) : Nat :=
  let x := s.cluster c
  let held := match s.ownerOf c with
    | some p => (s.part p).holdActive
    | none => false
  x.seq.state.code + 8 * b2n x.seq.holdReq + 16 * b2n held + 32 * b2n x.seq.mapRefused + 64 * x.pendingTiles (s.cycleOf c)

/-- MEM_STATUS. -/
def State.memStatus (s : State) (c : Nat) : Nat :=
  let m := (s.cluster c).mem
  b2n (s.zeroBusy c) + 2 * b2n m.conflict + 4 * b2n m.ceSeen + 8 * b2n m.ueSeen + 16 * b2n m.poisonSeen + 32 * b2n m.circFault
    + 64 * b2n m.cfgRefused

def Flip.ctrl (f : Flip) : Nat := f.check.toNat + 128 * b2n f.arm + 256 * f.word + 1024 * f.bank + 2 ^ 20 * b2n f.bankEn

def Circ.cfg (q : Circ) : Nat := q.base.toNat + 2 ^ 24 * q.sizeLog2 + 2 ^ 29 * b2n q.en

/-- The control page (Table 3.13). -/
def State.seqWord (s : State) (c off : Nat) : Nat :=
  let x := s.cluster c
  if off = 1 then s.seqStatus c
  else if off = 2 then x.seq.pc
  else if off = 3 then x.seq.cause + 256 * x.seq.causeDesc
  else if 4 ≤ off ∧ off ≤ 7 then (mapGet (fun _ => Loop.reset) x.seq.loops (off - 4)).iter % 4096
  else if off = 8 then s.cycleOf c % 2 ^ 32
  else if off = 9 then x.partCycleHi
  else if off = 0x10 then x.flags.mx.toNat
  else if off = 0x11 then x.flags.vx.toNat
  else if off = 0x12 then x.flags.qz.toNat
  else if off = 0x13 then x.flags.rd.toNat
  else if off = 0x14 then x.flags.sx.toNat
  else if off = 0x20 then x.res.word.toNat
  else if off = 0x21 then x.res.events
  else if 0x30 ≤ off ∧ off ≤ 0x33 then mapGet (natD 8) x.guard (off - 0x30)
  else 0

/-- The memory control page (Table 4.7). -/
def State.memWord (s : State) (c off : Nat) : Nat :=
  let x := s.cluster c
  if off = 0 then s.memStatus c
  else if off = 1 then x.mem.ceEvents
  else if off = 2 then x.mem.ueEvents
  else if off = 3 then x.mem.lastErr.toNat
  else if off = 8 then x.flip.data.toNat
  else if off = 9 then x.flip.ctrl
  else if 0x100 ≤ off ∧ off < 0x120 then
    let q := x.region ((off - 0x100) / 4)
    match off % 4 with
    | 0 => q.cfg | 1 => q.head.toNat | 2 => q.tail.toNat | _ => 0
  else if 0x200 ≤ off ∧ off < 0x208 then
    let r := mapGet resD x.resid ((off - 0x200) / 2)
    if off % 2 = 0 then r.base + 2 ^ 31 * b2n r.en else r.limit
  else 0

/-- A word of the two control pages of a cluster (R103, R134) (DEDUCED, log entry 141). -/
def State.clusterWord (s : State) (c off : Nat) : Nat := if off < 0x1000 then s.memWord c off else s.seqWord c (off - 0x1000)

/-- What a read of a cluster's control word latches or clears. -/
def State.readCluster (s : State) (c off : Nat) : State :=
  match off with
  | 0x0001 => s.modCluster c (fun x => { x with mem := { x.mem with ceEvents := 0 } })
  | 0x0002 => s.modCluster c (fun x => { x with mem := { x.mem with ueEvents := 0 } })
  | 0x1008 => s.modCluster c (fun x => { x with partCycleHi := s.cycleOf c / 2 ^ 32 % 2 ^ 32 })
  | 0x1021 => s.modCluster c (fun x => { x with res := { x.res with events := 0 } })
  | _ => s

/-- A write of a word of a control page, each register by its access code. `hw` has the bits of a W1C register that hardware
sets in the same cycle (R13). -/
def State.writeCluster (s : State) (c off : Nat) (v hw : Word) (who : Writer) : State :=
  if off < 0x1000 then
    if off = 0 then
      s.modCluster c (fun x => { x with mem := { x.mem with
        conflict := w1c x.mem.conflict v hw 1, ceSeen := w1c x.mem.ceSeen v hw 2, ueSeen := w1c x.mem.ueSeen v hw 3
        poisonSeen := w1c x.mem.poisonSeen v hw 4, circFault := w1c x.mem.circFault v hw 5
        cfgRefused := w1c x.mem.cfgRefused v hw 6 } })
    else if off = 8 then flipWriteEffect c .data v who s
    else if off = 9 then flipWriteEffect c .ctrl v who s
    else if 0x100 ≤ off ∧ off < 0x120 then
      match off % 4 with
      | 0 => circWriteEffect c ((off - 0x100) / 4) .cfg v who s
      | 1 => circWriteEffect c ((off - 0x100) / 4) .head v who s
      | 2 => circWriteEffect c ((off - 0x100) / 4) .tail v who s
      | _ => s
    else if 0x200 ≤ off ∧ off < 0x208 then
      resWriteEffect c ((off - 0x200) / 2) (if off % 2 = 0 then .base else .limit) v who s
    else s
  else
    match off - 0x1000 with
    | 0x00 =>
      let s1 := if v.getLsbD 0 then (match s.ownerOf c with
        | some p => s.raiseStop p stopHost
        | none => s) else s
      if v.getLsbD 1 then unloadEffect c s1 else s1
    | 0x01 => s.modCluster c (fun x => { x with seq := { x.seq with mapRefused := w1c x.seq.mapRefused v hw 5 } })
    | 0x10 => s.modCluster c (fun x => { x with flags := { x.flags with mx := w1c4 x.flags.mx v hw } })
    | 0x11 => s.modCluster c (fun x => { x with flags := { x.flags with vx := w1c4 x.flags.vx v hw } })
    | 0x12 => s.modCluster c (fun x => { x with flags := { x.flags with qz := w1c4 x.flags.qz v hw } })
    | 0x13 => s.modCluster c (fun x => { x with flags := { x.flags with rd := w1c4 x.flags.rd v hw } })
    | 0x14 => s.modCluster c (fun x => { x with flags := { x.flags with sx := w1c4 x.flags.sx v hw } })
    | 0x20 => s.modCluster c (fun x => { x with res := { x.res with
        mxMismatch := w1c x.res.mxMismatch v hw 0, rdMismatch := w1c x.res.rdMismatch v hw 1
        otherMismatch := w1c x.res.otherMismatch v hw 2 } })
    | 0x30 | 0x31 | 0x32 | 0x33 => s.modCluster c (fun x => { x with seq := { x.seq with mapRefused := true } })
    | _ => s

/-! Fabric control space (Tables 6.5 and 6.6). A spare slot is powered off: its router words read as 0 (R157). -/

/-- OWNER and OWNED. -/
def ownBits (o : Option Nat) : Nat :=
  match o with
  | some p => p + 8
  | none => 0

/-- RTR_LINKCFG of a router. -/
def State.linkCfg (s : State) (c : Nat) : Nat :=
  (List.range 4).foldl (fun acc d =>
    acc + 2 ^ d * b2n (s.linkClass c d == .shared) + 2 ^ (4 + d) * b2n (s.isLost c d)) 0

/-- SYNC_CFG and SYNC_STATE. -/
def SyncObj.cfg (o : SyncObj) : Nat := b2n o.en + 2 * b2n o.scope + 4 * o.group + 1024 * o.expect
def SyncObj.word (o : SyncObj) : Nat := o.seqArr + 256 * o.phase + 2 ^ 16 * o.pending + 2 ^ 20 * b2n o.spineWait

/-- GROUPg_CFG and GROUPg_STATUS. -/
def State.groupCfg (s : State) (g : Nat) : Nat :=
  let x := s.group g
  x.members + 2 ^ 15 * x.align + 2 ^ 19 * b2n x.torus + 2 ^ 20 * b2n x.reduce + 2 ^ 21 * ownBits (s.groupOwner g)
def Group.word (x : Group) : Nat := x.arrived + 2 ^ 15 * x.phase

def RowGuard.word (g : RowGuard) : Nat := g.spareA + 256 * g.spareB + 2 ^ 15 * b2n g.aRetired + 2 ^ 16 * b2n g.bRetired

/-- FAB_STATUS. -/
def State.fabStatus (s : State) : Nat := s.frameSlot + 256 * s.fabric.stretch + 2 ^ 13 * b2n s.remapBusy

def State.fabricWord (s : State) (addr : Nat) : Nat :=
  if addr < 0x840000 then
    let slot := addr / 0x800
    let off := addr % 0x800
    match s.logicalAt slot with
    | none => 0
    | some c =>
      if off < 0x400 then withParity (s.entry c (off / 256) (off % 256) + 256 * ownBits (s.entryOwner c (off / 256) (off % 256)))
      else if off < 0x500 then withParity (s.entry c 4 (off % 256))
      else if off = 0x500 then s.linkCfg c
      else if 0x504 ≤ off ∧ off < 0x508 then mapGet (natD 0) s.fabric.linkEvents (slot * 4 + (off - 0x504))
      else if 0x510 ≤ off ∧ off < 0x550 then
        let l := mapGet laneD s.fabric.lanes (slot * 64 + (off - 0x510))
        l.lane + 2 ^ 12 * b2n l.en
      else 0
  else if addr < 0x850000 then
    match addr % 4 with
    | 0 => (s.sync ((addr - 0x840000) / 4)).cfg | 1 => (s.sync ((addr - 0x840000) / 4)).word | _ => 0
  else if addr < 0x850400 then
    match addr % 4 with
    | 0 => s.groupCfg ((addr - 0x850000) / 4) | 1 => (s.group ((addr - 0x850000) / 4)).word | _ => 0
  else if 0x851000 ≤ addr ∧ addr < 0x851040 then (s.rowGuard (addr - 0x851000)).word
  else if addr = 0x852000 then s.fabStatus
  else 0

def clearLinkEvents (slot d : Nat) (s : State) : State :=
  s.modFabric (fun f => { f with linkEvents := mapSet (natD 0) f.linkEvents (slot * 4 + d) 0 })

def State.readFabric (s : State) (addr : Nat) : State :=
  if addr < 0x840000 ∧ 0x504 ≤ addr % 0x800 ∧ addr % 0x800 < 0x508 ∧ (s.logicalAt (addr / 0x800)).isSome then
    clearLinkEvents (addr / 0x800) (addr % 0x800 - 0x504) s
  else s

/-! Store control space of a stack (Tables 7.8 and 8.11). -/

def State.pageWord (s : State) (stack n : Nat) : Nat :=
  let g := s.page stack n
  withParity ((s.pageOwner stack n).getD 15 + 16 * g.kind + 128 * b2n g.resident + 256 * b2n g.peerRead + 512 * b2n g.peerWrite
    + 1024 * b2n g.remapped + 2048 * g.spareIdx)

/-- PART_CFGp of a stack. -/
def State.partCfg (s : State) (stack p : Nat) : Nat :=
  s.pmap.storeShare.getD p 0 + 512 * s.pmap.ctxQuota.getD p 0 + 2 ^ 15 * b2n (s.uep stack p).copySel

/-- Spare pages of a stack in use (R204): those that pages live in and those retired themselves. -/
def State.sparePages (s : State) (stack : Nat) : Nat :=
  s.store.pages.countP (fun kv => kv.1 / 24576 == stack && kv.2.remapped) + (s.stack stack).badSpares.length

/-- Are pages of a stack being zeroed (R201, R202, R208, R378)? -/
def State.stackZeroing (s : State) (stack : Nat) : Bool :=
  decide (s.localNs < (s.stack stack).zeroUntil) || (List.range 8).any (fun p => (s.owner p).busy && s.ownsPages stack p)

/-- STACK_STATUS. -/
def State.stackStatus (s : State) (stack : Nat) : Nat :=
  let x := s.stack stack
  b2n x.trained + 2 * b2n x.retired + 4 * b2n (s.stackZeroing stack) + 8 * b2n x.ceSeen + 16 * b2n x.ueSeen + 32 * b2n x.poisonSeen
    + 64 * b2n x.refused + 128 * min 63 (s.sparePages stack)

/-- UE_STATUS: BUSY while a pass is in progress for some partition. -/
def State.ueStatus (s : State) (stack : Nat) : Nat :=
  let x := s.stack stack
  b2n ((List.range 8).any (fun p => let t := (s.uep stack p).state; t == 2 || t == 4)) + 2 * b2n x.residueSeen
    + 4 * b2n x.uePoisonSeen + 8 * b2n x.untouchedSeen + 16 * b2n x.excessSeen

/-- UEP_STATE. -/
def Uep.word (x : Uep) : Nat :=
  x.state + 16 * x.cause + 2 ^ 12 * b2n x.lastSkipped + 2 ^ 13 * b2n x.exportWait + 2 ^ 14 * b2n x.startBlocked

/-- The registers of one partition's block. -/
def Uep.reg (x : Uep) (i : Nat) : Nat :=
  match i with
  | 0 => x.word
  | 1 => x.committed.toNat % 2 ^ 32
  | 2 => x.committedHi
  | 3 => x.applied.toNat % 2 ^ 32
  | 4 => x.appliedHi
  | 5 => x.skipped.toNat % 2 ^ 32
  | 6 => x.normSq.toNat
  | 7 => x.clip.toNat
  | 8 => x.lr.toNat
  | 9 => x.untouched
  | 10 => x.exportAcked.toNat
  | _ => 0

/-- A word of the control space of a stack (Table 7.8) (DEDUCED, log entry 141). -/
def State.storeRegWord (s : State) (stack off : Nat) : Nat :=
  if off < 0x6000 then s.pageWord stack off
  else if off < 0x6040 then
    match off % 8 with
    | 0 => s.partCfg stack ((off - 0x6000) / 8)
    | 1 => (s.prio stack ((off - 0x6000) / 8)).word
    | _ => 0
  else if off = 0x7000 then s.stackStatus stack
  else if off = 0x7001 then (s.stack stack).ceEvents
  else if off = 0x7002 then (s.stack stack).ueEvents
  else if off = 0x7003 then (s.stack stack).lastErr.toNat
  else if off = 0x8000 then (s.stack stack).ueFlags.toNat
  else if off = 0x8001 then s.ueStatus stack
  else if off = 0x8002 then (s.stack stack).ueEvents2
  else if 0x8100 ≤ off ∧ off < 0x8180 then (s.uep stack ((off - 0x8100) / 16)).reg (off % 16)
  else 0

def State.readStore (s : State) (stack off : Nat) : State :=
  if off = 0x7001 then s.modStack stack (fun x => { x with ceEvents := 0 })
  else if off = 0x7002 then s.modStack stack (fun x => { x with ueEvents := 0 })
  else if off = 0x8002 then s.modStack stack (fun x => { x with ueEvents2 := 0 })
  else if 0x8100 ≤ off ∧ off < 0x8180 then
    s.modUep stack ((off - 0x8100) / 16) (fun x =>
      match off % 16 with
      | 1 => { x with committedHi := x.committed.toNat / 2 ^ 32 }
      | 3 => { x with appliedHi := x.applied.toNat / 2 ^ 32 }
      | 9 => { x with untouched := 0 }
      | _ => x)
  else s

/-- Is the binding of partition p being loaded? -/
def State.loadingOf (s : State) (p : Nat) : Bool := (s.bind p).loading

/-- May page n have a KIND: 0 to 5, the first of a pair at an even number and the second at an odd one (R197)? -/
def kindAllowed (kind n : Nat) : Bool := decide (kind ≤ 5) && !(kind == 1 && n % 2 == 1) && !(kind == 2 && n % 2 == 0)

/-- A write of a word of store control space. The page table takes writes of the binding being loaded, for its own pages, and keeps
RESIDENT set on a DBUF or EXPORT page (R197, R199, R202); PART_PRIO is written there by binding load, by management through the
dictionary, and reaches the arbiters of the stack as R215 says (R501) (DEDUCED, log entry 133). -/
def State.writeStore (s : State) (stack off : Nat) (v hw : Word) (who : Writer) : State :=
  if off < 0x6000 then
    match s.pageOwner stack off with
    | some p =>
      if who == .binding && s.loadingOf p && kindAllowed (fld v 6 4) off then
        s.modPage stack off (fun g => { g with
          kind := fld v 6 4, resident := v.getLsbD 7 || [1, 2, 4].contains (fld v 6 4), peerRead := v.getLsbD 8, peerWrite := v.getLsbD 9 })
      else s
    | none => s
  else if off < 0x6040 then
    let p := (off - 0x6000) / 8
    if off % 8 = 1 ∧ who = .binding ∧ s.loadingOf p ∧ (prioOf v.toNat).ageLimit ≠ 0 then
      s.modStore (fun st => { st with prioNext := mapSet prioNone st.prioNext (8 * stack + p) (prioOf v.toNat) })
    else s
  else if off = 0x7000 then
    s.modStack stack (fun x => { x with
      ceSeen := w1c x.ceSeen v hw 3, ueSeen := w1c x.ueSeen v hw 4, poisonSeen := w1c x.poisonSeen v hw 5
      refused := w1c x.refused v hw 6 })
  else if off = 0x8000 then s.modStack stack (fun x => { x with ueFlags := w1c4 x.ueFlags v hw })
  else if off = 0x8001 then
    s.modStack stack (fun x => { x with
      residueSeen := w1c x.residueSeen v hw 1, uePoisonSeen := w1c x.uePoisonSeen v hw 2
      untouchedSeen := w1c x.untouchedSeen v hw 3, excessSeen := w1c x.excessSeen v hw 4 })
  else s

/-! Port control space (Table 10.9). -/

/-- PORT_STATUS. -/
def State.portStatus (s : State) (n : Nat) : Nat :=
  let x := s.port n
  x.state + 8 * portDir n + 64 * b2n (portCross n) + 128 * b2n x.runMatch + 256 * b2n (s.torusTime.parent == some n)
    + 512 * b2n x.los + 1024 * b2n x.newEpochSeen + 2048 * b2n x.authSeen + 4096 * b2n x.retrainSeen + 2 ^ 13 * x.refuse
    + 2 ^ 16 * b2n x.peerCommitValid

/-- PARTNER_COORD. -/
def Port.coordWord (x : Port) : Nat :=
  match x.partner with
  | some h => h.x % 4 + 4 * (h.y % 128) + 512 * (h.z % 128) + 2 ^ 16
  | none => 0

/-- PORT_SUB. -/
def Port.subWord (x : Port) : Nat :=
  match x.sub with
  | some m => m + 256
  | none => 0

def State.portWord (s : State) (n off : Nat) : Nat :=
  let x := s.port n
  if off = 0 then s.portStatus n
  else if off = 1 then x.lanesWord
  else if off = 2 then x.fibreNs
  else if off = 3 then x.replays
  else if off = 4 then x.cwUncorr
  else if off = 5 then x.authFail
  else if off = 8 then x.localEpoch.toNat % 2 ^ 32
  else if off = 9 then x.localEpochHi
  else if off = 0xA then x.partnerEpoch.toNat % 2 ^ 32
  else if off = 0xB then x.partnerEpochHi
  else if off = 0xC then x.peerCommitted.toNat % 2 ^ 32
  else if off = 0xD then x.peerCommittedHi
  else if off = 0xE then x.coordWord
  else if off = 0x10 then x.subWord
  else if 0x400 ≤ off ∧ off < 0x800 then (mapGet wordD x.flows (off - 0x400)).toNat % 2 ^ 13
  else 0

def State.readPort (s : State) (n off : Nat) : State :=
  s.modPort n (fun x =>
    match off with
    | 3 => { x with replays := 0 }
    | 4 => { x with cwUncorr := 0 }
    | 5 => { x with authFail := 0 }
    | 8 => { x with localEpochHi := x.localEpoch.toNat / 2 ^ 32 }
    | 0xA => { x with partnerEpochHi := x.partnerEpoch.toNat / 2 ^ 32 }
    | 0xC => { x with peerCommittedHi := x.peerCommitted.toNat / 2 ^ 32 }
    | _ => x)

/-- A write of a word of port control space: binding load writes FLOW entries of its partition's ports; every write of a core
is refused there, and the W1C bits are cleared through 0x3803.02 (R327). -/
def State.writePort (s : State) (n off : Nat) (v : Word) (who : Writer) : State :=
  match who, s.portOwner n with
  | .binding, some p =>
    if 0x400 ≤ off ∧ off < 0x800 ∧ s.loadingOf p then s.modPort n (fun x => { x with flows := mapSet wordD x.flows (off - 0x400) (v &&& 0x1FFF#32) })
    else s
  | _, _ => s

/-! Words of a context's block and of the host queues. -/

/-- CTX_STATUS (R216). -/
def Ctx.status (x : Ctx) : Nat :=
  x.state + 8 * x.cur + 512 * x.haltCause + 2 ^ 13 * x.pendStart + 2 ^ 17 * x.pendChain + 2 ^ 21 * x.pendSync + 2 ^ 25 * x.outstanding

/-- Words 0 to 15 of a context's block, which the stream engine keeps up to date (Table 7.9, R11, R12). -/
def State.ctxWord (s : State) (c k w : Nat) : Nat :=
  let x := s.ctx c k
  match w with
  | 0 => x.ctrl.toNat % 2 ^ 11
  | 1 => x.status
  | 2 => x.prio
  | 3 => x.seed.toNat
  | 4 => (s.gen c k).toNat
  | 5 => x.bytes.toNat % 2 ^ 32
  | 6 => x.bytesHi
  | 7 => x.poison
  | _ => 0

/-- A register of a host queue as the host reads it: the WO pointers read as 0 (Table 11.2, R11). -/
def HostQ.word (x : HostQ) (off : Nat) : Nat :=
  match off with
  | 0x00 => x.sqBase.toNat % 2 ^ 32
  | 0x04 => x.sqBase.toNat / 2 ^ 32
  | 0x08 => x.cqBase.toNat % 2 ^ 32
  | 0x0C => x.cqBase.toNat / 2 ^ 32
  | 0x10 => x.sqLog2 + 16 * x.cqLog2 + 256 * b2n x.en + 512 * b2n x.irqEn
  | 0x1C => x.sqHead + 2 ^ 12 * b2n x.job.isSome + 2 ^ 13 * b2n x.qerr + 2 ^ 14 * x.cause
  | _ => 0

/-- A dword of BAR0 as the host reads it: the two queues of partition p at 0x1000 p and 0x1000 p + 0x100; other offsets are reserved or
the MSI-X structures, of which the host writes what it reads (R12, R330) (DEDUCED, log entry 166). -/
def State.barWord (s : State) (off : Nat) : Nat :=
  if off < 0x8000 ∧ off % 0x1000 < 0x200 then
    (s.hostQ (2 * (off / 0x1000) + off % 0x1000 / 0x100)).word (off % 0x100)
  else 0

/-! LO halves and counters. -/

/-- LO_REGISTER_READ: a read of a LO half latches the HI half, which a later read of HI returns (R104). -/
def loReadEffect (r : LoReg) (hi : Bool) (s : State) : State :=
  let i := b2n hi
  match r with
  | .partCycle c => let s1 := s.emit (.value (s.clusterWord c (0x1008 + i))); if hi then s1 else s1.readCluster c 0x1008
  | .ctxBytes c k =>
    if hi then s.emit (.value (s.ctxWord c k 6))
    else (s.emit (.value (s.ctxWord c k 5))).modCtx c k (fun y => { y with bytesHi := y.bytes.toNat / 2 ^ 32 })
  | .committed st p => (s.emit (.value ((s.uep st p).reg (1 + i)))).readStore st (0x8101 + 16 * p + i)
  | .applied st p => (s.emit (.value ((s.uep st p).reg (3 + i)))).readStore st (0x8103 + 16 * p + i)
  | .localEpoch n => (s.emit (.value (s.portWord n (8 + i)))).readPort n (8 + i)
  | .partnerEpoch n => (s.emit (.value (s.portWord n (0xA + i)))).readPort n (0xA + i)
  | .peerCommitted n => (s.emit (.value (s.portWord n (0xC + i)))).readPort n (0xC + i)

/-- Guards of an element of each kind. -/
def onStack (stack : Nat) (t : State) : Answer := onNumber "stack" 24 stack t

def execLoRegisterRead (r : LoReg) (hi : Bool) (s : State) : Answer :=
  match r with
  | .partCycle c => onCluster c (loReadEffect r hi s)
  | .ctxBytes c k => onContext c k (loReadEffect r hi s)
  | .committed st p | .applied st p => onStackPart st p (loReadEffect r hi s)
  | .localEpoch n | .partnerEpoch n | .peerCommitted n => onPort n (loReadEffect r hi s)

/-- The value of an RC counter. -/
def State.rcValue (s : State) (r : RcReg) : Nat :=
  match r with
  | .resEvents c => s.clusterWord c 0x1021
  | .memCe c => s.clusterWord c 1
  | .memUe c => s.clusterWord c 2
  | .ctxPoison c k => s.ctxWord c k 7
  | .linkEvents slot d => mapGet (natD 0) s.fabric.linkEvents (slot * 4 + d)
  | .stackCe k => s.storeRegWord k 0x7001
  | .stackUe k => s.storeRegWord k 0x7002
  | .ueEvents k => s.storeRegWord k 0x8002
  | .untouched k p => (s.uep k p).untouched
  | .portReplays n => (s.port n).replays
  | .portCwUncorr n => (s.port n).cwUncorr
  | .portAuthFail n => (s.port n).authFail

/-- Leave an RC counter at a count. -/
def State.setRc (s : State) (r : RcReg) (n : Nat) : State :=
  match r with
  | .resEvents c => s.modCluster c (fun x => { x with res := { x.res with events := n } })
  | .memCe c => s.modCluster c (fun x => { x with mem := { x.mem with ceEvents := n } })
  | .memUe c => s.modCluster c (fun x => { x with mem := { x.mem with ueEvents := n } })
  | .ctxPoison c k => s.modCtx c k (fun x => { x with poison := n })
  | .linkEvents slot d => s.modFabric (fun f => { f with linkEvents := mapSet (natD 0) f.linkEvents (slot * 4 + d) n })
  | .stackCe k => s.modStack k (fun x => { x with ceEvents := n })
  | .stackUe k => s.modStack k (fun x => { x with ueEvents := n })
  | .ueEvents k => s.modStack k (fun x => { x with ueEvents2 := n })
  | .untouched k p => s.modUep k p (fun x => { x with untouched := n })
  | .portReplays m => s.modPort m (fun x => { x with replays := n })
  | .portCwUncorr m => s.modPort m (fun x => { x with cwUncorr := n })
  | .portAuthFail m => s.modPort m (fun x => { x with authFail := n })

/-- RC_COUNTER_READ: the count without an event of the same cycle, which leaves the counter at 1 (R11, R105). -/
def rcReadEffect (r : RcReg) (event : Bool) (s : State) : State := (s.emit (.value (s.rcValue r))).setRc r (b2n event)

/-- The accesses a cluster has issued are performed before one of its counters is read. -/
def State.settleFor (s : State) (r : RcReg) : State :=
  match r with
  | .resEvents c | .memCe c | .memUe c => s.settle c
  | _ => s

def execRcCounterRead (r : RcReg) (sameCycleEvent : Bool) (s : State) : Answer :=
  let t := rcReadEffect r sameCycleEvent (s.settleFor r)
  match r with
  | .resEvents c | .memCe c | .memUe c => onCluster c t
  | .ctxPoison c k => onContext c k t
  | .linkEvents slot d => if d < 4 then onNumber "cluster slot" 4224 slot t else .fault (.noSuchElement "mesh side" d)
  | .stackCe k | .stackUe k | .ueEvents k => onStack k t
  | .untouched k p => onStackPart k p t
  | .portReplays n | .portCwUncorr n | .portAuthFail n => onPort n t

/-! Writes. -/

/-- The base registers of a host queue: writable while EN is 0, 4 KiB aligned (R331) (DEDUCED, log entry 100). -/
def HostQ.setBase (x : HostQ) (cq hi : Bool) (v : Word) : HostQ :=
  let put (old : BitVec 64) : BitVec 64 :=
    if hi then (v ++ old.setWidth 32) else (old.extractLsb' 32 32 ++ (v &&& 0xFFFFF000#32))
  if x.en then x else if cq then { x with cqBase := put x.cqBase } else { x with sqBase := put x.sqBase }

/-- The register a REGISTER_WRITE names, written: RO registers and reserved words take no write (R11, R12) (DEDUCED, log entry 141). -/
def registerWriteEffect (r : GenReg) (v hw : Word) (who : Writer) (s : State) : State :=
  match r with
  | .mxFlags c => (s.settle c).writeCluster c 0x1010 v hw who
  | .vxFlags c => (s.settle c).writeCluster c 0x1011 v hw who
  | .qzFlags c => (s.settle c).writeCluster c 0x1012 v hw who
  | .rdFlags c => (s.settle c).writeCluster c 0x1013 v hw who
  | .sxFlags c => (s.settle c).writeCluster c 0x1014 v hw who
  | .seqStatus c => (s.settle c).writeCluster c 0x1001 v hw who
  | .resStatus c => (s.settle c).writeCluster c 0x1020 v hw who
  | .memStatus c => (s.settle c).writeCluster c 0 v hw who
  | .clusterWord c off => (s.settle c).writeCluster c off v hw who
  | .stackStatus k => s.writeStore k 0x7000 v hw who
  | .ueFlags k => s.writeStore k 0x8000 v hw who
  | .ueStatus k => s.writeStore k 0x8001 v hw who
  | .storeWord k off => s.writeStore k off v hw who
  | .portReg n off => s.writePort n off v who
  | .hqSqBaseLo q => s.modHostQ q (fun x => x.setBase false false v)
  | .hqSqBaseHi q => s.modHostQ q (fun x => x.setBase false true v)
  | .hqCqBaseLo q => s.modHostQ q (fun x => x.setBase true false v)
  | .hqCqBaseHi q => s.modHostQ q (fun x => x.setBase true true v)
  | .hqStatus q => s.modHostQ q (fun x => { x with qerr := w1c x.qerr v hw 13 })

/-- Does the module check the lease for writes of a register? The host queue registers are the host's (Table 11.2). -/
def GenReg.managed : GenReg → Bool
  | .hqSqBaseLo _ | .hqSqBaseHi _ | .hqCqBaseLo _ | .hqCqBaseHi _ | .hqStatus _ => false
  | _ => true

/-- Is a register one of W1C flags, which hardware sets whether or not a write reaches it? -/
def GenReg.flags : GenReg → Bool
  | .clusterWord _ off => [0, 0x1001, 0x1010, 0x1011, 0x1012, 0x1013, 0x1014, 0x1020].contains off
  | .storeWord _ off => [0x7000, 0x8000, 0x8001].contains off
  | .portReg _ _ | .hqSqBaseLo _ | .hqSqBaseHi _ | .hqCqBaseLo _ | .hqCqBaseHi _ => false
  | _ => true

/-- The bits hardware sets in the cycle of the write (R13) (DEDUCED, log entry 116). -/
def hwSets (r : GenReg) (hw : Word) (s : State) : State :=
  if GenReg.flags r then registerWriteEffect r 0 hw .binding s else s

def execRegisterWrite (r : GenReg) (v hwSet : Word) (who : Writer) (s : State) : Answer :=
  let t0 := registerWriteEffect r v hwSet who s
  let t := if GenReg.managed r then (hwSets r hwSet s).guardedBy who t0 else t0
  match r with
  | .mxFlags c | .vxFlags c | .qzFlags c | .rdFlags c | .sxFlags c | .seqStatus c | .resStatus c | .memStatus c => onCluster c t
  | .clusterWord c _ => onCluster c t
  | .stackStatus k | .ueFlags k | .ueStatus k => onStack k t
  | .storeWord k _ => onStack k t
  | .portReg n _ => onPort n t
  | .hqSqBaseLo q | .hqSqBaseHi q | .hqCqBaseLo q | .hqCqBaseHi q | .hqStatus q => onQueue q t

/-! Control words by space and word address (Table 18.10: 1 store, 2 fabric, 3 cluster, 4 port). A global wafer word address is
cluster * 2^24 + local word (Table 0.2). -/

/-- Where a control word is in space 3: its cluster and offset in the two pages. -/
def ctlPage (a : Nat) : Option (Nat × Nat) :=
  if a / 2 ^ 24 < 4096 ∧ 0xFFE000 ≤ a % 2 ^ 24 then some (a / 2 ^ 24, a % 2 ^ 24 - 0xFFE000) else none

/-- Read one control word (DEDUCED, log entry 132). -/
def State.readControl (s : State) (space a : Nat) : Nat × State :=
  match space with
  | 1 => if a / 2 ^ 16 < 24 then (s.storeRegWord (a / 2 ^ 16) (a % 2 ^ 16), s.readStore (a / 2 ^ 16) (a % 2 ^ 16)) else (0, s)
  | 2 => (s.fabricWord a, s.readFabric a)
  | 3 => (match ctlPage a with
    | some (c, off) => ((s.settle c).clusterWord c off, (s.settle c).readCluster c off)
    | none => (0, s))
  | _ => if a / 0x1000 < 256 then (s.portWord (a / 0x1000) (a % 0x1000), s.readPort (a / 0x1000) (a % 0x1000)) else (0, s)

/-- Write one control word as a core. -/
def State.writeControl (s : State) (space a : Nat) (v : Word) (who : Writer) : State :=
  match space with
  | 1 => if a / 2 ^ 16 < 24 then s.writeStore (a / 2 ^ 16) (a % 2 ^ 16) v 0 who else s
  | 2 => fabricWriteEffect a v who s
  | 3 => (match ctlPage a with
    | some (c, off) => (s.settle c).writeCluster c off v 0 who
    | none => s)
  | _ => if a / 0x1000 < 256 then s.writePort (a / 0x1000) (a % 0x1000) v who else s

end Sys2Proof.Machine
end

