-- ==== Sys2Proof/Machine/Pins.lean ====
section
/-! DEFINITION. Service pins and test access (R509 to R526): pin functions and their switch, the console's input, the TAP's
instructions, die selection and internal scan, test multiplexers. -/

namespace Sys2Proof.Machine

open Sys2Proof

/-! Statuses of Table 17.4. -/

def stOk : Nat := 0x00
def stPending : Nat := 0x01
def stNoEntry : Nat := 0x02
def stReadOnly : Nat := 0x03
def stWriteOnly : Nat := 0x04
def stLength : Nat := 0x05
def stRange : Nat := 0x06
def stState : Nat := 0x07
def stLifecycle : Nat := 0x08
def stRole : Nat := 0x09
def stLease : Nat := 0x0A
def stCommit : Nat := 0x0B
def stVerify : Nat := 0x0C
def stBusy : Nat := 0x0D
def stSegment : Nat := 0x0E
def stTimeout : Nat := 0x0F
def stAborted : Nat := 0x10
def stStale : Nat := 0x11

/-! Pin functions. -/

/-- Does a group list a function code (Table 19.5)? -/
def pinListed (g code : Nat) : Bool := code == 0 || code == 1 || (g == 4 && code == 2)

/-- Status of a write of a code to a group: RANGE, LIFECYCLE or OK (R512). -/
def State.pinStatus (s : State) (g code : Nat) : Nat :=
  if !pinListed g code then stRange else if g = 4 ∧ code = 1 ∧ !s.testState then stLifecycle else stOk

/-- Does the boundary register drive the pins (R523)? -/
def State.boundaryDrives (s : State) : Bool := [0x00, 0x03, 0x04, 0x05, 0x06].contains s.pins.instr

/-- Execute a write of a group that is not switching: at once when the code is in force or the boundary register drives the
pins, else the switch begins (R513, R523). Pins of a group that is OFF stay at high impedance from when they entered it.
(DEDUCED, log entry 134.) -/
def State.pinBegin (s : State) (g : Nat) (w : PinWrite) : State :=
  let x := s.pinGroup g
  if x.fn = w.code then s.answerLater w.reply stOk
  else if s.boundaryDrives then (s.modPinGroup g (fun y => { y with fn := w.code })).answerLater w.reply stOk
  else
    s.modPinGroup g (fun y => { y with
      hiz := if y.fn = 0 then y.hiz else s.localNs, upto := some { w with at_ := s.localNs } })

/-- Waiting writes execute one at a time (R515). -/
def State.pinNext (fuel : Nat) (g : Nat) (s : State) : State :=
  match fuel with
  | 0 => s
  | k + 1 =>
    let x := s.pinGroup g
    match x.upto, x.waiting with
    | none, w :: rest => State.pinNext k g ((s.modPinGroup g (fun y => { y with waiting := rest })).pinBegin g w)
    | _, _ => s

/-- A write of a pin function that has passed its checks. -/
def State.pinWrite (s : State) (g code : Nat) (reply : Option (Nat × Nat × Nat × Nat)) : State :=
  let s1 := s.modPinGroup g (fun y => { y with waiting := y.waiting ++ [⟨code, s.localNs, reply⟩] })
  s1.pinNext (s1.pinGroup g).waiting.length g

/-- Guard of a command that names a pin group, numbered from 1. -/
def onPinGroup (g : Nat) (t : State) : Answer := if 1 ≤ g ∧ g ≤ 5 then .next t else .fault (.noSuchElement "pin group" g)

/-- PIN_FUNCTION_WRITE (R512, R513). -/
def execPinFunctionWrite (grp code : Nat) (who : MCore) (s : State) : Answer :=
  onPinGroup grp (if s.pinStatus grp code = stOk then s.guarded who (s.pinWrite grp code none) else s)

/-- PIN_SWITCH_COMPLETE: after at least 1 us at high impedance the new function takes the pins and the write is answered
(R513) (DEDUCED, log entry 134). -/
def pinCompleteEffect (g : Nat) (s : State) : State :=
  match (s.pinGroup g).upto with
  | none => s
  | some w =>
    let s1 := s.atNs ((s.pinGroup g).hiz + 1000)
    let s2 := (s1.modPinGroup g (fun y => { y with fn := w.code, upto := none })).answerLater w.reply stOk
    s2.pinNext (s2.pinGroup g).waiting.length g

def execPinSwitchComplete (grp : Nat) (s : State) : Answer := onPinGroup grp (pinCompleteEffect grp s)

/-- PIN_SWITCH_TIMEOUT: a transaction that has not ended 100 ms after the write keeps its function (R514). STATUS and PART_RUN
have no transaction. -/
def pinTimeoutEffect (g : Nat) (s : State) : State :=
  let x := s.pinGroup g
  match x.upto with
  | none => s
  | some w =>
    if x.fn = 0 ∨ g = 3 ∨ x.fn = 2 then s
    else
      let s1 := s.atNs (w.at_ + 100000000)
      let s2 := (s1.modPinGroup g (fun y => { y with upto := none })).answerLater w.reply stState
      s2.pinNext (s2.pinGroup g).waiting.length g

def execPinSwitchTimeout (grp : Nat) (s : State) : Answer := onPinGroup grp (pinTimeoutEffect grp s)

/-- UART_INPUT: read in MANUFACTURE and DEBUG, discarded in every other state (R517). -/
def execUartInput (ch : Byte) (s : State) : Answer :=
  .next (if s.testState ∧ (s.pinGroup 1).fn = 1 then { s with pins := { s.pins with uartIn := s.pins.uartIn ++ [ch] } } else s)

/-- Levels of the STATUS outputs GPIO0 to GPIO3 (R516), where group 3 carries them (DEDUCED, log entry 137). -/
def State.gpio (s : State) (i : Nat) : Bool :=
  match i with
  | 0 => s.boot.moduleState == 1
  | 1 => s.boot.moduleState == 2
  | 2 => s.lease.holder == 1 || s.lease.holder == 2
  | _ => s.fabric.stretch != 0

/-- Level of TMUXp as a PART_RUN output (R516) (DEDUCED, log entry 137). -/
def State.partRun (s : State) (p : Nat) : Bool := (s.bind p).state == 3

/-! The TAP (R519 to R524). -/

def State.modPins (s : State) (f : Pins → Pins) : State := { s with pins := f s.pins }

/-- What the zeroing after a scan clears: bit 0 the near banks, quire and stream-context memory, bit 1 the far banks, bits 2 to
25 the stacks' pages, bits 26 to 89 the buffers of the engines' ports (R524, Tables 4.5 and 13.6) (DEDUCED, log entry 135). -/
def State.zeroScanned (s : State) (dies : BitVec 96) : State :=
  let near := dies.getLsbD 0
  let far := dies.getLsbD 1
  let bank (w : Nat) : Bool := if isNear w then near else far
  let s1 := if near || far then
      let u := { s with
        cmem := mapClear s.cmem (fun a => bank (a / 8 % 2 ^ 24))
        qmem := if near then [] else s.qmem
        clusters := mapAll clusterD s.clusters (fun _ x => { x with
          circ := mapAll circD x.circ (fun _ r => { r with head := 0, tail := 0 }), flip := { x.flip with arm := false } }) }
      { u with boot := { u.boot with memZeroing := true, memZeroUntil := u.clock.fab + 4096 } }
    else s
  let s2 := { s1 with smem := mapClear s1.smem (fun a => dies.getLsbD (2 + a / 16 / 2 ^ 18 / 24704)) }
  { s2 with ports := mapAll portD s2.ports (fun n x =>
      if dies.getLsbD (26 + n / 4) then { x with sendQ := [], replay := [], held := [] } else x) }

/-- INT_SCAN ends (DEDUCED, log entry 135). -/
def State.endScan (s : State) : State :=
  if s.pins.instr = 0x11 then (s.zeroScanned s.pins.scanned).modPins (fun x => { x with scanned := 0 }) else s

/-- An instruction takes effect: an internal scan it follows has ended. -/
def State.tapLoad (s : State) (code : Nat) (gated : Bool) : State := (s.endScan).modPins (fun x => { x with instr := code, gated := gated })

/-- What Capture-IR loads: bit 2 tells that the last instruction loaded was gated (R519). -/
def Pins.captureIr (x : Pins) : BitVec 8 := if x.gated then 5 else 1

/-- A code that R520 gates loads BYPASS and is reported. -/
def State.tap (s : State) (code : Nat) (effect : State → State) : State :=
  if s.testState then effect (s.tapLoad code false) else s.tapLoad 0xFF true

/-- Driving the host lanes takes down the PCIe link (R334, R523). -/
def State.drive (s : State) : State := if s.host.rate = 0 then s else s.hostLinkOff

def setBoundary (v : BitVec 125) (s : State) : State := s.modPins (fun x => { x with boundary := v })

/-- TAP_RESET: Test-Logic-Reset or TRST_N loads IDCODE (R519). -/
def execTapReset (s : State) : Answer := .next (s.tapLoad 0x02 false)

/-- EXTEST (R522, R523). -/
def execExtest (value : BitVec 125) (s : State) : Answer := .next (s.tap 0x00 (fun t => (setBoundary value t).drive))

/-- SAMPLE_PRELOAD: the boundary register is loaded without driving a pin. -/
def execSamplePreload (value : BitVec 125) (s : State) : Answer := .next (s.tap 0x01 (setBoundary value))

/-- IDCODE: the identification register (R519). -/
def execIdcode (s : State) : Answer := .next ((s.tapLoad 0x02 false).emit (.value 0x15734C59))

/-- CLAMP: the boundary register drives the pins while BYPASS is scanned. -/
def execClamp (s : State) : Answer := .next (s.tap 0x03 State.drive)

/-- HIGHZ. -/
def execHighz (s : State) : Answer := .next (s.tap 0x04 State.drive)

/-- EXTEST_PULSE (R522). -/
def execExtestPulse (value : BitVec 125) (s : State) : Answer := .next (s.tap 0x05 (fun t => (setBoundary value t).drive))

/-- EXTEST_TRAIN (R522). -/
def execExtestTrain (value : BitVec 125) (s : State) : Answer := .next (s.tap 0x06 (fun t => (setBoundary value t).drive))

/-- DIE_LINK: the die selection; bits 90 to 95 are reserved (R524). -/
def execDieLink (value : BitVec 96) (s : State) : Answer :=
  .next (s.tap 0x10 (fun t => t.modPins (fun x => { x with dieLink := value &&& (BitVec.allOnes 90).setWidth 96 })))

/-- INT_SCAN: gated while any partition is RUNNING or REBINDING (R524). -/
def execIntScan (s : State) : Answer :=
  .next (if (List.range 8).any (fun p => (s.bind p).state == 3 || (s.bind p).state == 5) then s.tapLoad 0xFF true
    else s.tap 0x11 (fun t => t.modPins (fun x => { x with scanned := x.scanned ||| x.dieLink })))

/-- INT_SCAN_END: the scan ends, with BYPASS the instruction after it (R524) (DEDUCED, log entry 135). -/
def execIntScanEnd (s : State) : Answer := .next (if s.pins.instr = 0x11 then s.tapLoad 0xFF false else s)

/-- Is a code one of Table 19.6? -/
def tapListed (code : Nat) : Bool := [0, 1, 2, 3, 4, 5, 6, 0x10, 0x11, 0xFF].contains code

/-- BYPASS: code 0xFF, an unlisted code, or a code gated in the present state, which is reported (R519, R520). A listed code
that is not gated has its own command. -/
def bypassEffect (code : Nat) (s : State) : State :=
  if code = 0xFF then s.tapLoad 0xFF false
  else if code = 0x02 then s
  else if !s.testState then s.tapLoad 0xFF true
  else if tapListed code then s
  else s.tapLoad 0xFF false

def execBypass (code : BitVec 8) (s : State) : Answer := .next (bypassEffect code.toNat s)

/-! Test multiplexers (R525). -/

/-- Is a TMUX_SEL code one of Table 19.8? -/
def State.tmuxOk (s : State) (v : Nat) : Bool :=
  let i := v % 4096
  match v / 4096 with
  | 0 => i == 0
  | 1 => decide (i ≤ 3)
  | 2 | 7 => decide (i ≤ 255)
  | 3 => decide (i ≤ 1)
  | 4 | 5 => true
  | 6 => decide (i ≤ 23)
  | 8 => decide (i < domainCount s.power.mode)
  | _ => false

/-- Status of a TMUX_SEL write: LIFECYCLE outside MANUFACTURE and DEBUG, RANGE for a code not listed (R504, R525).
(DEDUCED, log entry 137.) -/
def State.tmuxStatus (s : State) (v : Nat) : Nat := if !s.testState then stLifecycle else if s.tmuxOk v then stOk else stRange

/-- Level of TMUXn while group 4 is code 1, for the codes of Table 19.8 that are levels of the state: off, the fast clamp, a
sequencer in WAIT or HOLD (R525) (DEDUCED, log entry 137). -/
def State.tmuxLevel (s : State) (n : Nat) : Option Bool :=
  let v := s.setting 0x7001 (n + 1)
  if (s.pinGroup 4).fn ≠ 1 then none
  else match v / 4096 with
    | 0 => some false
    | 1 => if v % 4096 = 2 then some (decide (s.localNs < s.power.clampUntil)) else none
    | 4 => some ((s.cluster (v % 4096)).seq.state == .wait || (s.cluster (v % 4096)).seq.state == .hold)
    | _ => none

/-- TMUX_SEL_WRITE (R525). -/
def execTmuxSelWrite (t v : Nat) (who : MCore) (s : State) : Answer :=
  onNumber "test multiplexer" 8 t (if s.tmuxStatus v = stOk then s.guarded who (s.setSetting 0x7001 (t + 1) v) else s)

end Sys2Proof.Machine
end

