-- ==== Sys2Proof/Machine/DictRead.lean ====
section
/-! DEFINITION. Reads of the object dictionary (R473, R487, R495 to R498, R504): the value of every entry, and what a read
latches or clears. -/

namespace Sys2Proof.Machine

open Sys2Proof

/-! Numbers. -/

/-- A reading held in thousandths, as binary32. -/
def milliF32 (v : Nat) : Nat := (fdiv (fnat v) (fnat 1000)).1.toNat

/-- CLK_STATUS (Table 15.4). -/
def State.clkStatus (s : State) : Nat :=
  let c := s.clk
  let locked := (List.range 24).all (fun k => !(s.inService k) || s.sourceReady (.update k) .pll)
  b2n c.oscReady + 2 * b2n c.xtalReady + 4 * b2n c.xtalFail + 8 * b2n c.xtalLost + 16 * b2n c.mgmtOnXtal + 32 * b2n c.fabLock
    + 64 * b2n c.fabOnSafe + 128 * c.opInForce + 512 * b2n c.relockBusy + 1024 * b2n c.fabLockFail + 2048 * b2n locked
    + 4096 * b2n c.switchRefused

/-- W_STATE of a partition: W4 is the module's (Table 14.7). -/
def State.wState (s : State) (p : Nat) : Nat := if s.boot.moduleState = 3 then 4 else (s.wakeOf p).w

/-- Least of a number over the stacks in service that hold pages of p (R501). -/
def State.leastOf (s : State) (p : Nat) (f : Uep → BitVec 64) : Nat :=
  let xs := ((List.range 24).filter (fun k => s.ownsPages k p && s.inService k)).map (fun k => (f (s.uep k p)).toNat)
  xs.foldl min (xs.headD 0)

/-- Is a threshold or window less strict than its default (R349)? -/
def State.boundVoid (s : State) : Bool :=
  (List.range 15).any (fun i => decide (settingD (0x4401 * 256 + i + 1) < s.setting 0x4401 (i + 1))
    || decide (s.setting 0x4402 (i + 1) < settingD (0x4402 * 256 + i + 1)))

/-- Retirement records in force, in increasing INSTANCE (R528). -/
def State.recsInForce (s : State) : List RetRec :=
  (s.faults.recs.filter RetRec.committed).foldl (fun acc r =>
    let low := acc.filter (fun q => decide (q.inst < r.inst))
    low ++ [r] ++ acc.filter (fun q => !(decide (q.inst < r.inst)))) []

/-! Counters (R493). -/

def Counter.flagBits (c : Counter) : Nat := b2n c.ovf + 2 * b2n c.lost

/-- Indices of the scalar counters with their highest subindex. -/
def scalarCounters : List (Nat × Nat) :=
  [(0x5010, 15), (0x5011, 6)] ++ (List.range 8).map (fun p => (0x5200 + p, 7)) ++ (List.range 8).map (fun p => (0x5300 + p, 10))
    ++ (List.range 8).map (fun p => (0x5310 + p, 10))

/-- Elements of an array entry, 0 for other indices. -/
def arrayElements (index : Nat) : Nat :=
  if index = 0x5100 ∨ index = 0x5101 then 4224 else if index = 0x5110 then 24 else if index = 0x5120 then 256 else 0

/-- Is a scalar entry a counter of its own (0x5310 + p .0B and .0C are none)? -/
def isCounter (index sub : Nat) : Bool := scalarCounters.any (fun c => c.1 == index && decide (1 ≤ sub) && decide (sub ≤ c.2))

/-- The counter a flag entry belongs to: I.s for (I + 0x0400).s. -/
def flagEntry (index sub : Nat) : Bool := decide (0x400 ≤ index) && isCounter (index - 0x400) sub

/-- Value of a scalar counter. -/
def State.counterValue (s : State) (index sub : Nat) : Nat :=
  if 0x5310 ≤ index then ((s.idle (index - 0x5310)).snap.get sub).toNat
  else if 0x5300 ≤ index then ((s.idle (index - 0x5300)).live.get sub).toNat
  else (s.counter (counterKey index sub 0)).value.toNat

/-- Its flags. -/
def State.counterFlags (s : State) (index sub : Nat) : Nat :=
  if 0x5310 ≤ index then b2n ((s.idle (index - 0x5310)).snapOvf.contains sub)
  else if 0x5300 ≤ index then b2n ((s.idle (index - 0x5300)).ovf.contains sub)
  else (s.counter (counterKey index sub 0)).flagBits

/-- A counter record (Table 18.3). -/
def counterRecord (index sub flags v : Nat) : List Byte :=
  leBytes 2 index ++ leBytes 1 sub ++ leBytes 1 flags ++ leBytes 4 0 ++ leBytes 8 v

/-- SNAPSHOT: a record of every scalar counter (R498). -/
def State.snapshot (s : State) : List Byte :=
  scalarCounters.flatMap (fun c => (List.range c.2).flatMap (fun i =>
    counterRecord c.1 (i + 1) (s.counterFlags c.1 (i + 1)) (s.counterValue c.1 (i + 1))))

/-- An array entry: a record of every element. -/
def State.arrayBytes (s : State) (index sub : Nat) : List Byte :=
  (List.range (arrayElements index)).flatMap (fun n =>
    let c := s.counter (counterKey index sub n)
    counterRecord n 0 c.flagBits c.value.toNat)

/-- Is a flag set on any counter of the area? -/
def State.anyFlag (s : State) (ovf : Bool) : Bool :=
  s.counters.any (fun kv => if ovf then kv.2.ovf else kv.2.lost)
    || (ovf && s.idles.any (fun kv => !kv.2.ovf.isEmpty || !kv.2.snapOvf.isEmpty))

/-! Scalar entries. -/

def State.numIdentity (s : State) (index sub : Nat) : Nat :=
  match index, sub with
  | 0x1100, 4 => s.maunvo.sessions.length
  | 0x1100, 6 => s.maunvo.refused
  | _, _ => s.setting index sub

def State.numTrust (s : State) (index sub : Nat) : Nat :=
  if index = 0x1800 then
    match sub with
    | 1 => s.trust.lifecycle | 2 => s.trust.debugCount | 3 => s.trust.fwSvn | 4 => s.trust.fwMeasure.toNat
    | 5 => s.trust.sealEpoch | _ => s.trust.cmdFail
  else
    let o := s.owner (index - 0x1810)
    match sub with
    | 1 => o.id.toNat | 2 => o.epoch.toNat | 3 => o.keyState | 4 => o.runId.toNat | 6 => b2n o.busy | 7 => o.measure.toNat
    | _ => o.keyFail

def State.numPower (s : State) (index sub : Nat) : Nat :=
  match index, sub with
  | 0x2000, 2 => s.powerStatus
  | 0x2000, 3 => milliF32 s.power.vin
  | 0x2000, 5 => milliF32 s.power.pf
  | 0x2000, 7 => s.power.sprintUsed
  | 0x2000, 8 => milliF32 s.power.tmax
  | 0x2000, 11 => s.power.overdrive
  | 0x2000, 12 => 20000000000
  | 0x2000, 13 => milliF32 s.power.flow
  | 0x2000, 14 => milliF32 s.power.inlet
  | 0x2000, 15 => milliF32 s.power.outlet
  | 0x2101, n => s.wState (n - 1)
  | 0x2400, 2 => s.clkStatus
  | 0x2400, 3 => s.clk.clkmon.toNat
  | 0x2400, 4 => s.clk.lastN
  | 0x2600, 1 => s.ttNs.toNat
  | 0x2600, 2 => s.torusTime.epoch.toNat
  | 0x2600, 5 => s.torusTime.depth
  | 0x2600, 6 => s.torusTime.ahead / ttUnit
  | 0x2600, 7 => s.torusTime.status
  | 0x2600, 8 => errWord s.torusTime.err
  | 0x2600, 9 => (BitVec.ofInt 16 s.torusTime.utcOffset).toNat
  | _, _ => s.setting index sub

/-- Value of a numeric entry of the areas Partitions, Store, Torus ports, and Host and server ports (DEDUCED, log entry 131). -/
def State.numResources (s : State) (index sub : Nat) : Nat :=
  if index = 0x3000 then
    match sub with
    | 2 => b2n s.pmapCtl.applying | 3 => s.pmapMeasure.toNat | _ => s.pmapCtl.refuse
  else if 0x3010 ≤ index ∧ index ≤ 0x3017 then (s.bandsOf (index - 0x3010)).foldl (fun acc b => acc + 2 ^ b) 0
  else if index = 0x3400 then (List.range 24).foldl (fun acc k => acc + if s.inService k then 2 ^ k else 0) 0
  else if 0x3410 ≤ index ∧ index ≤ 0x3417 then
    let p := index - 0x3410
    match sub with
    | 1 => let v := s.setting index 1; if v = 0 then Prio.reset.word else v
    | 2 => s.leastOf p Uep.committed | 3 => s.leastOf p Uep.applied | _ => s.leastOf p Uep.skipped
  else if index = 0x3800 ∧ sub = 4 then s.boot.slot
  else if index = 0x3C00 then s.host.rate + 8 * s.host.width + 256 * b2n s.host.flit
  else if (index = 0x3C01 ∨ index = 0x3C02) ∧ sub = 5 then if (s.srvPort (index - 0x3C01)).up then 7 else 0
  else if 0x3C10 ≤ index ∧ index ≤ 0x3C17 ∧ sub = 10 then b2n (s.server.stalled.contains (index - 0x3C10))
  else if 0x3C10 ≤ index ∧ index ≤ 0x3C17 ∧ sub = 11 then mapGet (natD 0) s.server.ackedStep (index - 0x3C10)
  else s.setting index sub

def State.numFaults (s : State) (index sub : Nat) : Nat :=
  match index, sub with
  | 0x4000, 1 => s.faults.seq
  | 0x4000, _ => s.faults.logLost
  | 0x4400, 1 => s.recsInForce.length
  | 0x4400, 3 => b2n s.boundVoid
  | 0x4400, 5 => b2n s.spareExhausted
  | _, _ => s.setting index sub

def State.numCounters (s : State) (index sub : Nat) : Nat :=
  if index = 0x5000 then b2n (s.anyFlag (sub == 2))
  else if index = 0x5320 then s.setting index sub
  else if flagEntry index sub then s.counterFlags (index - 0x400) sub
  else if 0x5310 ≤ index ∧ index ≤ 0x5317 ∧ sub = 11 then (s.idle (index - 0x5310)).snapTT.toNat
  else if 0x5310 ≤ index ∧ index ≤ 0x5317 ∧ sub = 12 then b2n (s.idle (index - 0x5310)).snapPartial
  else s.counterValue index sub

/-- Value of a numeric entry of the areas Binding control, Test and debug and Service pins. -/
def State.numControl (s : State) (index sub : Nat) : Nat :=
  if index = 0x6000 then
    match sub with
    | 1 => s.boot.moduleState | 2 => s.boot.step | 3 => s.boot.safeCause | 4 => s.faults.boot | 5 => s.lease.epoch.toNat
    | 6 => s.lease.holder | _ => s.lease.refused.toNat
  else if 0x6010 ≤ index ∧ index ≤ 0x6017 then
    let b := s.bind (index - 0x6010)
    match sub with
    | 1 => b.state | 3 => b.block | 6 => b.refuse | 7 => b.stopCause | _ => s.setting index sub
  else if index = 0x7000 ∧ sub = 1 then b2n s.testState
  else if index = 0x7002 then (s.pinGroup sub).fn
  else s.setting index sub

/-- The number an entry of a fixed size holds. -/
def State.entryNum (s : State) (index sub : Nat) : Nat :=
  if sub = 0 then topSub index
  else if index < 0x1800 then s.numIdentity index sub
  else if index < 0x2000 then s.numTrust index sub
  else if index < 0x3000 then s.numPower index sub
  else if index < 0x4000 then s.numResources index sub
  else if index < 0x5000 then s.numFaults index sub
  else if index < 0x6000 then s.numCounters index sub
  else s.numControl index sub

/-! Other entries. -/

/-- The colophon (Table 13.2). -/
def State.colophon (s : State) (sub : Nat) : List Byte :=
  let own (n : Nat) : List Byte := (List.range n).map (Config.colophonByte sub)
  match sub with
  | 1 => ascii "EFB-UZW4-A"
  | 2 => ascii "A1"
  | 3 => own 8
  | 4 => own 2592
  | 5 => beBytes 48 s.trust.identity.toNat
  | 6 => own Config.chainLength
  | _ => own 12

/-- A fault record (Table 12.6). -/
def FaultRec.bytes (r : FaultRec) : List Byte :=
  leBytes 4 r.seq ++ leBytes 2 r.boot ++ leBytes 1 r.cls ++ leBytes 1 r.count ++ leBytes 8 r.ns ++ leBytes 8 r.tt.toNat
    ++ leBytes 4 r.epoch.toNat ++ leBytes 1 r.part ++ leBytes 1 r.cause ++ leBytes 1 r.action ++ leBytes 1 0 ++ leBytes 8 r.element
    ++ leBytes 8 r.step ++ leBytes 4 r.detail.toNat ++ leBytes 12 0

/-- An epoch history record (Table 15.4). -/
def EpochRec.bytes (r : EpochRec) : List Byte :=
  leBytes 4 r.epoch.toNat ++ leBytes 4 0 ++ leBytes 8 r.tt.toNat ++ leBytes 8 r.ref.toNat ++ leBytes 8 r.ahead.toNat

/-- One number of n bytes for each of `count` elements. -/
def arrayOf (count n : Nat) (f : Nat → Nat) : List Byte := (List.range count).flatMap (fun i => leBytes n (f i))

/-- The signed report of Table 13.8 (DESIGN CHOICE, log entry 36). -/
def State.signedReport (s : State) (nonce : BitVec 256) (scope : Nat) : List Byte :=
  let ek := scope != 0xFF && s.issuesEk scope
  let body := s.reportBytes nonce scope ++ (List.range 1568).map (fun i => if ek then Config.encapKey nonce i else 0)
  body ++ (List.range 4627).map (Config.signature body)

/-- Nonce and scope of a request for a report (R471). -/
def reportArg (arg : List Byte) : BitVec 256 × Nat := (BitVec.ofNat 256 (beNat (arg.take 32)), leNat (arg.drop 32))

/-- The SEQ a request for fault records names. -/
def seqArg (arg : List Byte) : Nat := leNat arg

/-- What DBG_READ and DBG_WRITE act on: space, address and length (R504). -/
def State.dbgSpace (s : State) : Nat := s.setting 0x7000 2
def State.dbgAddr (s : State) : Nat := s.setting 0x7000 3
def State.dbgLen (s : State) : Nat := s.setting 0x7000 4

/-- May the access be made: aligned, and a run of populated store addresses in one stack? (DEDUCED, log entry 37). -/
def State.dbgOk (s : State) : Bool :=
  if s.dbgSpace = 0 then s.dbgAddr % 64 == 0 && decide (s.dbgAddr < 2 ^ 48) && saRun s.dbgAddr s.dbgLen else s.dbgAddr % 4 == 0

/-- Physical page and block of a store address, for the management class in MANUFACTURE and DEBUG (DEDUCED, log entry 37). -/
def State.dbgBlock (s : State) (a : Nat) : Nat × Nat × Nat × Nat :=
  let k := saStack a
  let n := match s.pageOwner k (saPage a) with
    | some p => s.viewPage k (saPage a) p (saView a)
    | none => saPage a
  (k, n, s.physPage k n, saBlock a)

/-- Read one 64 B block of the store: a poisoned one as zeros, counted; an uncorrectable one is retried once and then as a
poisoned one (R207, R208, R504) (DEDUCED, log entry 132). -/
def State.dbgReadBlock (s : State) (a : Nat) : List Byte × State :=
  let b := s.dbgBlock a
  let ds := s.storeBlock b.1 b.2.2.1 b.2.2.2
  let s1 := (s.noteBlocks b.1 b.2.1 b.2.2.1 b.2.2.2 1 false).2
  match blockOutcome ds with
  | .clean | .corrected => (bytesOfWords (blockWords ds), s1)
  | .poison => (List.replicate 64 0, s1)
  | .uncorrectable =>
    (List.replicate 64 0, ((s1.noteBlocks b.1 b.2.1 b.2.2.1 b.2.2.2 1 true).2).count (counterKey 0x5011 4 0) 1)

/-- DBG_ADDR is a byte address in every space, aligned to 4 B, so a control word stands at four times its word address (DEDUCED, log entry
37). -/
def State.dbgRead (s : State) : List Byte × State :=
  if s.dbgSpace = 0 then
    let r := (List.range ((s.dbgLen + 63) / 64)).foldl (fun (acc : List Byte × State) i =>
      let x := acc.2.dbgReadBlock (s.dbgAddr + 64 * i)
      (acc.1 ++ x.1, x.2)) ([], s)
    (r.1.take s.dbgLen, r.2)
  else
    (List.range (s.dbgLen / 4)).foldl (fun (acc : List Byte × State) i =>
      let x := acc.2.readControl s.dbgSpace (s.dbgAddr / 4 + i)
      (acc.1 ++ leBytes 4 x.1, x.2)) ([], s)

/-- Bytes of an entry that is not a number. -/
def State.entryBlob (s : State) (index sub : Nat) (arg : List Byte) : List Byte :=
  if index = 0x1000 then s.colophon sub
  else if 0x5000 ≤ index ∧ index < 0x5200 then if index = 0x5000 then s.snapshot else s.arrayBytes index sub
  else
    match index, sub with
    | 0x1800, 6 => s.trust.operatorPk
    | 0x1801, _ => s.signedReport (reportArg arg).1 (reportArg arg).2
    | 0x2001, 1 => arrayOf (domainCount s.power.mode) 2 (fun d => s.pointOf d / 2)
    | 0x2001, 2 => arrayOf (domainCount s.power.mode) 1 (fun d => (s.domain d).margin)
    | 0x2001, _ => arrayOf (domainCount s.power.mode) 1 (fun d => b2n (s.domain d).off + 2 * b2n (s.domain d).defective)
    | 0x2600, _ => s.torusTime.history.flatMap EpochRec.bytes
    | 0x3000, _ => s.pmap.bytes
    | 0x3400, 2 => arrayOf 24 4 s.stackStatus
    | 0x3400, _ => arrayOf 24 1 s.sparePages
    | 0x3802, 1 => arrayOf 256 4 s.portStatus
    | 0x3802, 2 => arrayOf 256 4 (fun n => (s.port n).lanesWord)
    | 0x3802, 3 => arrayOf 256 2 (fun n => (s.port n).fibreNs)
    | 0x3802, _ => arrayOf 256 4 (fun n => (s.port n).subWord)
    | 0x4000, _ => (s.faults.log.filter (fun r => decide (seqArg arg ≤ r.seq))).flatMap FaultRec.bytes
    | 0x4400, _ => s.recsInForce.flatMap RetRec.bytes
    | _, _ => s.dbgRead.1

/-- Entries kept as bytes although their size is fixed: the colophon and OPERATOR_PK; a hash is written from its most
significant byte. -/
def hashEntry (index sub : Nat) : Bool :=
  (index == 0x1800 && sub == 4) || (decide (0x1810 ≤ index) && decide (index ≤ 0x1817) && (sub == 1 || sub == 7))
    || (index == 0x3000 && sub == 3)

/-- The bytes a read of an entry returns (R473). -/
def State.entryData (s : State) (index sub : Nat) (e : Entry) (arg : List Byte) : List Byte :=
  match e.ty.size with
  | none => s.entryBlob index sub arg
  | some n =>
    if (index = 0x1000 ∧ sub ≠ 0) ∨ (index = 0x1800 ∧ sub = 6) then s.entryBlob index sub arg
    else if hashEntry index sub then beBytes n (s.entryNum index sub)
    else leBytes n (s.entryNum index sub)

/-! What a read leaves behind. -/

/-- The flag latches of a session, or of the chassis port as session 0 (R495). -/
def State.latch (s : State) (session index sub : Nat) : Option Nat :=
  if session = 0 then mapFind s.maunvo.flags (index * 256 + sub)
  else match mapFind s.maunvo.sessions session with
    | some x => mapFind x.flags (index * 256 + sub)
    | none => none

/-- Latched flags are kept as their bits plus 4, so that an empty latch is not listed. -/
def latchD (_ : Nat) : Nat := 0

def State.setLatch (s : State) (session index sub : Nat) (v : Option Nat) : State :=
  let put (m : SMap Nat) : SMap Nat :=
    match v with
    | some f => mapSet latchD m (index * 256 + sub) (f + 4)
    | none => mapErase m (index * 256 + sub)
  if session = 0 then { s with maunvo := { s.maunvo with flags := put s.maunvo.flags } }
  else match mapFind s.maunvo.sessions session with
    | some x => { s with maunvo := { s.maunvo with sessions := mapSet sessionD s.maunvo.sessions session { x with flags := put x.flags } } }
    | none => s

/-- Effects of a read that has returned its value: a counter's flags go to the latch; a flag entry's latch empties; a report is
issued; ROOT_CONFLICT clears; records returned count as read; control words are read through DBG_READ (R325, R365, R495). -/
def State.afterRead (s : State) (session index sub : Nat) (arg : List Byte) : State :=
  if isCounter index sub then s.setLatch session index sub (some (s.counterFlags index sub))
  else if flagEntry index sub then s.setLatch session (index - 0x400) sub none
  else
    match index, sub with
    | 0x1801, 1 => s.reportIssued (reportArg arg).1 (reportArg arg).2
    | 0x2600, 7 => s.modTime (fun t => { t with rootConflict := t.rootConflict && t.smallerAt.isSome })
    | 0x4000, 3 => { s with faults := { s.faults with unread := s.faults.unread.filter (fun n => decide (n < seqArg arg)) } }
    | 0x7000, 5 => s.dbgRead.2
    | _, _ => s

/-- Is an entry closed in the present lifecycle state (R504)? -/
def State.closed (s : State) (index sub : Nat) : Bool :=
  !s.testState && ((index == 0x7000 && decide (2 ≤ sub)) || index == 0x7001)

/-- Status of a read (R476): lifecycle, entry, access, the request argument, then its state (DEDUCED, log entry 128). -/
def State.readStatus (s : State) (index sub : Nat) (arg : List Byte) : Nat :=
  if s.closed index sub then stLifecycle
  else
    match findEntry index sub with
    | none => stNoEntry
    | some e =>
      if e.acc = .wo then stWriteOnly
      else if index = 0x1801 ∧ sub = 1 then
        if arg.length ≠ 33 then stLength
        else
          let scope := (reportArg arg).2
          if scope ≠ 0xFF ∧ 8 ≤ scope then stRange else if s.reportAllowed scope then stOk else stLifecycle
      else if index = 0x4000 ∧ sub = 3 then if arg.length = 4 then stOk else stLength
      else if index = 0x7000 ∧ sub = 5 then if s.dbgOk then stOk else stRange
      else stOk

/-- A read of an entry: status, value, and the state it leaves. A flag entry with a latch returns the latch (R495). -/
def State.readEntry (s : State) (session index sub : Nat) (arg : List Byte) : Nat × List Byte × State :=
  let st := s.readStatus index sub arg
  if st ≠ stOk then (st, [], s)
  else
    match findEntry index sub with
    | none => (stNoEntry, [], s)
    | some e =>
      let live := s.entryData index sub e arg
      let data := if flagEntry index sub then
          (match s.latch session (index - 0x400) sub with
            | some v => leBytes 1 (v - 4)
            | none => live)
        else live
      (stOk, data, s.afterRead session index sub arg)

/-! Commands that read. -/

/-- A read of any entry: its bytes, or a refusal that changes nothing (R476, R483). -/
def State.plainRead (s : State) (session index sub : Nat) : State :=
  let r := s.readEntry session index sub []
  if r.1 = stOk then r.2.2.emit (.bytes r.2.1) else r.2.2

/-- COUNTER_READ: value and flags latched in one cycle; the flags stay in the session's latch (R495). An entry that is no counter is read
as any other, and one that is not defined is refused with NO_ENTRY (R483). -/
def counterReadEffect (session index sub : Nat) (s : State) : State :=
  let s1 := s.emit (.bytes (leBytes 8 (s.counterValue index sub)))
  s1.setLatch session index sub (some (s.counterFlags index sub))

def execCounterRead (session index sub : Nat) (s : State) : Answer :=
  .next (if isCounter index sub then counterReadEffect session index sub s else s.plainRead session index sub)

/-- FLAG_ENTRY_READ: the latched flags, which empties the latch, or the live ones (R495). -/
def flagReadEffect (session index sub : Nat) (s : State) : State :=
  let v := match s.latch session (index - 0x400) sub with
    | some f => f - 4
    | none => s.counterFlags (index - 0x400) sub
  (s.emit (.value v)).setLatch session (index - 0x400) sub none

def execFlagEntryRead (session index sub : Nat) (s : State) : Answer :=
  .next (if flagEntry index sub then flagReadEffect session index sub s else s.plainRead session index sub)

/-- SNAPSHOT_READ (R498). -/
def execSnapshotRead (s : State) : Answer := .next (s.emit (.bytes s.snapshot))

/-- DBG_READ (R504). -/
def dbgReadEffect (s : State) : State :=
  if s.testState ∧ s.dbgOk then
    let r := s.dbgRead
    r.2.emit (.bytes r.1)
  else s

def execDbgRead (s : State) : Answer := .next (dbgReadEffect s)

end Sys2Proof.Machine
end

