-- ==== Sys2Proof/Machine/DictWrite.lean ====
section
/-! DEFINITION. Writes of the object dictionary (R476, R485 to R492, R496, R499 to R505): the checks in their order, the stored
record of an RWS entry and its commit (R443), and what each write does. -/

namespace Sys2Proof.Machine

open Sys2Proof

/-! The partition map (R499, R500). -/

/-- Bands of a partition in a map. -/
def Pmap.bands (m : Pmap) (p : Nat) : List Nat := (List.range 8).filter (fun b => m.bandOwner.getD b 255 == p)

def contiguous (l : List Nat) : Bool :=
  match l with
  | [] => true
  | a :: r => r.zipIdx.all (fun bi => bi.1 == a + 1 + bi.2)

def isShare (v : Nat) : Bool := v == 0 || [1, 2, 4, 8, 16, 32, 64, 128, 256].contains v

/-- Do the ranges (first, count) lie within `bound` without overlap? -/
def rangesOk (bound : Nat) (rs : List (Nat × Nat)) : Bool :=
  let used := rs.filter (fun r => r.2 != 0)
  used.all (fun r => decide (r.1 + r.2 ≤ bound)) &&
    used.zipIdx.all (fun ai => used.zipIdx.all (fun bj =>
      ai.2 == bj.2 || decide (ai.1.1 + ai.1.2 ≤ bj.1.1) || decide (bj.1.1 + bj.1.2 ≤ ai.1.1)))

def Pmap.groupRange (m : Pmap) (p : Nat) : Nat × Nat := (m.groupFirst.getD p 0, m.groupCount.getD p 0)
def Pmap.pageRange (m : Pmap) (stack p : Nat) : Nat × Nat := m.pages.getD (8 * stack + p) (0, 0)

/-- Does a partition own nothing but bands? -/
def Pmap.bare (m : Pmap) (p : Nat) : Bool :=
  m.meshShare.getD p 0 == 0 && m.storeShare.getD p 0 == 0 && m.srvShare.getD p 0 == 0 && m.ctxQuota.getD p 0 == 0
    && m.groupCount.getD p 0 == 0 && (List.range 24).all (fun k => (m.pageRange k p).2 == 0)

/-- The link pairs between bands k and k + 1 that the map shares: ignored where one partition owns both bands, or none one of
them. -/
def Pmap.sharedPairs (m : Pmap) (k : Nat) : List Byte :=
  let a := m.bandOwner.getD k 255
  let b := m.bandOwner.getD (k + 1) 255
  if a = b ∨ a = 255 ∨ b = 255 then [] else (m.boundary.drop (8 * k)).take 8

/-- Does anything of partition p differ between two maps? -/
def Pmap.differs (m n : Pmap) (p : Nat) : Bool :=
  m.bands p != n.bands p || m.meshShare.getD p 0 != n.meshShare.getD p 0 || m.storeShare.getD p 0 != n.storeShare.getD p 0
    || m.srvShare.getD p 0 != n.srvShare.getD p 0 || m.ctxQuota.getD p 0 != n.ctxQuota.getD p 0
    || m.groupRange p != n.groupRange p || (List.range 24).any (fun k => m.pageRange k p != n.pageRange k p)
    || (List.range 7).any (fun k => m.sharedPairs k != n.sharedPairs k
        && (m.bands p ++ n.bands p).any (fun b => b == k || b == k + 1))

/-- Is the BIND_STATE of partition p NONE, LOADED or STOPPED? -/
def State.bindQuiet (s : State) (p : Nat) : Bool := [0, 2, 4].contains (s.bind p).state

/-- The first condition of R499 that a map fails, as PMAP_REFUSE, or 0. -/
def State.pmapRefuse (s : State) (m : Pmap) : Nat :=
  let sums (l : List Nat) : Bool := decide (l.sum ≤ 256)
  if !m.bandOwner.all (fun o => decide (o < 8) || o == 255) then 1
  else if !(List.range 8).all (fun p => contiguous (m.bands p)) then 2
  else if !(List.range 8).all (fun p => !(m.bands p).isEmpty || m.bare p) then 8
  else if !(m.meshShare ++ m.storeShare ++ m.srvShare).all isShare then 3
  else if !(sums m.meshShare && sums m.storeShare && sums m.srvShare) then 4
  else if !(decide (m.ctxQuota.sum ≤ 63)) then 5
  else if !rangesOk 256 ((List.range 8).map m.groupRange) then 6
  else if !(List.range 24).all (fun k => rangesOk 24576 ((List.range 8).map (m.pageRange k))) then 7
  else if !(List.range 8).all (fun p => !(m.differs s.pmap p) || s.bindQuiet p) then 9
  else 0

/-- Status of a map write: LENGTH or RANGE for the layout, RANGE for the map, STATE for a partition not stopped. -/
def State.pmapStatus (s : State) (image : List Byte) : Nat :=
  if image.length ≠ 1696 then stLength
  else match Pmap.ofBytes image with
    | none => stRange
    | some m => match s.pmapRefuse m with
      | 0 => stOk
      | 9 => stState
      | _ => stRange

/-- PMAP_REFUSE after a write: 1 for a layout that is not Table 18.6a. -/
def State.noteRefuse (s : State) (image : List Byte) : State :=
  let v := match Pmap.ofBytes image with
    | none => 1
    | some m => s.pmapRefuse m
  { s with pmapCtl := { s.pmapCtl with refuse := v } }

/-- Pages of a stack whose owner a new map changes: an upper bound from the ranges that differ. -/
def Pmap.movedPages (m n : Pmap) (stack : Nat) : Nat :=
  (List.range 8).foldl (fun acc p => acc + if m.pageRange stack p = n.pageRange stack p then 0 else (n.pageRange stack p).2) 0

/-- Every resource whose partition changes between the map in force and `m` is zeroed as on a change of owner (R500). -/
def State.zeroMoved (s t : State) : State :=
  let bandMoves (b : Nat) : Bool := s.pmap.bandOwner.getD b 255 != t.pmap.bandOwner.getD b 255
  let pageMoves (k n : Nat) : Bool := s.pageOwner k n != t.pageOwner k n
  let entryMoves (k : Nat) : Bool := s.entryOwner (k / 256 / 5) (k / 256 % 5) (k % 256) != t.entryOwner (k / 256 / 5) (k / 256 % 5) (k % 256)
  let cs := (List.range 4096).filter (fun c => bandMoves (c / 512))
  let ns := (List.range 256).filter (fun n => bandMoves (n / 32))
  let gs := (List.range 256).filter (fun g => s.groupOwner g != t.groupOwner g)
  let s1 := ns.foldl (fun u n => u.dropSession n) s
  let s2 := cs.foldl State.zeroOwned s1
  let s3 := s2.modFabric (fun f => { f with tables := mapClear f.tables entryMoves })
  let s4 := gs.foldl (fun u g => (u.modGroup g (fun _ => Group.reset)).modColl g (fun _ => Coll.reset)) s3
  let s6 := s4.givePages pageMoves (fun k p => s.pmap.pageRange k p != t.pmap.pageRange k p) (fun k => s.pmap.movedPages t.pmap k * 1050)
  ns.foldl (fun u n => u.modPort n (fun x => { x with flows := [], landed := [] })) s6

/-- An accepted map is applied: ownership, zeroing, and NONE for every partition it changes; PMAP_STATE is 1 until the last
zeroing write takes effect (R500) (DEDUCED, log entry 129). -/
def State.applyMap (s : State) (m : Pmap) : State :=
  let changed := (List.range 8).filter (fun p => m.differs s.pmap p)
  let moved := (List.range 24).foldl (fun acc k => max acc (s.pmap.movedPages m k)) 0
  let s1 := { (s.zeroMoved { s with pmap := m }) with pmap := m }
  let s2 := changed.foldl (fun t p => t.modBind p (fun b => { b with state := 0, image := none })) s1
  { s2 with pmapCtl := { applying := true, parts := changed, until_ := s.localNs + max 20000 (moved * 1050), refuse := 0 } }

/-- PMAP_APPLY_COMPLETE (R500) (DEDUCED, log entry 129). -/
def pmapApplyEffect (s : State) : State :=
  if s.pmapCtl.applying then
    let s1 := s.atNs s.pmapCtl.until_
    { s1 with
      pmapCtl := { s1.pmapCtl with applying := false, parts := [] }
      clusters := mapAll clusterD s1.clusters (fun _ x => if x.zeroUntil ≤ s1.clock.fab then { x with zeroBusy := false } else x) }
  else s

def execPmapApplyComplete (s : State) : Answer := .next (pmapApplyEffect s)

/-! Checks. -/

/-- Conditions of an entry on the present state (R377, R432, R502, R512): part of the checks, and looked at again when the
record is committed. -/
def State.stateOk (s : State) (index sub : Nat) : Bool :=
  if 0x1810 ≤ index ∧ index ≤ 0x1817 ∧ sub = 1 then s.partStopped (index - 0x1810)
  else if index = 0x2400 ∧ sub = 1 then s.quiet && s.clk.xtalReady
  else if index = 0x3800 then (List.range 8).all s.bindQuiet
  else true

/-- Does the lifecycle state allow a write of the entry (Table 13.4, R372, R504, R512)? -/
def State.lifecycleOk (s : State) (index sub v : Nat) : Bool :=
  if s.closed index sub then false
  else if index = 0x1800 ∧ sub = 6 then s.trust.lifecycle == 1
  else if 0x1810 ≤ index ∧ index ≤ 0x1817 ∧ sub = 1 then s.computeState
  else if index = 0x4400 ∧ sub = 4 then s.testState
  else if 0x6010 ≤ index ∧ index ≤ 0x6017 ∧ sub = 2 ∧ v = 1 then s.computeState
  else if index = 0x7002 ∧ sub = 4 ∧ v = 1 then s.testState
  else true

/-- Range of a number written to an entry. -/
def State.rangeOk (s : State) (index sub v : Nat) (e : Entry) : Bool :=
  s.inBounds index sub v e &&
    (if 0x3410 ≤ index ∧ index ≤ 0x3417 then decide ((prioOf v).ageLimit ≠ 0)
     else if index = 0x2400 ∧ sub = 3 then
       let w := BitVec.ofNat 32 v
       let src := fld w 3 0
       decide (src ≤ 12) && monIndexOk src (fld w 25 14)
         && (src == 0 || src == 12 || decide (s.monFreq src ≤ 2500 * (fld w 13 4 + 1)))
     else if index = 0x7001 then s.tmuxOk v
     else if index = 0x7002 then pinListed sub v
     else true)

/-- CONTROL: may the code be executed (R457, R461)? -/
def State.controlOk (s : State) (p v : Nat) : Bool :=
  match v with
  | 1 => s.startable p
  | 3 => s.rebindable p
  | 4 | 5 => s.inDoubt p
  | _ => true

/-- State conditions of a write that is not stored. -/
def State.actionOk (s : State) (index sub v : Nat) : Bool :=
  if index = 0x2400 ∧ sub = 3 then
    s.monReady (fld (BitVec.ofNat 32 v) 3 0) (fld (BitVec.ofNat 32 v) 25 14)
  else if index = 0x3803 ∧ sub = 1 then (s.port v).state == 3
  else if index = 0x4400 ∧ sub = 4 then s.allStopped
  else if 0x6010 ≤ index ∧ index ≤ 0x6017 ∧ sub = 2 then s.controlOk (index - 0x6010) v
  else true

/-- Is an entry written as bytes: a DOMAIN, or OPERATOR_PK? -/
def rawEntry (index sub : Nat) (e : Entry) : Bool := e.ty.size == none || (index == 0x1800 && sub == 6)

/-- Layout and length of a write of bytes. -/
def State.blobStatus (s : State) (index sub : Nat) (data : List Byte) : Nat :=
  if index = 0x3000 then s.pmapStatus data
  else if index = 0x1800 ∧ sub = 6 then if data.length = 2592 then stOk else stLength
  else if index = 0x1800 then
    let enter := leNat ((data.drop 5).take 1) == 1
    if data.length = 96 + 4627 + (if enter then 4627 else 0) then stOk else stLength
  else if index = 0x7000 then if data.length ≠ s.dbgLen then stLength else if s.dbgOk then stOk else stRange
  else if data.length = 0x10C0 + 4627 then stOk else stLength

/-- Status of a write up to the lease, in the order of R476. -/
def State.writeStatus (s : State) (index sub : Nat) (data : List Byte) : Nat :=
  let v := entryValue index sub data
  if !(s.lifecycleOk index sub v) then stLifecycle
  else
    match findEntry index sub with
    | none => stNoEntry
    | some e =>
      if e.acc = .ro ∨ e.acc = .const then stReadOnly
      else if rawEntry index sub e then s.blobStatus index sub data
      else if e.ty.size ≠ some data.length then stLength
      else if !(s.rangeOk index sub v e) then stRange
      else if !(s.stateOk index sub) || !(s.actionOk index sub v) then stState
      else stOk

/-! Stored writes. -/

/-- Does an RWS entry hold a value already (R491)? -/
def State.holds (s : State) (index sub v : Nat) : Bool :=
  if 0x1810 ≤ index ∧ index ≤ 0x1817 then (s.owner (index - 0x1810)).id.toNat == v else s.setting index sub == v

/-- What a stored write changes: a new owner takes the next epoch with it (R377). -/
def State.changeOf (s : State) (index sub v : Nat) : SMap Nat :=
  if 0x1810 ≤ index ∧ index ≤ 0x1817 then
    [(index * 256 + 1, v), (index * 256 + 2, ((s.owner (index - 0x1810)).epoch + 1).toNat)]
  else [(index * 256 + sub, v)]

/-- A stored write that has passed its checks: nothing to write where the value is in force, though OP_POINT runs its sequence (R432);
else the record is requested and the answer waits for its commit. Answers the status so far (R491). -/
def State.storedWrite (s : State) (index sub v : Nat) (who : MCore) (reply : Option (Nat × Nat × Nat × Nat)) : Nat × State :=
  if s.holds index sub v then (stOk, if index = 0x2400 ∧ sub = 1 then s.changeOpPoint v else s)
  else (stPending, s.nvRequest 6 (index - 0x1000) (.change (s.changeOf index sub v)) (some who) reply)

/-- A write of PMAP: its status, and the record that brings the map into force (R500) (DEDUCED, log entry 129). -/
def State.pmapWrite (s : State) (image : List Byte) (who : MCore) (reply : Option (Nat × Nat × Nat × Nat)) : Nat × State :=
  match Pmap.ofBytes image with
  | none => (stRange, s)
  | some m =>
    if m = s.pmap then (stOk, s.noteRefuse image)
    else (stPending, (s.noteRefuse image).nvRequest 6 0x2000 (.newMap m) (some who) reply)

/-! Writes that act. -/

/-- CONTROL (Table 16.6). -/
def State.control (s : State) (p v : Nat) : State :=
  match v with
  | 1 => s.askStart p
  | 2 => s.raiseStop p stopHost
  | 3 => s.askRebind p
  | 4 => s.rollForward p
  | 5 => s.rollBack p
  | 6 => s.clearBlocked p
  | _ => s

/-- A lifecycle command as its bytes spell it (Table 13.5). -/
def State.parseCmd (s : State) (bs : List Byte) : LcCmd :=
  let at_ (o n : Nat) : List Byte := (bs.drop o).take n
  { magicOk := leNat (at_ 0 4) == 0x43444C45 && leNat (at_ 4 1) == 1 && decide (1 ≤ leNat (at_ 5 1) ∧ leNat (at_ 5 1) ≤ 4)
    identity := BitVec.ofNat 384 (beNat (at_ 8 48)), nonce := BitVec.ofNat 256 (beNat (at_ 0x38 32)), arg := leNat (at_ 0x58 4)
    operatorSigOk := Config.verifies s.trust.operatorPk (at_ 0 0x60) (at_ 0x60 4627)
    vendorSigOk := Config.vendorVerifies (at_ 0 0x60) (at_ 0x1273 4627) }

/-- Run the command of a code. -/
def State.lifecycleCmd (s : State) (code : Nat) (cmd : LcCmd) : State :=
  match code with
  | 1 => s.enterDebugCmd cmd
  | 2 => s.releaseCmd cmd
  | 3 => s.retireCmd cmd
  | _ => s.setSvnCmd cmd

/-- A key delivery as its bytes spell it (Table 13.7). -/
def parseKey (bs : List Byte) : KeyDel :=
  let at_ (o n : Nat) : List Byte := (bs.drop o).take n
  let nonce := BitVec.ofNat 256 (beNat (at_ 0x10 32))
  { magicOk := leNat (at_ 0 4) == 0x4C444B45 && leNat (at_ 4 1) == 1, persist := (leNat (at_ 5 1)).testBit 0
    epoch := BitVec.ofNat 32 (leNat (at_ 8 4)), nonce := nonce, pkHash := sha384 (at_ 0x6A0 2592)
    sigOk := Config.verifies (at_ 0x6A0 2592) (at_ 0 0x10C0) (at_ 0x10C0 4627)
    unwrapped := Config.unwraps nonce (at_ 0x50 1568) (at_ 0x670 48) }

/-- A write of a counter (R496). `same`: an increment falls in the same cycle, is dropped, and sets LOST. -/
def State.putCounter (s : State) (index sub : Nat) (v : BitVec 64) (same : Bool) : State :=
  { s with counters := mapSet counterD s.counters (counterKey index sub 0) ⟨v, false, same⟩ }

/-- Write bytes to the store from a 64 B-aligned address; the rest of the last block keeps its contents (DEDUCED, log entry 132). -/
def State.dbgStore (s : State) (a : Nat) (data : List Byte) : State :=
  ((pieces 64 data).zipIdx).foldl (fun t bi =>
    let b := t.dbgBlock (a + 64 * bi.2)
    let old := deliverBlock (t.storeBlock b.1 b.2.2.1 b.2.2.2)
    let new := wordsOfBytes bi.1
    t.putBlock b.1 b.2.2.1 b.2.2.2 (new ++ old.drop new.length)) s

/-- DBG_WRITE: control words follow the rules of their space (R504). -/
def State.dbgWrite (s : State) (data : List Byte) (who : Writer) : State :=
  if s.dbgSpace = 0 then s.dbgStore s.dbgAddr data
  else ((wordsOfBytes data).zipIdx).foldl (fun t wi => t.writeControl s.dbgSpace (s.dbgAddr / 4 + wi.2) wi.1.w who) s

/-- The writer a core is. -/
def coreWriter (w : MCore) : Writer := match w with | .a => .coreA | .b => .coreB

/-- The W1C flags of a port through 0x3803.02, with no event in the same cycle. -/
def State.clearPort (s : State) (v : Word) : State := s.modPort (v.toNat % 256) (fun x => x.clearFlags v 0)

/-- Effect of a write of a number to an entry that is not stored. -/
def State.actWrite (s : State) (index sub v : Nat) (reply : Option (Nat × Nat × Nat × Nat)) : Nat × State :=
  if 0x5010 ≤ index ∧ index < 0x5300 then (stOk, s.putCounter index sub (BitVec.ofNat 64 v) false)
  else if 0x3410 ≤ index ∧ index ≤ 0x3417 then (stOk, s.setPrio (index - 0x3410) v)
  else if 0x6010 ≤ index ∧ index ≤ 0x6017 then (stOk, s.control (index - 0x6010) v)
  else
    match index, sub with
    | 0x1100, _ => (stOk, if v = 1 then s.askWake else s)
    | 0x2400, _ => (stOk, clkmonEffect (BitVec.ofNat 32 v) s)
    | 0x2600, _ => (stOk, if v = 1 then s.modTime (fun t => { t with discontinuity := false }) else s)
    | 0x3803, 1 => (stOk, s.retrain v)
    | 0x3803, _ => (stOk, s.clearPort (BitVec.ofNat 32 v))
    | 0x4400, _ => (stOk, retirementClearEffect v s)
    | 0x7002, g =>
      let s1 := s.pinWrite g v reply
      if (s1.pinGroup g).fn = v ∧ (s1.pinGroup g).upto.isNone then (stOk, s1) else (stPending, s1)
    | _, _ => (stOk, s.setSetting index sub v)

/-- Effect of a write of bytes (DEDUCED, log entry 112). -/
def State.blobWrite (s : State) (index sub : Nat) (data : List Byte) (who : MCore) (reply : Option (Nat × Nat × Nat × Nat)) :
    Nat × State :=
  if index = 0x3000 then s.pmapWrite data who reply
  else if index = 0x1800 ∧ sub = 6 then
    (stPending, s.nvRequest 1 0 (.lifecycle 2 data s.trust.sealEpoch) (some who) reply)
  else if index = 0x1800 then
    let cmd := s.parseCmd data
    if cmd.magicOk then
      let t := s.lifecycleCmd (leNat ((data.drop 5).take 1)) cmd
      (if t.trust.cmdFail = 0 then stOk else stVerify, t)
    else (stRange, s)
  else if index = 0x7000 then (stOk, s.dbgWrite data (coreWriter who))
  else
    let p := index - 0x1810
    let d := parseKey data
    if d.magicOk then
      let t := keyDeliveryEffect p d s
      (if s.keyFail p d = 0 then stOk else stVerify, t)
    else (stRange, s)

/-- A write of an entry by the core that executes requests: the checks, the lease, and the effect; PENDING where the answer
waits for a commit or a switch of pins (R476, R488, R491). A refused write changes nothing but what reports the refusal:
PMAP_REFUSE, SWITCH_REFUSED, LEASE_REFUSED. -/
def State.writeEntry (s : State) (index sub : Nat) (data : List Byte) (who : MCore) (reply : Option (Nat × Nat × Nat × Nat)) :
    Nat × State :=
  let st := s.writeStatus index sub data
  let v := entryValue index sub data
  if st ≠ stOk then
    (st, if index = 0x3000 ∧ sub = 1 ∧ st ≠ stLength then s.noteRefuse data
         else if index = 0x2400 ∧ sub = 3 ∧ (st = stState ∨ st = stRange) then s.modClk (fun c => { c with switchRefused := true })
         else s)
  else if !s.holdsLease who then (stLease, s.guarded who s)
  else
    match findEntry index sub with
    | none => (stNoEntry, s)
    | some e =>
      if rawEntry index sub e then s.blobWrite index sub data who reply
      else if e.acc = .rws then s.storedWrite index sub v who reply
      else s.actWrite index sub v reply

/-! Commit (R443, R491). -/

/-- Sessions of the server ports with peer k of partition p are set up again (R384, R503) (DEDUCED, log entry 138). -/
def State.abandonServer (s : State) (p k : Nat) : State := s.modSrv p k (fun x => { x with up := false })

/-- A new torus identity: every session is lost and every port trains again (R502). -/
def State.newIdentity (s : State) : State :=
  let s1 := (List.range 256).foldl (fun t n => t.dropSession n) s
  { s1 with ports := (List.range 256).foldl (fun m n => mapMod portD m n (fun x =>
      if x.state = 0 ∨ x.state = 7 then x else { x with state := 1, since := s1.localNs })) s1.ports }

/-- A stored setting comes into force (DEDUCED, log entry 138). -/
def State.applySetting (s : State) (key v : Nat) : State :=
  let index := key / 256
  let sub := key % 256
  if 0x1810 ≤ index ∧ index ≤ 0x1817 then if sub = 1 then s.ownerChange (index - 0x1810) (BitVec.ofNat 384 v) else s
  else
    let s1 := s.setSetting index sub v
    if index = 0x3800 then s1.newIdentity
    else if 0x3C10 ≤ index ∧ index ≤ 0x3C17 ∧ sub ≤ 9 then
      s1.abandonServer (index - 0x3C10) (if sub = 1 then 8 else sub - 2)
    else
      match index, sub with
      | 0x2400, 1 => s1.changeOpPoint v
      | 0x2600, 3 =>
        if v = 0 then (s1.modTime (fun t => { t with root := false, ptpOk := false, rootConflict := false, smallerAt := none })).selectParent else s1
      | _, _ => s1

/-- Every stored setting of an index with those of `vals` in place of the ones in force (R490, R491). -/
def State.fullRecord (s : State) (index : Nat) (vals : SMap Nat) : SMap Nat :=
  let old := s.dict.filter (fun kv => kv.1 / 256 == index && (match findEntry index (kv.1 % 256) with
    | some e => e.acc == .rws
    | none => false))
  vals.foldl (fun m kv => mapInsert (mapErase m kv.1) kv.1 kv.2) old

/-- Are the conditions of a dictionary write still met? -/
def State.stillOk (s : State) (w : NvWrite) : Bool :=
  match w.v with
  | .change vals => vals.all (fun kv => s.stateOk (kv.1 / 256) (kv.1 % 256))
  | .newMap m => s.pmapRefuse m == 0
  | .lifecycle _ _ _ => s.trust.lifecycle == 1
  | _ => true

/-- The record of a write: a change becomes the record of its whole index. -/
def State.recordOf (s : State) (w : NvWrite) : NvWrite :=
  match w.v with
  | .change vals =>
    { w with v := .settings (if 0x810 ≤ w.inst ∧ w.inst ≤ 0x817 then vals else s.fullRecord (w.inst + 0x1000) vals) }
  | .newMap m => { w with v := .pmap m }
  | _ => w

/-- What a committed write brings into force (DEDUCED, log entry 114). -/
def State.inForce (s : State) (w : NvWrite) : State :=
  match w.v with
  | .change vals => vals.foldl (fun t kv => t.applySetting kv.1 kv.2) s
  | .newMap m => s.applyMap m
  | .lifecycle v pk _ => if w.core.isSome then (s.modTrust (fun t => { t with operatorPk := pk })).enterLifecycle v else s
  | _ => s

/-- RECORD_COMMIT: the commit byte of the write in progress, which takes effect and is answered; a core's commit byte is a
guarded write (R443, R446, R491). A write the array cannot commit keeps the previous value and is answered with COMMIT (R14, R476)
(DEDUCED, log entry 114). -/
def commitEffect (fails : Bool) (s : State) : State :=
  match s.nv.writes with
  | [] => s
  | w :: rest =>
    let s1 := { s with nv := { s.nv with writes := rest } }
    let cut (t : State) : State := if w.ty = 4 then t else t.nvCut w.ty w.inst
    if !(s1.mayCommit w) then
      match w.core with
      | some c => (cut (s1.guarded c s1)).answerLater w.reply stLease
      | none => s1
    else if fails then (cut s1).answerLater w.reply stCommit
    else if !(s1.stillOk w) then (cut s1).answerLater w.reply stState
    else (((s1.nvStore (s1.recordOf w)).inForce w).answerLater w.reply stOk)

def execRecordCommit (s : State) (fails : Bool := false) : Answer := .next (commitEffect fails s)

/-! Commands that write. -/

/-- RWS_WRITE: a write of a stored entry, refused as R476 gives or put into its record (R491). -/
def execRwsWrite (index sub : Nat) (data : List Byte) (who : MCore) (s : State) : Answer :=
  .next (s.writeEntry index sub data who none).2

/-- COUNTER_WRITE: of a counter marked RW (R496); of any other entry as the entry takes it. -/
def execCounterWrite (index sub : Nat) (v : BitVec 64) (sameCycle : Bool) (who : MCore) (s : State) : Answer :=
  .next (if isCounter index sub ∧ index < 0x5300 then s.guarded who (s.putCounter index sub v sameCycle)
    else (s.writeEntry index sub (leBytes 8 v.toNat) who none).2)

/-- PMAP_WRITE (R499, R500). -/
def execPmapWrite (image : List Byte) (who : MCore) (s : State) : Answer := .next (s.writeEntry 0x3000 1 image who none).2

/-- TORUS_IDENTITY_WRITE: TORUS_ID, NY, NZ, y or z (R502). -/
def execTorusIdentityWrite (sub : Nat) (data : List Byte) (who : MCore) (s : State) : Answer :=
  .next (s.writeEntry 0x3800 sub data who none).2

/-- SERVER_ADDRESS_WRITE: of a server port, an export destination or a peer (R503). -/
def execServerAddressWrite (index sub : Nat) (data : List Byte) (who : MCore) (s : State) : Answer :=
  .next (s.writeEntry index sub data who none).2

/-- DBG_WRITE (R504). -/
def execDbgWrite (data : List Byte) (who : MCore) (s : State) : Answer := .next (s.writeEntry 0x7000 6 data who none).2

end Sys2Proof.Machine
end

