-- ==== Sys2Proof/Machine/Maunvo.lean ====
section
/-! DEFINITION. The Maunvo protocol (R462 to R481) and the I3C chassis port (R482). A tag, a signature and a CRC come with
their outcome. -/

namespace Sys2Proof.Machine

open Sys2Proof

def State.modMaunvo (s : State) (f : Maunvo → Maunvo) : State := { s with maunvo := f s.maunvo }

/-- Does the management port take datagrams: the cores have started and the module is not in the safe state (R470)? -/
def State.portTakes (s : State) : Bool := s.coresRun

/-- The core that executes requests. With no holder, either finds a write refused (R446) (DESIGN CHOICE, log entry 143). -/
def State.executor (s : State) : MCore := if s.lease.holder = 2 then .b else .a

def State.openSession (s : State) (id : Nat) : Option Session := mapFind s.maunvo.sessions id

def State.setSession (s : State) (id : Nat) (x : Session) : State :=
  s.modMaunvo (fun m => { m with sessions := mapSet sessionD (mapErase m.sessions id) id x })

/-- End a session: its transfers and subscriptions go (R469). -/
def State.endSession (s : State) (id : Nat) : State :=
  s.modMaunvo (fun m => { m with sessions := mapErase m.sessions id, deferred := m.deferred.filter (fun d => d.session != id) })

/-! Messages of a session. -/

/-- Is a session message accepted (R464)? -/
def Session.accepts (x : Session) (h : MHead) : Bool :=
  h.tagOk && decide (x.rxHigh < h.pktSeq + 64) && !x.rxSeen.contains h.pktSeq && decide (0 < h.pktSeq)

/-- An accepted message: PKT_SEQ noted, the idle time starts anew (R464, R469). -/
def Session.note (x : Session) (h : MHead) (now : Nat) : Session :=
  let high := max x.rxHigh h.pktSeq
  { x with rxHigh := high, rxSeen := (x.rxSeen ++ [h.pktSeq]).filter (fun n => decide (high < n + 64)), lastMsg := now }

/-- Act on an accepted message; every other is dropped. -/
def onMessage (h : MHead) (act : Session → State → State) (s : State) : State :=
  if !s.portTakes then s
  else match s.openSession h.session with
    | none => s
    | some x => if x.accepts h then act (x.note h s.localNs) (s.setSession h.session (x.note h s.localNs)) else s

/-- Send a response that is not kept. -/
def State.sayStatus (s : State) (id : Nat) (r : MResp) : State :=
  match s.openSession id with
  | none => s
  | some x => (s.setSession id { x with txSeq := x.txSeq + 1 }).emit (.response id r)

/-! Handshakes (R465 to R469). -/

/-- PROBE_REPLY's payload. -/
def State.probeReply (s : State) : List Byte :=
  let pad (n : Nat) (bs : List Byte) : List Byte := bs ++ List.replicate (n - bs.length) 0
  beBytes 48 s.trust.identity.toNat ++ pad 16 (ascii "EFB-UZW4-A") ++ pad 4 (ascii "A1") ++ leBytes 1 s.trust.lifecycle
    ++ leBytes 1 s.boot.moduleState ++ leBytes 2 0

/-- PROBE (R465). -/
def execProbe (reqId : Nat) (s : State) : Answer :=
  .next (if s.portTakes then s.emit (.message 0 0x02 reqId s.probeReply) else s)

def handshakeD (_ : Nat) : Handshake := Handshake.reset

/-- A new SESSION_ID: never 0, and none that is in use (DESIGN CHOICE, log entry 31). -/
def State.newId (s : State) : Nat :=
  let r := Config.random 1 s.free
  let used := mapKeys s.maunvo.sessions ++ s.maunvo.handshakes.map (fun kv => kv.2.session)
  let ids := (List.range (used.length + 1)).map (fun i => (r + i) % 4294967295 + 1)
  (ids.find? (fun n => !used.contains n)).getD 1

/-- C_HELLO, one fragment of `count`: when it is whole it is refused by silence with 8 sessions open, or answered by M_HELLO with
a new SESSION_ID (R466, R469). -/
def cHelloEffect (client frag count : Nat) (keyHash : BitVec 384) (nonce : BitVec 256) (s : State) : State :=
  if !s.portTakes ∨ count = 0 ∨ 8 < count ∨ count ≤ frag then s
  else
    let old := (mapFind s.maunvo.handshakes client).filter (fun x => decide (s.localNs < x.from_ + 2000000000))
    let h : Handshake := match old with
      | some x => if x.keyHash = keyHash ∧ x.nonce = nonce ∧ x.count = count then x else ⟨keyHash, nonce, [], count, s.localNs, 0⟩
      | none => ⟨keyHash, nonce, [], count, s.localNs, 0⟩
    let h1 := if h.frags.contains frag then h else { h with frags := h.frags ++ [frag] }
    let put (x : Handshake) (t : State) : State :=
      t.modMaunvo (fun m => { m with handshakes := mapSet handshakeD (mapErase m.handshakes client) client x })
    if h1.session ≠ 0 ∨ h1.frags.length < count then put h1 s
    else if 8 ≤ s.maunvo.sessions.length then
      s.modMaunvo (fun m => { m with handshakes := mapErase m.handshakes client, refused := m.refused + 1 })
    else
      let id := s.newId
      (put { h1 with session := id } { s with free := s.free + 1 }).emit (.message 0 0x04 0 (beBytes 4 id))

def execCHello (client frag count : Nat) (keyHash : BitVec 384) (nonce : BitVec 256) (s : State) : Answer :=
  .next (cHelloEffect client frag count keyHash nonce s)

/-- ROLE of a client key in the lifecycle state (Table 17.3). -/
def State.roleOf (s : State) (pkHash : BitVec 384) : Option Nat :=
  match s.trust.lifecycle with
  | 0 => if pkHash = Config.factoryKeyHash then some 0 else none
  | 1 => some 1
  | _ => if pkHash = sha384 s.trust.operatorPk then some 2 else none

/-- C_FINISH: the session is accepted and confirmed by its first RESPONSE, or the handshake is refused and counted (R466, R468, R469)
(DEDUCED, log entry 127). -/
def cFinishEffect (client session : Nat) (pkHash : BitVec 384) (sigOk : Bool) (s : State) : State :=
  match mapFind s.maunvo.handshakes client with
  | none => s
  | some h =>
    if !s.portTakes ∨ session = 0 ∨ h.session ≠ session then s
    else
      let s1 := s.modMaunvo (fun m => { m with handshakes := mapErase m.handshakes client, refused := m.refused + 1 })
      match s.roleOf pkHash with
      | none => s1
      | some role =>
        if pkHash = h.keyHash ∧ sigOk ∧ s.localNs < h.from_ + 2000000000 ∧ s.maunvo.sessions.length < 8 then
          let s2 := s.modMaunvo (fun m => { m with handshakes := mapErase m.handshakes client })
          (s2.setSession session { Session.reset with role := role, txSeq := 1, lastMsg := s.localNs }).emit
            (.response session ⟨0, 0, 0, stOk, 0, 0, []⟩)
        else s1

def execCFinish (client session : Nat) (pkHash : BitVec 384) (sigOk : Bool) (s : State) : Answer :=
  .next (cFinishEffect client session pkHash sigOk s)

/-- HANDSHAKE_TIMEOUT: 2 s after the first C_HELLO fragment (R466). -/
def execHandshakeTimeout (client : Nat) (s : State) : Answer :=
  .next (match mapFind s.maunvo.handshakes client with
    | none => s
    | some h => (s.atNs (h.from_ + 2000000000)).modMaunvo (fun m => { m with handshakes := mapErase m.handshakes client }))

/-- CLOSE (R469). -/
def execClose (h : MHead) (s : State) : Answer := .next (onMessage h (fun _ t => t.endSession h.session) s)

/-- PING is answered with PONG and keeps the session from its idle timeout (Table 17.5). -/
def execPing (h : MHead) (s : State) : Answer :=
  .next (onMessage h (fun x t => (t.setSession h.session { x with txSeq := x.txSeq + 1 }).emit (.message h.session 0x31 h.reqId [])) s)

/-- IDLE_TIMEOUT: no authenticated client message for 0x1100.05 (R469). -/
def execIdleTimeout (session : Nat) (s : State) : Answer :=
  .next (match s.openSession session with
    | none => s
    | some x => (s.atNs (x.lastMsg + s.setting 0x1100 5 * 1000000000)).endSession session)

/-! Requests. -/

/-- Does a session's role reach a request (Table 17.3)? RETIRED leaves reads only. -/
def roleReaches (role lifecycle index sub : Nat) (write : Bool) : Bool :=
  match role with
  | 0 => true
  | 1 => if write then index == 0x1800 && sub == 6
         else index == 0x1000 || index == 0x1800 || index == 0x1801 || (index == 0x6000 && sub == 1)
  | _ => !(write && lifecycle == 4)

/-- A request before it is executed: a kept response is sent again; one that is still running is not executed again; a REQ_ID
below the kept ones is STALE; a ninth outstanding request is BUSY; the rest is `act` (R474, R475). -/
def State.request (s : State) (h : MHead) (x : Session) (index sub : Nat) (write : Bool) (act : State → State) : State :=
  let say (st : Nat) : State := s.sayStatus h.session ⟨h.reqId, index, sub, st, 0, 0, []⟩
  match x.kept.find? (fun r => r.reqId == h.reqId) with
  | some r => s.sayStatus h.session r
  | none =>
    if x.waiting.any (fun w => w.reqId == h.reqId) then say stPending
    else if !x.kept.isEmpty && x.kept.all (fun r => decide (h.reqId < r.reqId)) then say stStale
    else if 8 ≤ x.waiting.length then say stBusy
    else if !roleReaches x.role s.trust.lifecycle index sub write then s.respond h.session ⟨h.reqId, index, sub, stRole, 0, 0, []⟩
    else act s

/-- The most a transfer buffer holds. -/
def bufferBytes : Nat := 262144

/-- Bytes a message carries. -/
def partBytes : Nat := 1400

/-- The place of a buffer for an entry. -/
def sameTransfer (write : Bool) (index sub : Nat) (b : Transfer) : Bool := b.write == write && b.index == index && b.sub == sub

def State.modSession (s : State) (id : Nat) (f : Session → Session) : State :=
  match s.openSession id with
  | none => s
  | some x => s.setSession id (f x)

/-- READ with OFFSET 0: a value of at most 1,400 B whole; a longer one latched in a transfer buffer, replacing the session's copy
of the entry (R472, R473). -/
def State.readFirst (s : State) (id reqId index sub : Nat) (arg : List Byte) : State :=
  let r := s.readEntry id index sub arg
  let no (t : State) (st : Nat) : State := t.respond id ⟨reqId, index, sub, st, 0, 0, []⟩
  if r.1 ≠ stOk then no s r.1
  else if r.2.1.length ≤ partBytes then r.2.2.respond id ⟨reqId, index, sub, stOk, r.2.1.length, 0, r.2.1⟩
  else
    let others := match s.openSession id with
      | some x => x.buffers.filter (fun b => !sameTransfer false index sub b)
      | none => []
    if 2 ≤ others.length then no s stBusy
    else
      let b : Transfer := ⟨false, index, sub, r.2.1.length, r.2.1.take bufferBytes, reqId, partBytes, s.localNs⟩
      (r.2.2.modSession id (fun x => { x with buffers := others ++ [b] })).respond id
        ⟨reqId, index, sub, stOk, r.2.1.length, 0, r.2.1.take partBytes⟩

/-- READ with OFFSET above 0: bytes of the latched copy (R472). -/
def State.readLater (s : State) (id reqId index sub offset : Nat) : State :=
  let found := match s.openSession id with
    | some x => x.buffers.find? (sameTransfer false index sub)
    | none => none
  match found with
  | none => s.respond id ⟨reqId, index, sub, stSegment, 0, offset, []⟩
  | some b =>
    if b.data.length ≤ offset then s.respond id ⟨reqId, index, sub, stSegment, b.total, offset, []⟩
    else
      let bs := (b.data.drop offset).take partBytes
      let s1 := s.modSession id (fun x => { x with buffers := x.buffers.map (fun c =>
        if sameTransfer false index sub c then { c with sent := max c.sent (offset + bs.length), at_ := s.localNs } else c) })
      s1.respond id ⟨reqId, index, sub, stOk, b.total, offset, bs⟩

/-- READ (R471 to R476). -/
def execMaunvoRead (h : MHead) (index sub offset : Nat) (arg : List Byte) (s : State) : Answer :=
  .next (onMessage h (fun x t => t.request h x index sub false (fun u =>
    if offset = 0 then u.readFirst h.session h.reqId index sub arg else u.readLater h.session h.reqId index sub offset)) s)

/-- Execute a whole write for a session (R476, R477): answered, or PENDING until its end. -/
def State.runWrite (s : State) (id reqId index sub : Nat) (data : List Byte) : State :=
  let w := s.writeEntry index sub data s.executor (some (id, reqId, index, sub))
  if w.1 = stPending then w.2.modSession id (fun x => { x with waiting := x.waiting ++ [⟨reqId, index, sub, s.localNs⟩] })
  else w.2.respond id ⟨reqId, index, sub, w.1, 0, 0, []⟩

/-- Areas whose writes wake the module from W4 (R481) (DEDUCED, log entry 142). -/
def wakesW4 (index : Nat) : Bool := (decide (0x3000 ≤ index) && decide (index < 0x3400)) || (decide (0x6000 ≤ index) && decide (index < 0x7000))

/-- A whole write: in W4 one to the Partitions or the Binding control area waits for W0 (R420, R481) (DEDUCED, log entry 142). -/
def State.takeWrite (s : State) (id reqId index sub : Nat) (data : List Byte) : State :=
  if s.boot.moduleState = 3 ∧ wakesW4 index then
    let s1 := (s.askWake).modSession id (fun x => { x with waiting := x.waiting ++ [⟨reqId, index, sub, s.localNs⟩] })
    s1.modMaunvo (fun m => { m with deferred := m.deferred ++ [⟨id, reqId, index, sub, data⟩] })
  else s.runWrite id reqId index sub data

/-- Must an entry be written in one message (R486)? Of the entries of a fixed size only OPERATOR_PK is longer than one.
(DEDUCED, log entry 113.) -/
def oneMessage (index sub : Nat) : Bool :=
  match findEntry index sub with
  | some e => (match e.ty.size with
    | some n => decide (n ≤ partBytes)
    | none => false)
  | none => false

/-- A WRITE segment (R472): in increasing OFFSET without gaps, at most 16 KiB in all (DEDUCED, log entry 113). -/
def State.writeSegment (s : State) (id reqId index sub offset total : Nat) (data : List Byte) : State :=
  let say (t : State) (st : Nat) : State := t.respond id ⟨reqId, index, sub, st, total, offset, []⟩
  let buffers := match s.openSession id with
    | some x => x.buffers
    | none => []
  let others := buffers.filter (fun b => !sameTransfer true index sub b)
  if data.isEmpty ∨ partBytes < data.length ∨ total < offset + data.length ∨ 16384 < total then say s stSegment
  else if offset = 0 ∧ data.length = total then s.takeWrite id reqId index sub data
  else if oneMessage index sub then say s stLength
  else if offset = 0 then
    if 2 ≤ others.length then say s stBusy
    else
      let b : Transfer := ⟨true, index, sub, total, data, reqId, data.length, s.localNs⟩
      say (s.modSession id (fun x => { x with buffers := others ++ [b] })) stOk
  else
    match buffers.find? (sameTransfer true index sub) with
    | none => say s stSegment
    | some b =>
      if b.data.length ≠ offset ∨ b.total ≠ total then say s stSegment
      else
        let all := b.data ++ data
        if all.length = total then
          (s.modSession id (fun x => { x with buffers := others })).takeWrite id reqId index sub all
        else
          say (s.modSession id (fun x => { x with buffers := others ++ [{ b with data := all, reqId := reqId, sent := all.length, at_ := s.localNs }] })) stOk

/-- WRITE (R471 to R476). -/
def execMaunvoWrite (h : MHead) (index sub offset total : Nat) (data : List Byte) (s : State) : Answer :=
  .next (onMessage h (fun x t => t.request h x index sub true (fun u =>
    u.writeSegment h.session h.reqId index sub offset total data)) s)

/-- W4_WAKE_COMPLETE, and the writes that waited for it, in order (R420, R481) (DEDUCED, log entry 142). -/
def State.runDeferred (s : State) : State :=
  let ds := s.maunvo.deferred
  ds.foldl (fun t d =>
    (t.modSession d.session (fun x => { x with waiting := x.waiting.filter (fun w => w.reqId != d.reqId) })).runWrite
      d.session d.reqId d.index d.sub d.data) (s.modMaunvo (fun m => { m with deferred := [] }))

def execW4WakeComplete (s : State) : Answer :=
  .next (let t := w4WakeEffect s
    if t.boot.moduleState = 3 then t else t.runDeferred)

/-- ABORT: ends an open transfer and a request not yet executed, answered with ABORTED (R478) (DEDUCED, log entry 126). -/
def abortEffect (h : MHead) (target : Nat) (t : State) : State :=
  let x := (t.openSession h.session).getD Session.reset
  let gone := x.buffers.any (fun b => b.reqId == target)
  let wait := t.maunvo.deferred.find? (fun d => d.session == h.session && d.reqId == target)
  let s1 := (t.modSession h.session (fun y => { y with buffers := y.buffers.filter (fun b => b.reqId != target) })).modMaunvo
    (fun m => { m with deferred := m.deferred.filter (fun d => !(d.session == h.session && d.reqId == target)) })
  if gone || wait.isSome then
    s1.respond h.session ⟨target, (wait.map Deferred.index).getD 0, (wait.map Deferred.sub).getD 0, stAborted, 0, 0, []⟩
  else s1

def execAbort (h : MHead) (target : Nat) (s : State) : Answer := .next (onMessage h (fun _ t => abortEffect h target t) s)

/-- SEGMENT_GAP_TIMEOUT: 5 s without a segment free the buffer; a transfer that is not complete is answered with TIMEOUT (Table
17.5) (DEDUCED, log entry 126). -/
def gapEffect (session index sub : Nat) (s : State) : State :=
  match s.openSession session with
  | none => s
  | some x =>
    match x.buffers.find? (fun b => b.index == index && b.sub == sub) with
    | none => s
    | some b =>
      let s1 := (s.atNs (b.at_ + 5000000000)).modSession session (fun y => { y with buffers := y.buffers.filter (fun c => c != b) })
      if !b.write ∧ b.data.length ≤ b.sent then s1
      else s1.respond session ⟨b.reqId, index, sub, stTimeout, b.total, 0, []⟩

def execSegmentGapTimeout (session index sub : Nat) (s : State) : Answer := .next (gapEffect session index sub s)

/-- PENDING_REPEAT: every 200 ms a running request is answered with PENDING (R474, Table 17.5). -/
def pendingEffect (session reqId : Nat) (s : State) : State :=
  match s.openSession session with
  | none => s
  | some x =>
    match x.waiting.find? (fun w => w.reqId == reqId) with
    | none => s
    | some w =>
      let s1 := s.atNs (w.at_ + 200000000)
      let s2 := s1.modSession session (fun y => { y with waiting := y.waiting.map (fun v => if v.reqId = reqId then { v with at_ := s1.localNs } else v) })
      s2.sayStatus session ⟨reqId, w.index, w.sub, stPending, 0, 0, []⟩

def execPendingRepeat (session reqId : Nat) (s : State) : Answer := .next (pendingEffect session reqId s)

/-! Events (R479, R480). -/

/-- SUBSCRIBE: the mask replaces the one before. -/
def execSubscribe (h : MHead) (mask : Word) (s : State) : Answer :=
  .next (onMessage h (fun x t => t.setSession h.session { x with mask := mask }) s)

/-- EVENT_ACK: the acknowledged events are held no longer; with space again, OVERFLOW tells how many were lost (R480). -/
def eventAckEffect (h : MHead) (seq : Nat) (x : Session) (t : State) : State :=
  let left := x.events.filter (fun e => decide (seq < e.seq))
  let y := { x with events := left }
  if 0 < x.lost ∧ left.length < 256 then
    let e : MEvent := { seq := x.eventSeq + 1, cls := 31, ns := t.localNs, tt := t.ttNs, epoch := t.torusTime.epoch, index := 0x5011,
                        sub := 6, detail := [x.lost] }
    (t.setSession h.session { y with
      eventSeq := x.eventSeq + 1, events := left ++ [e], lost := 0
      sentAt := if left.isEmpty then t.localNs else x.sentAt }).emit (.event h.session e)
  else t.setSession h.session y

def execEventAck (h : MHead) (seq : Nat) (s : State) : Answer := .next (onMessage h (eventAckEffect h seq) s)

/-- EVENT_RESEND: unacknowledged events again, in order, every 1 s (R480). -/
def resendEffect (session : Nat) (s : State) : State :=
  match s.openSession session with
  | none => s
  | some x =>
    if x.events.isEmpty then s
    else
      let s1 := s.atNs (x.sentAt + 1000000000)
      let s2 := s1.modSession session (fun y => { y with sentAt := s1.localNs })
      { s2 with out := s2.out ++ x.events.map (Out.event session) }

def execEventResend (session : Nat) (s : State) : Answer := .next (resendEffect session s)

/-! The chassis port (R482). -/

/-- Entries the chassis port reads and writes. -/
def i3cReads (index sub : Nat) : Bool :=
  (index == 0x1000 && decide (1 ≤ sub) && decide (sub ≤ 3)) || index == 0x2000 || index == 0x2001 || index == 0x2101
    || (index == 0x6000 && decide (1 ≤ sub) && decide (sub ≤ 3))
def i3cWrites (index sub : Nat) : Bool := (index == 0x2000 && sub == 4) || (index == 0x1100 && sub == 7)

/-- Answer of the port. -/
def State.i3cSay (s : State) (st : Nat) (data : List Byte) : State := s.emit (.i3c st data)

/-- Who answers: nobody before the boot ROM has started the cores; in the safe state the boot-ROM monitor, and only reads of
SAFE_CAUSE (DEDUCED, log entry 130). -/
def State.i3cGate (s : State) (cause : Bool) (act : State → State) : State :=
  if s.boot.moduleState = 2 then if cause then act s else s
  else if s.coresRun then act s else s

/-- A request with its CRC checked. -/
def checkCrc (crcOk : Bool) (act : State → State) (s : State) : State := if crcOk then act s else s.i3cSay stLength []

/-- OP 0: a value whole, or a DOMAIN latched, answered by its length. -/
def i3cReadEffect (index sub : Nat) (s : State) : State :=
  if !i3cReads index sub then s.i3cSay stRole []
  else
    let r := s.readEntry 0 index sub []
    if r.1 ≠ stOk then s.i3cSay r.1 []
    else if (findEntry index sub).any (fun e => e.ty == .domain) then
      (r.2.2.modMaunvo (fun m => { m with latch := some (index, sub, r.2.1) })).i3cSay stOk (leBytes 4 r.2.1.length)
    else r.2.2.i3cSay stOk r.2.1

def execI3cRead (index sub : Nat) (crcOk : Bool) (s : State) : Answer :=
  .next (s.i3cGate (index == 0x6000 && sub == 3) (checkCrc crcOk (i3cReadEffect index sub)))

/-- OP 1: POWER_CAP and WAKE, under the lease like any other write. -/
def i3cWriteEffect (index sub : Nat) (data : List Byte) (s : State) : State :=
  if !i3cWrites index sub then s.i3cSay stRole []
  else
    let w := s.writeEntry index sub data s.executor (some (0, 0, index, sub))
    w.2.i3cSay w.1 []

def execI3cWrite (index sub : Nat) (data : List Byte) (crcOk : Bool) (s : State) : Answer :=
  .next (s.i3cGate false (checkCrc crcOk (i3cWriteEffect index sub data)))

/-- OP 2: up to 255 B of the latched copy. -/
def i3cSegmentEffect (index sub offset : Nat) (s : State) : State :=
  if !i3cReads index sub then s.i3cSay stRole []
  else match s.maunvo.latch with
    | some (i, b, data) => if i = index ∧ b = sub then s.i3cSay stOk ((data.drop offset).take 255) else s.i3cSay stState []
    | none => s.i3cSay stState []

def execI3cReadSegment (index sub offset : Nat) (crcOk : Bool) (s : State) : Answer :=
  .next (s.i3cGate false (checkCrc crcOk (i3cSegmentEffect index sub offset)))

/-- I3C_DYNAMIC_ADDRESS: SETDASA or ENTDAA. -/
def execI3cDynamicAddress (addr : Nat) (s : State) : Answer :=
  onNumber "bus address" 128 addr (s.modMaunvo (fun m => { m with dynAddr := some addr }))

end Sys2Proof.Machine
end

