-- ==== Sys2Proof/Machine/Dispatch.lean ====
section
/-! DEFINITION. The meaning of each command: one arm per constructor of Instr, each one direct call. -/

namespace Sys2Proof.Machine

open Sys2Proof

def exec (i : Instr) (s : State) : Host.Outcome State Fault Refusal :=
  match i with
  | .mma c h => Sys2Proof.Machine.execMma c h s
  | .mmz c h => Sys2Proof.Machine.execMmz c h s
  | .mmaSp c h => Sys2Proof.Machine.execMmaSp c h s
  | .add c h => Sys2Proof.Machine.execAdd c h s
  | .sub c h => Sys2Proof.Machine.execSub c h s
  | .mul c h => Sys2Proof.Machine.execMul c h s
  | .fma c h => Sys2Proof.Machine.execFma c h s
  | .min c h => Sys2Proof.Machine.execMin c h s
  | .max c h => Sys2Proof.Machine.execMax c h s
  | .abs c h => Sys2Proof.Machine.execAbs c h s
  | .neg c h => Sys2Proof.Machine.execNeg c h s
  | .scale2 c h => Sys2Proof.Machine.execScale2 c h s
  | .cmp c h => Sys2Proof.Machine.execCmp c h s
  | .sel c h => Sys2Proof.Machine.execSel c h s
  | .cvt c h => Sys2Proof.Machine.execCvt c h s
  | .rowmax c h => Sys2Proof.Machine.execRowmax c h s
  | .rowsum c h => Sys2Proof.Machine.execRowsum c h s
  | .exp c h => Sys2Proof.Machine.execExp c h s
  | .log c h => Sys2Proof.Machine.execLog c h s
  | .recip c h => Sys2Proof.Machine.execRecip c h s
  | .sqrt c h => Sys2Proof.Machine.execSqrt c h s
  | .rsqrt c h => Sys2Proof.Machine.execRsqrt c h s
  | .tanh c h => Sys2Proof.Machine.execTanh c h s
  | .div c h => Sys2Proof.Machine.execDiv c h s
  | .quant c h => Sys2Proof.Machine.execQuant c h s
  | .dequant c h => Sys2Proof.Machine.execDequant c h s
  | .walk c h => Sys2Proof.Machine.execWalk c h s
  | .redAdd c h => Sys2Proof.Machine.execRedAdd c h s
  | .redAcc c h => Sys2Proof.Machine.execRedAcc c h s
  | .sumsq c h => Sys2Proof.Machine.execSumsq c h s
  | .amax c h => Sys2Proof.Machine.execAmax c h s
  | .satcnt c h => Sys2Proof.Machine.execSatcnt c h s
  | .hist c h => Sys2Proof.Machine.execHist c h s
  | .sstart c => Sys2Proof.Machine.execSstart c s
  | .swait c => Sys2Proof.Machine.execSwait c s
  | .nop c => Sys2Proof.Machine.execNop c s
  | .loopSet c => Sys2Proof.Machine.execLoopSet c s
  | .stepMark c => Sys2Proof.Machine.execStepMark c s
  | .endQuire c => Sys2Proof.Machine.execEndQuire c s
  | .arrive c => Sys2Proof.Machine.execArrive c s
  | .tileVerdict c mismatch => Sys2Proof.Machine.execTileVerdict c mismatch s
  | .tileWriteback c => Sys2Proof.Machine.execTileWriteback c s
  | .reductionVerdict c mismatch => Sys2Proof.Machine.execReductionVerdict c mismatch s
  | .engineLastResult c unit => Sys2Proof.Machine.execEngineLastResult c unit s
  | .holdDelivered p => Sys2Proof.Machine.execHoldDelivered p s
  | .replayVerdict c mismatch => Sys2Proof.Machine.execReplayVerdict c mismatch s
  | .holdReleaseDelivered p => Sys2Proof.Machine.execHoldReleaseDelivered p s
  | .partitionStartDelivered p => Sys2Proof.Machine.execPartitionStartDelivered p s
  | .partitionStopDelivered p => Sys2Proof.Machine.execPartitionStopDelivered p s
  | .partitionStopped p => Sys2Proof.Machine.execPartitionStopped p s
  | .localStop c who => Sys2Proof.Machine.execLocalStop c who s
  | .unload c who => Sys2Proof.Machine.execUnload c who s
  | .coreMapWrite c k v who => Sys2Proof.Machine.execCoreMapWrite c k v who s
  | .loRegisterRead r hi => Sys2Proof.Machine.execLoRegisterRead r hi s
  | .rcCounterRead r sameCycleEvent => Sys2Proof.Machine.execRcCounterRead r sameCycleEvent s
  | .registerWrite r v hwSet who => Sys2Proof.Machine.execRegisterWrite r v hwSet who s
  | .circRegisterWrite c r which v who => Sys2Proof.Machine.execCircRegisterWrite c r which v who s
  | .resRegisterWrite c n which v who => Sys2Proof.Machine.execResRegisterWrite c n which v who s
  | .flipRegisterWrite c which v who => Sys2Proof.Machine.execFlipRegisterWrite c which v who s
  | .zeroingComplete c => Sys2Proof.Machine.execZeroingComplete c s
  | .unscheduledAccess c => Sys2Proof.Machine.execUnscheduledAccess c s
  | .circWaitPass c => Sys2Proof.Machine.execCircWaitPass c s
  | .scheduledDeparture c d upset conflict => Sys2Proof.Machine.execScheduledDeparture c d upset s conflict
  | .scheduledLanding c d err conflict => Sys2Proof.Machine.execScheduledLanding c d err s conflict
  | .scheduledFlitArrival c d upset => Sys2Proof.Machine.execScheduledFlitArrival c d upset s
  | .elasticFlitSend c d upset err => Sys2Proof.Machine.execElasticFlitSend c d upset s err
  | .elasticCreditReturn c d p => Sys2Proof.Machine.execElasticCreditReturn c d p s
  | .elasticLanding c d err upset => Sys2Proof.Machine.execElasticLanding c d err s upset
  | .linkLost c d => Sys2Proof.Machine.execLinkLost c d s
  | .laneMapUpdate slot d j lane => Sys2Proof.Machine.execLaneMapUpdate slot d j lane s
  | .remapSwitch row spareA spareB aRetired bRetired => Sys2Proof.Machine.execRemapSwitch row spareA spareB aRetired bRetired s
  | .syncArrival o who upset => Sys2Proof.Machine.execSyncArrival o who s upset
  | .localReleaseDelivered o => Sys2Proof.Machine.execLocalReleaseDelivered o s
  | .spineGroupArrival o => Sys2Proof.Machine.execSpineGroupArrival o s
  | .spineReleaseDelivered g => Sys2Proof.Machine.execSpineReleaseDelivered g s
  | .torusReleaseAtRoot g => Sys2Proof.Machine.execTorusReleaseAtRoot g s
  | .stretchChange => Sys2Proof.Machine.execStretchChange s
  | .fabricControlWrite addr v who => Sys2Proof.Machine.execFabricControlWrite addr v who s
  | .storeRequestArrival stack p => Sys2Proof.Machine.execStoreRequestArrival stack p s
  | .storeRoundGrant stack pch => Sys2Proof.Machine.execStoreRoundGrant stack pch s
  | .storeReadRetry stack pch => Sys2Proof.Machine.execStoreReadRetry stack pch s
  | .storeBurstComplete stack pch => Sys2Proof.Machine.execStoreBurstComplete stack pch s
  | .partPrioWrite p v who => Sys2Proof.Machine.execPartPrioWrite p v who s
  | .streamLoad c k => Sys2Proof.Machine.execStreamLoad c k s
  | .streamStore c k => Sys2Proof.Machine.execStreamStore c k s
  | .streamReduce c k => Sys2Proof.Machine.execStreamReduce c k s
  | .streamSend c k => Sys2Proof.Machine.execStreamSend c k s
  | .streamTimerExpiry c k => Sys2Proof.Machine.execStreamTimerExpiry c k s
  | .streamRequestIssue c k => Sys2Proof.Machine.execStreamRequestIssue c k s
  | .streamResponse c k => Sys2Proof.Machine.execStreamResponse c k s
  | .streamDescriptorComplete c k => Sys2Proof.Machine.execStreamDescriptorComplete c k s
  | .streamDrainComplete c k => Sys2Proof.Machine.execStreamDrainComplete c k s
  | .reduceContribution stack pch mismatches => Sys2Proof.Machine.execReduceContribution stack pch mismatches s
  | .touchedClearDone p => Sys2Proof.Machine.execTouchedClearDone p s
  | .normPartial stack p mismatches => Sys2Proof.Machine.execNormPartial stack p mismatches s
  | .commitArrival stack p mismatches => Sys2Proof.Machine.execCommitArrival stack p mismatches s
  | .exportWaitEnd stack p => Sys2Proof.Machine.execExportWaitEnd stack p s
  | .commit p => Sys2Proof.Machine.execCommit p s
  | .commitRecordWritten p => Sys2Proof.Machine.execCommitRecordWritten p s
  | .rollForward p who => Sys2Proof.Machine.execRollForward p who s
  | .rollBack p who => Sys2Proof.Machine.execRollBack p who s
  | .clearStartBlocked p who => Sys2Proof.Machine.execClearStartBlocked p who s
  | .idleIntervalEnd p => Sys2Proof.Machine.execIdleIntervalEnd p s
  | .rdReq n f rx => Sys2Proof.Machine.execRdReq n f rx s
  | .rdData n f rx => Sys2Proof.Machine.execRdData n f rx s
  | .wr n f rx => Sys2Proof.Machine.execWr n f rx s
  | .red n f rx => Sys2Proof.Machine.execRed n f rx s
  | .sendFrame n f rx => Sys2Proof.Machine.execSendFrame n f rx s
  | .resp n f rx => Sys2Proof.Machine.execResp n f rx s
  | .stage n f rx => Sys2Proof.Machine.execStage n f rx s
  | .commitFrame n f rx => Sys2Proof.Machine.execCommitFrame n f rx s
  | .ack n f rx => Sys2Proof.Machine.execAck n f rx s
  | .nak n f rx => Sys2Proof.Machine.execNak n f rx s
  | .nakRepeat n => Sys2Proof.Machine.execNakRepeat n s
  | .replayTimeout n => Sys2Proof.Machine.execReplayTimeout n s
  | .frameSend n => Sys2Proof.Machine.execFrameSend n s
  | .timeFrame n f rx t4 => Sys2Proof.Machine.execTimeFrame n f rx t4 s
  | .timeSend n => Sys2Proof.Machine.execTimeSend n s
  | .sessionHello n f => Sys2Proof.Machine.execSessionHello n f s
  | .sessionFinish n f => Sys2Proof.Machine.execSessionFinish n f s
  | .resume n f rx => Sys2Proof.Machine.execResume n f rx s
  | .lossOfLight n => Sys2Proof.Machine.execLossOfLight n s
  | .losTimeout n => Sys2Proof.Machine.execLosTimeout n s
  | .lightReturn n => Sys2Proof.Machine.execLightReturn n s
  | .portTrainingDone n t => Sys2Proof.Machine.execPortTrainingDone n t s
  | .refusedRetry n => Sys2Proof.Machine.execRefusedRetry n s
  | .portRetrainRequest n who => Sys2Proof.Machine.execPortRetrainRequest n who s
  | .portFlagClear v hwSet who => Sys2Proof.Machine.execPortFlagClear v hwSet who s
  | .stageEntrySend p g => Sys2Proof.Machine.execStageEntrySend p g s
  | .timeParentTimeout => Sys2Proof.Machine.execTimeParentTimeout s
  | .rootConflictEnd => Sys2Proof.Machine.execRootConflictEnd s
  | .noRootTimeout => Sys2Proof.Machine.execNoRootTimeout s
  | .sqTailWrite q v => Sys2Proof.Machine.execSqTailWrite q v s
  | .cqHeadWrite q v => Sys2Proof.Machine.execCqHeadWrite q v s
  | .hqCfgWrite q v => Sys2Proof.Machine.execHqCfgWrite q v s
  | .bindLoad q e data tags image => Sys2Proof.Machine.execBindLoad q e data tags image s
  | .sqWrite q e data tags => Sys2Proof.Machine.execSqWrite q e data tags s
  | .sqRead q e => Sys2Proof.Machine.execSqRead q e s
  | .ingest q e data tags => Sys2Proof.Machine.execIngest q e data tags s
  | .psPush q e => Sys2Proof.Machine.execPsPush q e s
  | .psPull q e => Sys2Proof.Machine.execPsPull q e s
  | .entryComplete q => Sys2Proof.Machine.execEntryComplete q s
  | .hostLinkDown => Sys2Proof.Machine.execHostLinkDown s
  | .hostReset ev => Sys2Proof.Machine.execHostReset ev s
  | .perstDeassert => Sys2Proof.Machine.execPerstDeassert s
  | .expAck d => Sys2Proof.Machine.execExpAck d s
  | .psData d => Sys2Proof.Machine.execPsData d s
  | .psAck d => Sys2Proof.Machine.execPsAck d s
  | .keepalive d => Sys2Proof.Machine.execKeepalive d s
  | .serverDatagramSend port slot => Sys2Proof.Machine.execServerDatagramSend port slot s
  | .exportRetransmit stack p => Sys2Proof.Machine.execExportRetransmit stack p s
  | .exportStallTimeout p => Sys2Proof.Machine.execExportStallTimeout p s
  | .psPeerTimeout q => Sys2Proof.Machine.execPsPeerTimeout q s
  | .serverHandshake p peer peerHash sigOk => Sys2Proof.Machine.execServerHandshake p peer peerHash sigOk s
  | .serverLinkDown port => Sys2Proof.Machine.execServerLinkDown port s
  | .retirementRecordCommit => Sys2Proof.Machine.execRetirementRecordCommit s
  | .retirementClear element who => Sys2Proof.Machine.execRetirementClear element who s
  | .enterDebug cmd who => Sys2Proof.Machine.execEnterDebug cmd who s
  | .release cmd who => Sys2Proof.Machine.execRelease cmd who s
  | .retire cmd who => Sys2Proof.Machine.execRetire cmd who s
  | .setSvn cmd who => Sys2Proof.Machine.execSetSvn cmd who s
  | .operatorPkWrite pk who => Sys2Proof.Machine.execOperatorPkWrite pk who s
  | .ownerIdWrite p owner who => Sys2Proof.Machine.execOwnerIdWrite p owner who s
  | .ownerZeroingComplete p => Sys2Proof.Machine.execOwnerZeroingComplete p s
  | .attestationReport nonce scope => Sys2Proof.Machine.execAttestationReport nonce scope s
  | .keyDelivery p d who => Sys2Proof.Machine.execKeyDelivery p d who s
  | .powerFail => Sys2Proof.Machine.execPowerFail s
  | .overvoltage => Sys2Proof.Machine.execOvervoltage s
  | .overvoltageRecovery => Sys2Proof.Machine.execOvervoltageRecovery s
  | .steeringPeriod sensors => Sys2Proof.Machine.execSteeringPeriod sensors s
  | .outOfRegulation domain => Sys2Proof.Machine.execOutOfRegulation domain s
  | .abnormalDrop domain => Sys2Proof.Machine.execAbnormalDrop domain s
  | .powerTick vinMilli pfMilli tmaxMilli => Sys2Proof.Machine.execPowerTick vinMilli pfMilli tmaxMilli s
  | .fastClamp s0 s1 s2 => Sys2Proof.Machine.execFastClamp s0 s1 s2 s
  | .thermalTrip cause => Sys2Proof.Machine.execThermalTrip cause s
  | .overdriveSave => Sys2Proof.Machine.execOverdriveSave s
  | .coolantSample flowMilli inletMilli outletMilli => Sys2Proof.Machine.execCoolantSample flowMilli inletMilli outletMilli s
  | .powerGroupStage g => Sys2Proof.Machine.execPowerGroupStage g s
  | .wakeEntry p => Sys2Proof.Machine.execWakeEntry p s
  | .wakeEvent p cause => Sys2Proof.Machine.execWakeEvent p cause s
  | .wakeComplete p => Sys2Proof.Machine.execWakeComplete p s
  | .w4Entry => Sys2Proof.Machine.execW4Entry s
  | .w4WakeComplete => Sys2Proof.Machine.execW4WakeComplete s
  | .wake v who => Sys2Proof.Machine.execWake v who s
  | .crystalComparison count => Sys2Proof.Machine.execCrystalComparison count s
  | .crystalLost => Sys2Proof.Machine.execCrystalLost s
  | .phaseFault c d separation => Sys2Proof.Machine.execPhaseFault c d separation s
  | .sourceSwitch sel src => Sys2Proof.Machine.execSourceSwitch sel src s
  | .readyLost sel => Sys2Proof.Machine.execReadyLost sel s
  | .opPointWrite v who => Sys2Proof.Machine.execOpPointWrite v who s
  | .verifyingGate count => Sys2Proof.Machine.execVerifyingGate count s
  | .relockTimeout => Sys2Proof.Machine.execRelockTimeout s
  | .clkmonCtrlWrite v who => Sys2Proof.Machine.execClkmonCtrlWrite v who s
  | .ptpMessage m => Sys2Proof.Machine.execPtpMessage m s
  | .ptpLost => Sys2Proof.Machine.execPtpLost s
  | .timeDiscontinuityClear v who => Sys2Proof.Machine.execTimeDiscontinuityClear v who s
  | .storedRecordWrite ty inst payload who => Sys2Proof.Machine.execStoredRecordWrite ty inst payload who s
  | .recordCommit fails => Sys2Proof.Machine.execRecordCommit s fails
  | .leaseAcquire core both => Sys2Proof.Machine.execLeaseAcquire core both s
  | .leaseRenew core => Sys2Proof.Machine.execLeaseRenew core s
  | .leaseRelease core => Sys2Proof.Machine.execLeaseRelease core s
  | .leaseExpiry => Sys2Proof.Machine.execLeaseExpiry s
  | .leaseUncorrectable => Sys2Proof.Machine.execLeaseUncorrectable s
  | .coldPowerOn b => Sys2Proof.Machine.execColdPowerOn b s
  | .moduleReady selfTestFails => Sys2Proof.Machine.execModuleReady selfTestFails s
  | .safeStateEntry cause => Sys2Proof.Machine.execSafeStateEntry cause s
  | .storeRecalibration stack => Sys2Proof.Machine.execStoreRecalibration stack s
  | .start p who => Sys2Proof.Machine.execStart p who s
  | .stop p who => Sys2Proof.Machine.execStop p who s
  | .rebind p who => Sys2Proof.Machine.execRebind p who s
  | .warmRebind p => Sys2Proof.Machine.execWarmRebind p s
  | .warmRebindStart p => Sys2Proof.Machine.execWarmRebindStart p s
  | .stepTimeout p => Sys2Proof.Machine.execStepTimeout p s
  | .probe reqId => Sys2Proof.Machine.execProbe reqId s
  | .cHello client frag count keyHash nonce => Sys2Proof.Machine.execCHello client frag count keyHash nonce s
  | .cFinish client session pkHash sigOk => Sys2Proof.Machine.execCFinish client session pkHash sigOk s
  | .close h => Sys2Proof.Machine.execClose h s
  | .maunvoRead h index sub offset arg => Sys2Proof.Machine.execMaunvoRead h index sub offset arg s
  | .maunvoWrite h index sub offset total data => Sys2Proof.Machine.execMaunvoWrite h index sub offset total data s
  | .abort h target => Sys2Proof.Machine.execAbort h target s
  | .subscribe h mask => Sys2Proof.Machine.execSubscribe h mask s
  | .eventAck h seq => Sys2Proof.Machine.execEventAck h seq s
  | .ping h => Sys2Proof.Machine.execPing h s
  | .handshakeTimeout client => Sys2Proof.Machine.execHandshakeTimeout client s
  | .idleTimeout session => Sys2Proof.Machine.execIdleTimeout session s
  | .eventResend session => Sys2Proof.Machine.execEventResend session s
  | .segmentGapTimeout session index sub => Sys2Proof.Machine.execSegmentGapTimeout session index sub s
  | .pendingRepeat session reqId => Sys2Proof.Machine.execPendingRepeat session reqId s
  | .i3cRead index sub crcOk => Sys2Proof.Machine.execI3cRead index sub crcOk s
  | .i3cWrite index sub data crcOk => Sys2Proof.Machine.execI3cWrite index sub data crcOk s
  | .i3cReadSegment index sub offset crcOk => Sys2Proof.Machine.execI3cReadSegment index sub offset crcOk s
  | .rwsWrite index sub data who => Sys2Proof.Machine.execRwsWrite index sub data who s
  | .counterRead session index sub => Sys2Proof.Machine.execCounterRead session index sub s
  | .flagEntryRead session index sub => Sys2Proof.Machine.execFlagEntryRead session index sub s
  | .counterWrite index sub v sameCycle who => Sys2Proof.Machine.execCounterWrite index sub v sameCycle who s
  | .snapshotRead => Sys2Proof.Machine.execSnapshotRead s
  | .pmapWrite image who => Sys2Proof.Machine.execPmapWrite image who s
  | .pmapApplyComplete => Sys2Proof.Machine.execPmapApplyComplete s
  | .torusIdentityWrite sub data who => Sys2Proof.Machine.execTorusIdentityWrite sub data who s
  | .serverAddressWrite index sub data who => Sys2Proof.Machine.execServerAddressWrite index sub data who s
  | .dbgRead => Sys2Proof.Machine.execDbgRead s
  | .dbgWrite data who => Sys2Proof.Machine.execDbgWrite data who s
  | .tmuxSelWrite t v who => Sys2Proof.Machine.execTmuxSelWrite t v who s
  | .pinFunctionWrite grp code who => Sys2Proof.Machine.execPinFunctionWrite grp code who s
  | .pinSwitchComplete grp => Sys2Proof.Machine.execPinSwitchComplete grp s
  | .pinSwitchTimeout grp => Sys2Proof.Machine.execPinSwitchTimeout grp s
  | .uartInput ch => Sys2Proof.Machine.execUartInput ch s
  | .tapReset => Sys2Proof.Machine.execTapReset s
  | .extest value => Sys2Proof.Machine.execExtest value s
  | .samplePreload value => Sys2Proof.Machine.execSamplePreload value s
  | .idcode => Sys2Proof.Machine.execIdcode s
  | .clamp => Sys2Proof.Machine.execClamp s
  | .highz => Sys2Proof.Machine.execHighz s
  | .extestPulse value => Sys2Proof.Machine.execExtestPulse value s
  | .extestTrain value => Sys2Proof.Machine.execExtestTrain value s
  | .dieLink value => Sys2Proof.Machine.execDieLink value s
  | .intScan => Sys2Proof.Machine.execIntScan s
  | .intScanEnd => Sys2Proof.Machine.execIntScanEnd s
  | .bypass code => Sys2Proof.Machine.execBypass code s
  | .provisioning pkHash => Sys2Proof.Machine.execProvisioning pkHash s
  | .laneLossOfLight n send pos => Sys2Proof.Machine.execLaneLossOfLight n send pos s
  | .portRetrainTimeout n => Sys2Proof.Machine.execPortRetrainTimeout n s
  | .i3cDynamicAddress addr => Sys2Proof.Machine.execI3cDynamicAddress addr s
  | .icmpv6Message port m => Sys2Proof.Machine.execIcmpv6Message port m s
  | .serverLinkUp port => Sys2Proof.Machine.execServerLinkUp port s
  | .hostLinkUp rate width flit => Sys2Proof.Machine.execHostLinkUp rate width flit s

end Sys2Proof.Machine
end

