-- ==== Sys2Proof/WellFormed.lean ====
section
/-! DEFINITION. Which commands are well formed: every element they name exists, and every field fits its width in the
chapter's table. A command that is well formed never stops the module. -/

namespace Sys2Proof

open Sys2Proof.Machine

/-- Element numbers of the module (Tables 0.2, 6.2, 7.1, 10.1). -/
def clusterOk (c : Nat) : Bool := decide (c < 4096)
def partOk (p : Nat) : Bool := decide (p < 8)
def stackOk (k : Nat) : Bool := decide (k < 24)
def pchOk (k pch : Nat) : Bool := decide (k < 24) && decide (pch < 64)
def uepOk (k p : Nat) : Bool := decide (k < 24) && decide (p < 8)
def portOk (n : Nat) : Bool := decide (n < 256)
def contextOk (c k : Nat) : Bool := decide (k < 4) && decide (c < 4096)
def sideOk (c d : Nat) : Bool := decide (d < 4) && decide (c < 4096)
def queueOk (q : Nat) : Bool := decide (q < 16)
def entryOk (index sub : Nat) : Bool := decide (index < 65536) && decide (sub < 256)

/-- The register pairs of R104. -/
def LoReg.wf : LoReg → Bool
  | .partCycle c => clusterOk c
  | .ctxBytes c k => contextOk c k
  | .committed k p | .applied k p => uepOk k p
  | .localEpoch n | .partnerEpoch n | .peerCommitted n => portOk n

/-- The counters of R105. -/
def RcReg.wf : RcReg → Bool
  | .resEvents c | .memCe c | .memUe c => clusterOk c
  | .ctxPoison c k => contextOk c k
  | .linkEvents slot d => decide (slot < 4224) && decide (d < 4)
  | .stackCe k | .stackUe k | .ueEvents k => stackOk k
  | .untouched k p => uepOk k p
  | .portReplays n | .portCwUncorr n | .portAuthFail n => portOk n

/-- The registers of REGISTER_WRITE. -/
def GenReg.wf : GenReg → Bool
  | .mxFlags c | .vxFlags c | .qzFlags c | .rdFlags c | .sxFlags c | .seqStatus c | .resStatus c | .memStatus c => clusterOk c
  | .clusterWord c _ => clusterOk c
  | .stackStatus k | .ueFlags k | .ueStatus k => stackOk k
  | .storeWord k _ => stackOk k
  | .portReg n _ => portOk n
  | .hqSqBaseLo q | .hqSqBaseHi q | .hqCqBaseLo q | .hqCqBaseHi q | .hqStatus q => queueOk q

/-- Fields of a frame header (Table 10.4). -/
def Frame.wf (f : Frame) : Bool :=
  decide (f.ty < 256) && decide (f.len < 65536) && decide (f.seq < 2 ^ 32) && decide (f.ack < 2 ^ 32)
  && decide (f.creditReq < 65536) && decide (f.flow < 65536) && decide (f.tag < 1024) && decide (f.prio < 8)
  && decide (f.status < 8) && decide (f.gen < 2 ^ 31) && decide (f.creditRsp < 65536)

/-- A frame of a port, with the lane its receiver names (12 lanes carry codewords, Table 10.2). -/
def frameOk (n : Nat) (f : Frame) : Bool := portOk n && Frame.wf f

/-- Fields of a submission queue entry (Table 11.3). -/
def SqEntry.wf (e : SqEntry) : Bool :=
  decide (e.cid < 65536) && decide (e.length < 2 ^ 32) && decide (e.sealSeq < 2 ^ 64) && decide (e.xferId < 2 ^ 32)

/-- Fields of a server datagram (Table 11.6), and the peer it comes from: 0 to 7, or 8 for the export destination. -/
def Dgram.wf (d : Dgram) : Bool :=
  decide (d.part < 8) && decide (d.peer < 9) && decide (d.stack < 256) && decide (d.id < 2 ^ 32) && decide (d.offset < 2 ^ 32)
  && decide (d.pktSeq < 2 ^ 64) && decide (d.keyGen < 2 ^ 32) && decide (d.ackId < 2 ^ 32) && decide (d.data.length ≤ 8192)

/-- Fields of a session message header (Table 17.1). -/
def MHead.wf (h : MHead) : Bool := decide (h.session < 2 ^ 32) && decide (h.pktSeq < 2 ^ 64) && decide (h.reqId < 2 ^ 32)

/-- Is a command well formed? -/
def wellFormed : Instr → Bool
  | .mma c _ | .mmz c _ | .mmaSp c _ => clusterOk c
  | .add c _ | .sub c _ | .mul c _ | .fma c _ | .min c _ | .max c _ | .abs c _ | .neg c _ | .scale2 c _ | .cmp c _
  | .sel c _ | .cvt c _ | .rowmax c _ | .rowsum c _ | .exp c _ | .log c _ | .recip c _ | .sqrt c _ | .rsqrt c _
  | .tanh c _ | .div c _ => clusterOk c
  | .quant c _ | .dequant c _ | .walk c _ | .redAdd c _ | .redAcc c _ | .sumsq c _ | .amax c _ | .satcnt c _
  | .hist c _ => clusterOk c
  | .sstart c | .swait c | .nop c | .loopSet c | .stepMark c | .endQuire c | .arrive c => clusterOk c
  | .tileVerdict c _ | .tileWriteback c | .reductionVerdict c _ | .replayVerdict c _ => clusterOk c
  | .engineLastResult c unit => clusterOk c && decide (unit < 9)
  | .holdDelivered p | .holdReleaseDelivered p | .partitionStartDelivered p | .partitionStopDelivered p
  | .partitionStopped p => partOk p
  | .localStop c _ | .unload c _ => clusterOk c
  | .coreMapWrite c k _ _ => contextOk c k
  | .loRegisterRead r _ => LoReg.wf r
  | .rcCounterRead r _ => RcReg.wf r
  | .registerWrite r _ _ _ => GenReg.wf r
  | .circRegisterWrite c r _ _ _ => clusterOk c && decide (r < 8)
  | .resRegisterWrite c n _ _ _ => clusterOk c && decide (n < 4)
  | .flipRegisterWrite c _ _ _ | .zeroingComplete c | .unscheduledAccess c | .circWaitPass c => clusterOk c
  | .scheduledDeparture c d _ _ | .scheduledLanding c d _ _ | .scheduledFlitArrival c d _ | .elasticFlitSend c d _ _
  | .elasticLanding c d _ _ | .linkLost c d => sideOk c d
  | .elasticCreditReturn c d p => sideOk c d && partOk p
  | .laneMapUpdate slot d i lane => decide (slot < 4224) && decide (d < 4) && decide (i < 16) && decide (lane < 2560)
  | .remapSwitch row a b _ _ => decide (row < 64) && decide (a ≤ 65) && decide (b ≤ 65)
  | .syncArrival o _ _ | .localReleaseDelivered o | .spineGroupArrival o => decide (o < 16384)
  | .spineReleaseDelivered g | .torusReleaseAtRoot g => decide (g < 256)
  | .stretchChange => true
  | .fabricControlWrite addr _ _ => decide (addr < 2 ^ 36)
  | .storeRequestArrival k p => uepOk k p
  | .storeRoundGrant k pch | .storeReadRetry k pch | .storeBurstComplete k pch => pchOk k pch
  | .partPrioWrite p _ _ => partOk p
  | .streamLoad c k | .streamStore c k | .streamReduce c k | .streamSend c k | .streamTimerExpiry c k
  | .streamRequestIssue c k | .streamResponse c k | .streamDescriptorComplete c k | .streamDrainComplete c k => contextOk c k
  | .reduceContribution k pch _ => pchOk k pch
  | .touchedClearDone p => partOk p
  | .normPartial k p _ | .commitArrival k p _ | .exportWaitEnd k p => uepOk k p
  | .commit p | .commitRecordWritten p | .rollForward p _ | .rollBack p _ | .clearStartBlocked p _
  | .idleIntervalEnd p => partOk p
  | .rdReq n f _ => frameOk n f && f.ty == 0x01
  | .rdData n f _ => frameOk n f && f.ty == 0x02
  | .wr n f _ => frameOk n f && f.ty == 0x03
  | .red n f _ => frameOk n f && f.ty == 0x04
  | .sendFrame n f _ => frameOk n f && f.ty == 0x05
  | .resp n f _ => frameOk n f && f.ty == 0x06
  | .stage n f _ => frameOk n f && f.ty == 0x10
  | .commitFrame n f _ => frameOk n f && f.ty == 0x11
  | .ack n f _ => frameOk n f && f.ty == 0x20
  | .nak n f _ => frameOk n f && f.ty == 0x21
  | .timeFrame n f _ _ => frameOk n f && f.ty == 0x22
  | .sessionHello n f | .sessionFinish n f => frameOk n f && f.ty == 0x30
  | .resume n f _ => frameOk n f
  | .nakRepeat n | .replayTimeout n | .frameSend n | .timeSend n | .lossOfLight n | .losTimeout n | .lightReturn n
  | .refusedRetry n | .portRetrainRequest n _ | .portRetrainTimeout n => portOk n
  | .portTrainingDone n _ => portOk n
  | .laneLossOfLight n _ pos => portOk n && decide (pos < 9)
  | .portFlagClear _ _ _ => true
  | .stageEntrySend p g => partOk p && decide (g < 256)
  | .timeParentTimeout | .rootConflictEnd | .noRootTimeout => true
  | .sqTailWrite q _ | .cqHeadWrite q _ | .hqCfgWrite q _ | .entryComplete q | .psPeerTimeout q => queueOk q
  | .bindLoad q e _ _ _ | .sqWrite q e _ _ | .sqRead q e | .ingest q e _ _ | .psPush q e | .psPull q e => queueOk q && SqEntry.wf e
  | .hostLinkDown | .hostReset _ | .perstDeassert => true
  | .hostLinkUp rate width _ => decide (1 ≤ rate) && decide (rate ≤ 6) && [1, 2, 4, 8, 16].contains width
  | .expAck d | .psData d | .psAck d | .keepalive d => Dgram.wf d
  | .serverDatagramSend port slot => decide (port < 2) && decide (slot < 256)
  | .exportRetransmit k p => uepOk k p
  | .exportStallTimeout p => partOk p
  | .serverHandshake p peer _ _ => partOk p && decide (peer < 9)
  | .serverLinkDown port | .serverLinkUp port | .icmpv6Message port _ => decide (port < 2)
  | .retirementRecordCommit => true
  | .retirementClear element _ => decide (element < 2 ^ 64)
  | .enterDebug _ _ | .release _ _ | .retire _ _ | .setSvn _ _ => true
  | .operatorPkWrite pk _ => decide (pk.length ≤ 2592)
  | .ownerIdWrite p _ _ | .ownerZeroingComplete p | .keyDelivery p _ _ => partOk p
  | .attestationReport _ scope => decide (scope < 256)
  | .powerFail | .overvoltage | .overvoltageRecovery => true
  | .steeringPeriod sensors => sensors.all (fun kv => decide (kv.1 < 4096))
  | .outOfRegulation d | .abnormalDrop d => decide (d < 4096)
  | .powerTick _ _ _ | .fastClamp _ _ _ | .thermalTrip _ | .overdriveSave | .coolantSample _ _ _ => true
  | .powerGroupStage g => decide (g < 8)
  | .wakeEntry p | .wakeEvent p _ | .wakeComplete p => partOk p
  | .w4Entry | .w4WakeComplete | .wake _ _ => true
  | .crystalComparison _ | .crystalLost | .verifyingGate _ | .relockTimeout | .clkmonCtrlWrite _ _ | .ptpMessage _ | .ptpLost
  | .timeDiscontinuityClear _ _ => true
  | .phaseFault c d _ => sideOk c d
  | .sourceSwitch x _ | .readyLost x => selExists x
  | .opPointWrite v _ => decide (v < 256)
  | .storedRecordWrite ty inst _ _ => decide (ty < 65536) && decide (inst < 65536)
  | .recordCommit _ => true
  | .leaseAcquire _ _ | .leaseRenew _ | .leaseRelease _ | .leaseExpiry | .leaseUncorrectable => true
  | .coldPowerOn b => decide (b.slot < 128)
  | .moduleReady _ => true
  | .safeStateEntry cause => decide (1 ≤ cause) && decide (cause ≤ 5)
  | .storeRecalibration k => stackOk k
  | .start p _ | .stop p _ | .rebind p _ | .warmRebind p | .warmRebindStart p | .stepTimeout p => partOk p
  | .probe reqId => decide (reqId < 2 ^ 32)
  | .cHello _ frag count _ _ => decide (frag < 16) && decide (count < 16)
  | .cFinish _ session _ _ => decide (session < 2 ^ 32)
  | .close h | .ping h | .subscribe h _ | .eventAck h _ | .abort h _ => MHead.wf h
  | .maunvoRead h index sub offset _ => MHead.wf h && entryOk index sub && decide (offset < 2 ^ 32)
  | .maunvoWrite h index sub offset total _ => MHead.wf h && entryOk index sub && decide (offset < 2 ^ 32) && decide (total < 2 ^ 32)
  | .handshakeTimeout _ | .idleTimeout _ | .eventResend _ | .pendingRepeat _ _ => true
  | .segmentGapTimeout _ index sub => entryOk index sub
  | .i3cRead index sub _ | .i3cWrite index sub _ _ => entryOk index sub
  | .i3cReadSegment index sub offset _ => entryOk index sub && decide (offset < 2 ^ 32)
  | .i3cDynamicAddress addr => decide (addr < 128)
  | .rwsWrite index sub _ _ | .counterRead _ index sub | .flagEntryRead _ index sub | .counterWrite index sub _ _ _ => entryOk index sub
  | .snapshotRead | .pmapWrite _ _ | .pmapApplyComplete => true
  | .torusIdentityWrite sub _ _ => entryOk 0x3800 sub
  | .serverAddressWrite index sub _ _ => entryOk index sub
  | .dbgRead | .dbgWrite _ _ => true
  | .tmuxSelWrite t v _ => decide (t < 8) && decide (v < 65536)
  | .pinFunctionWrite grp code _ => decide (1 ≤ grp) && decide (grp ≤ 5) && decide (code < 256)
  | .pinSwitchComplete grp | .pinSwitchTimeout grp => decide (1 ≤ grp) && decide (grp ≤ 5)
  | .uartInput _ | .tapReset | .extest _ | .samplePreload _ | .idcode | .clamp | .highz | .extestPulse _ | .extestTrain _
  | .dieLink _ | .intScan | .intScanEnd | .bypass _ | .provisioning _ => true

end Sys2Proof
end

