-- ==== Sys2Proof/Safety.lean ====
section
/-! DEFINITION. What counts as a safe run, in the terms claims use: steps that answer a next state, and the forms of the state that
every step keeps. -/

namespace Sys2Proof.Machine

open Sys2Proof

/-- The module goes on. -/
def Goes (a : Answer) : Prop := ∃ t, a = .next t

/-- The bank words, the byte-coded memories and the store are in the canonical form. -/
def MemOk (s : State) : Prop :=
  Memory.wf s.cmem = true ∧ Memory.wf s.qmem = true ∧ Memory.wf s.smem = true

/-- The RETIRED fuse and the lifecycle state agree: a module with the fuse blown is RETIRED (R372). -/
def Trust.RetiredRight (t : Trust) : Prop := t.retiredFuse = true → t.lifecycle = 4

end Sys2Proof.Machine
end

