-- ==== Sys2Proof/Certificates/Slice0/Obligations.lean ====
section
/-! DEFINITION. The statements for the provers. Helpers of the statements stand first, in the namespace Claims; each
statement's docstring names the rules it formalises or the choice it rests on. -/

namespace Sys2Proof.Claims

open Sys2Proof Sys2Proof.Machine

/-- The state of the issue cycle of descriptor d, which the command finds next: every access the engines of the cluster have issued
up to it has been performed (R88, R111). -/
def atIssue (s : State) (c : Nat) (d : Desc) : State :=
  (s.settle c).toCycle c (((s.settle c).cluster c).seq.dueFor d)

/-- Descriptor d is the one the sequencer of cluster c issues next: its partition runs unheld, quire memory gives d, its wait
tests pass, and in its issue cycle the sequencer still goes on and d is valid (R86, R88, R90, R92). -/
def Issues (s : State) (c : Nat) (d : Desc) : Prop :=
  (s.settle c).canIssue c = true ∧ (s.settle c).fetchDesc c ((s.settle c).cluster c).seq.pc = some d
    ∧ (s.settle c).issueTests c d = true ∧ (atIssue s c d).canIssue c = true
    ∧ descInvalid ((atIssue s c d).cluster c) ((atIssue s c d).walkKept c d) d = false

/-- The state in which the operation of d begins. -/
def begun (s : State) (c : Nat) (d : Desc) : State := (atIssue s c d).beginIssue c

/-- Bank words, byte-coded memories, the store, the partition map and the waiting commands as they were. -/
def Kept (s t : State) : Prop :=
  t.cmem = s.cmem ∧ t.qmem = s.qmem ∧ t.smem = s.smem ∧ t.pmap = s.pmap ∧ t.pending = s.pending

/-- Queue of a unit with room (R79). -/
def HasRoom (u : State) (c unit : Nat) : Prop := u.queueLen c unit < 4

/-- Operation o goes into its engine in cluster c, behind those that are there. -/
def queued (u : State) (c : Nat) (o : EngOp) : State := u.modCluster c (fun x => { x with ops := x.ops ++ [o] })

/-- The commands of the streaming engines with the unit, opcode and SUBOP each issues (Tables 3.3, 3.5). -/
def streamCommands (c : Nat) (h : Hap) : List (Instr × Nat × Nat × Option Nat) :=
  [(.add c h, 2, 0x20, none), (.sub c h, 2, 0x21, none), (.mul c h, 2, 0x22, none), (.fma c h, 2, 0x23, none),
   (.min c h, 2, 0x24, some 0), (.max c h, 2, 0x24, some 1), (.abs c h, 2, 0x25, some 0), (.neg c h, 2, 0x25, some 1),
   (.scale2 c h, 2, 0x26, none), (.cmp c h, 2, 0x27, none), (.sel c h, 2, 0x28, none), (.cvt c h, 2, 0x29, none),
   (.rowmax c h, 2, 0x2A, none), (.rowsum c h, 2, 0x2B, none), (.exp c h, 2, 0x30, none), (.log c h, 2, 0x31, none),
   (.recip c h, 2, 0x32, none), (.sqrt c h, 2, 0x33, none), (.rsqrt c h, 2, 0x34, none), (.tanh c h, 2, 0x35, none),
   (.div c h, 2, 0x36, none), (.dequant c h, 3, 0x41, none), (.redAdd c h, 5, 0x60, none), (.redAcc c h, 5, 0x61, none),
   (.sumsq c h, 6, 0x70, none), (.amax c h, 6, 0x71, none), (.satcnt c h, 6, 0x72, none), (.hist c h, 6, 0x73, none)]

/-- Elements per cycle and latency of the streaming operations: unit, opcode, rate for FP32 operands, rate for BF16 operands, latency
(Tables 3.3, 3.5). -/
def streamTable : List (Nat × Nat × Nat × Nat × Nat) :=
  [(2, 0x20, 64, 128, 4), (2, 0x21, 64, 128, 4), (2, 0x22, 64, 128, 4), (2, 0x23, 64, 128, 5), (2, 0x24, 64, 128, 2),
   (2, 0x25, 64, 128, 2), (2, 0x26, 64, 128, 2), (2, 0x27, 64, 128, 2), (2, 0x28, 64, 128, 2), (2, 0x29, 64, 128, 3),
   (2, 0x2A, 64, 128, 8), (2, 0x2B, 64, 128, 8), (2, 0x30, 16, 16, 12), (2, 0x31, 16, 16, 12), (2, 0x32, 16, 16, 12),
   (2, 0x33, 16, 16, 12), (2, 0x34, 16, 16, 12), (2, 0x35, 16, 16, 12), (2, 0x36, 8, 8, 18), (3, 0x40, 256, 256, 8),
   (3, 0x41, 256, 256, 6), (5, 0x60, 64, 64, 70), (5, 0x61, 64, 64, 70), (6, 0x70, 64, 128, 8), (6, 0x71, 64, 128, 4),
   (6, 0x72, 64, 128, 4), (6, 0x73, 64, 128, 10)]

/-- What LOOP_SET leaves in its counter (Table 3.10, R87). -/
def loopOf (d : Desc) : Loop :=
  ⟨d.count, 0, [BitVec.ofNat 24 (d.addr 0), BitVec.ofNat 24 (d.addr 1), BitVec.ofNat 24 (d.addr 2), BitVec.ofNat 24 (d.addr 3),
    BitVec.ofNat 24 (d.addr 4)], true⟩

/-- The words that reads of a slot take from the banks, in the order of their cycles. -/
def wordsRead (o : EngOp) (slot : Nat) : List Nat :=
  ((o.reads.filter (fun b => b.slot == slot)).map (fun b => match b.src with
    | .words ws => ws
    | .lines _ _ _ => [])).flatten

/-- The result words of a slot that writes take, with the bank word each goes to, in the order of their cycles. -/
def wordsWritten (o : EngOp) (slot : Nat) : List (Nat × Dest) :=
  ((o.writes.filter (fun b => b.slot == slot)).map (fun b => (List.range b.n).map (fun i => (b.off + i, match b.dst with
    | .addr a => Dest.addr (a + i)
    | .circ r => .circ r)))).flatten

/-- Every word an operation reads of its source slots has been delivered. -/
def AllIn (d : Desc) (ins : SMap (List PWord)) : Prop :=
  ∀ x ∈ sourceFlows d, (insOf ins x.slot).length = x.words (opElems d)

/-- The elements of a slot, all delivered. -/
def allElts (d : Desc) (ins : SMap (List PWord)) (j : Nat) : List Elt :=
  (elemsOf (d.fmt j) (insOf ins j) (32 * d.count)).map (eltOf (d.fmt j))

end Sys2Proof.Claims

open Sys2Proof Sys2Proof.Machine Sys2Proof.Claims

/-! The cluster: engines and sequencer (chapter 3). -/

/-- R78, R79, R88: an engine descriptor that issues, whatever befalls its accesses later, puts its operation into its engine, with its
reads and writes to come, where fewer than four wait; then the arrival sent at issue and the next index follow. A fifth waiting
operation is a QUEUE_OVERRUN. -/
def Sys2Proof.Claims.EngineIssueEffects : Prop :=
  ∀ (s : State) (c : Nat) (h : Hap) (d : Desc) (i : Instr) (unit op : Nat) (sub : Option Nat), c < 4096 → Issues s c d →
    (i, unit, op, sub) ∈ streamCommands c h → d.unit = unit → d.opcode = op → (∀ v, sub = some v → d.subop = v) →
    let u := begun s c d
    (HasRoom u c unit →
      exec i s = .next ((queued u c { u.streamIssued c d with hap := if h = .residue ∧ unit = 5 then .clean else h }).finishIssue c d))
    ∧ (¬HasRoom u c unit → ∃ t, exec i s = .next t ∧ (t.cluster c).seq.state = .fault ∧ (t.cluster c).seq.cause = 0x02
        ∧ (t.cluster c).seq.causeDesc = d.index ∧ (t.cluster c).ops = (u.cluster c).ops ∧ Kept u t)

/-- R78, R79, R109: the schedule of a streaming operation that issues in cycle `now`: F is the issue cycle plus the largest read latency
of its slots, or the cycle after the last input of its unit's previous operation if that is later; its elements come at its rate, and
its last result is presented its latency after its last input. A slot that lies in the banks is read word by word, each once, in
order; every result word is written once, in order, none before F and the latency and none after the last cycle. -/
def Sys2Proof.Claims.StreamSchedule : Prop :=
  ∀ (s : State) (c : Nat) (d : Desc) (r32 r16 lat : Nat), (d.unit, d.opcode, r32, r16, lat) ∈ streamTable →
    let o := s.streamIssued c d
    let n := 32 * d.count
    let rate := if (d.unit = 2 ∧ ∀ j ∈ vectorSources d.opcode, d.fmt j = 1) ∨ (d.unit = 6 ∧ d.fmt 0 = 1) then r16 else r32
    let rd := streamLat (s.cluster c) d
    o.f = max (s.partCycleOf c + rd) (max rd (s.earliestF c d.unit))
    ∧ (0 < n → o.inLast + 1 = o.f + (n + rate - 1) / rate ∧ o.last = o.inLast + lat)
    ∧ (∀ x ∈ sourceFlows d, ∀ a, slotAt (s.cluster c) d x.slot = .mem a →
        wordsRead o x.slot = (List.range (x.words n)).map (a + ·))
    ∧ (∀ j ∈ destSlots d, 0 < n → ∀ a, slotAt (s.cluster c) d j = .mem a →
        wordsWritten o j = (List.range (outTotal d j n)).map (fun k => (k, Dest.addr (a + k))))
    ∧ (∀ b ∈ o.writes, o.f + lat ≤ b.cyc ∧ b.cyc ≤ o.last)

/-- Table 3.3, Table 3.5, R49, R57, R80 to R84: the result words of an operation once its operands are in: one code per element, or
one FP32 word, count or set of bins per group; each result poisoned where an operand it comes from is, and the flags those of its
elements together. -/
def Sys2Proof.Claims.OperationResults : Prop :=
  ∀ (d : Desc) (o : EngOp), o.ws = d.ws → o.desc = d.index → o.unit = d.unit → o.opcode = d.opcode → o.hap ≠ .residue →
    AllIn d o.ins → 0 < d.count →
    let xs := allElts d o.ins
    let n := 32 * d.count
    (d.unit = 2 → isGrouped d.opcode = false →
      let none_ : Elt := ⟨.zero false, 0, false⟩
      let rs := (List.range n).map (fun i =>
        let x := (xs 0).getD i none_
        let y := if (vectorSources d.opcode).contains 1 then (xs 1).getD i none_ else none_
        let z := if (vectorSources d.opcode).contains 3 then (xs 3).getD i none_ else none_
        let r := vectorElt d.opcode d.subop (d.fmt 2) x y z
        (⟨r.1, r.2, x.poison || y.poison || z.poison⟩ : RElt))
      o.compute = ([(2, packResults (d.fmt 2) rs)], flagsOf rs))
    ∧ (d.unit = 2 → d.opcode = 0x2A ∨ d.opcode = 0x2B → 0 < d.subop → d.count % d.subop = 0 →
      let rs := (pieces (32 * d.subop) (xs 0)).map (vectorRow d.opcode)
      o.compute = ([(2, packResults 0 rs)], flagsOf rs) ∧ rs.length = d.count / d.subop)
    ∧ (d.unit = 3 → d.opcode = 0x40 → fmtScaled (d.fmt 2) = false →
      let q := quantFloat (d.fmt 2) (d.rnd 2) o.seed (xs 0)
      o.compute = ([(2, packCodes (d.fmt 2) q.1)], q.2.1))
    ∧ (d.unit = 3 → d.opcode = 0x40 → fmtScaled (d.fmt 2) = true →
      let q := quantBlocks (fmtBlock (d.fmt 2)) (d.smode 2 && d.fmt 2 == 5) (d.rnd 2) o.seed (pieces 32 (xs 0))
      o.compute = ([(2, packCodes (d.fmt 2) q.2.1), (3, packCodes 6 q.1)], q.2.2.1) ∧ q.1.length = d.count)
    ∧ (d.unit = 3 → d.opcode = 0x41 →
      let rs := (elemsOf (d.fmt 0) (insOf o.ins 0) n).zipIdx.map (fun ei =>
        dequantElt (d.fmt 0) (d.fmt 2) (elemsOf 6 (insOf o.ins 3) d.count) ei.2 ei.1)
      o.compute = ([(2, packResults (d.fmt 2) rs)], flagsOf rs))
    ∧ (d.unit = 4 →
      let kept := (walkMasks (insOf o.ins 0) (insOf o.ins 1)).1
      o.compute = ([(2, indexBuffer kept (((insOf o.ins 0) ++ (insOf o.ins 1)).any PWord.poison))], 0)
      ∧ (∀ ch, ch ∈ kept ↔ ch < n ∧ (∀ j, j < 2 → ((insOf o.ins j).getD (ch / 32) ⟨0, true⟩).poison = false
          ∧ ((insOf o.ins j).getD (ch / 32) ⟨0, true⟩).w.getLsbD (ch % 32) = true)))
    ∧ (d.unit = 5 →
      let rs := vectorResults 0x20 0 (d.fmt 2) (xs (if d.opcode = 0x61 then 2 else 0)) (xs 1) []
      o.compute = ([(2, packResults (d.fmt 2) rs)], flagsOf rs) ∧ rs.length = n)
    ∧ (d.unit = 6 → d.opcode = 0x72 →
      o.compute = ([(2, [⟨if (xs 0).any Elt.poison then 0
          else BitVec.ofNat 32 ((xs 0).countP (fun e => satCounts d.subop e.num)), (xs 0).any Elt.poison⟩])], 0))
    ∧ (d.unit = 6 → d.opcode = 0x70 ∨ d.opcode = 0x71 → 0 < d.subop → d.count % d.subop = 0 →
      let rs := (pieces (32 * d.subop) (xs 0)).map (if d.opcode = 0x70 then sumSqGroup else amaxGroup)
      o.compute = ([(2, packResults 7 rs)], flagsOf rs) ∧ rs.length = d.count / d.subop)
    ∧ (d.unit = 6 → d.opcode = 0x73 → 0 < d.subop → d.count % d.subop = 0 →
      let rs := ((pieces (32 * d.subop) (xs 0)).map histGroup).flatten
      o.compute = ([(2, packResults 7 rs)], flagsOf rs) ∧ rs.length = 64 * (d.count / d.subop))

/-- R49, R50, R80: operations on special values: a NaN operand gives the canonical NaN with NV alone, but a compare gives +0 with NV;
MIN and MAX order -0 below +0; SQRT of a negative number is NaN with NV and of a zero is that zero. -/
def Sys2Proof.Claims.SpecialOperands : Prop :=
  ∀ (op sub f : Nat) (x y z : Elt), f ≤ 1 →
    (op ∈ [0x20, 0x21, 0x22, 0x24] → x.num.isNan = true ∨ y.num.isNan = true →
      vectorElt op sub f x y z = ((fmtFloat f).nanCode, flNV))
    ∧ (op ∈ [0x23, 0x28] → x.num.isNan = true ∨ y.num.isNan = true ∨ z.num.isNan = true →
      vectorElt op sub f x y z = ((fmtFloat f).nanCode, flNV))
    ∧ (x.num.isNan = true ∨ y.num.isNan = true → vectorElt 0x27 sub f x y z = (0, flNV))
    ∧ (x.num = .zero true → y.num = .zero false →
      vectorElt 0x24 0 f x y z = vectorElt 0x24 0 f y x z ∧ (vectorElt 0x24 0 f x y z).1 = 2 ^ (if f = 1 then 15 else 31)
        ∧ vectorElt 0x24 1 f x y z = (0, 0) ∧ vectorElt 0x24 1 f y x z = (0, 0))
    ∧ (x.num.isNan = false → x.num.isZero = false → x.num.neg = true → vectorElt 0x33 sub f x y z = ((fmtFloat f).nanCode, flNV))
    ∧ (x.num = .zero false → vectorElt 0x33 sub f x y z = (0, 0))

/-- R57, R58: a QUANT that issues starts from the generator of local context CTX, which its draws then advance, one draw of 16 shifts for
each element it rounds stochastically (its draws at issue are DEDUCED, log entry 160). -/
def Sys2Proof.Claims.QuantiserIssue : Prop :=
  ∀ (s : State) (c : Nat) (h : Hap) (d : Desc), c < 4096 → Issues s c d → d.unit = 3 → d.opcode = 0x40 → HasRoom (begun s c d) c 3 →
    let u := begun s c d
    ∃ t, exec (.quant c h) s = .next (t.finishIssue c d)
      ∧ t.cluster c = (queued u c { u.streamIssued c d with seed := u.gen c d.ctx, hap := h }).cluster c
      ∧ t.gen c d.ctx = lfsrIter (if d.rnd 2 then 16 * (32 * d.count) else 0) (u.gen c d.ctx)
      ∧ (∀ k, k ≠ d.ctx → t.gen c k = u.gen c k) ∧ Kept u t

/-- R72, R74, R77, R79: MMA and MMZ put a tile into the matrix array: T is KCHUNKS times the cycles per chunk of its formats; C is
written from F + T + 74 over 8 cycles, each word once, in order; MMZ does not read C; one poisoned operand word poisons every element. -/
def Sys2Proof.Claims.MatrixIssue : Prop :=
  ∀ (s : State) (c : Nat) (h : Hap) (d : Desc) (useC : Bool), c < 4096 → Issues s c d → HasRoom (begun s c d) c 1 →
    d.unit = 1 → d.opcode = (if useC then 0x10 else 0x11) →
    let u := begun s c d
    ∃ o, exec (if useC then .mma c h else .mmz c h) s = .next ((queued u c o).finishIssue c d)
      ∧ o.unit = 1 ∧ o.opcode = d.opcode ∧ o.desc = d.index ∧ o.stage = .computing ∧ o.mismatches = 0 ∧ o.ins = []
      ∧ o.gens = [u.gen c 0, u.gen c 1, u.gen c 2, u.gen c 3]
      ∧ o.t = d.count * (if d.fmt 0 = 5 then 2 else if d.fmt 0 = 4 then 4 else if d.fmt 0 = 1 then 16 else 8)
      ∧ o.last = o.f + o.t + 81 ∧ u.partCycleOf c < o.f ∧ u.earliestF c 1 ≤ o.f
      ∧ (∀ a, slotAt (u.cluster c) d 2 = .mem a →
          wordsWritten o 2 = (List.range (fmtWords (d.fmt 2) 2048)).map (fun k => (k, Dest.addr (a + k)))
          ∧ wordsRead o 2 = if useC then (List.range (fmtWords (d.fmt 2) 2048)).map (a + ·) else [])
      ∧ (∀ b ∈ o.writes, o.f + o.t + 74 ≤ b.cyc ∧ b.cyc ≤ o.last)
      ∧ (∀ ins w, (∃ j, j < 5 ∧ w ∈ insOf ins j) → w.poison = true →
          ∀ v ∈ insOf (tileOut d none ins).1 2, v.poison = true)

/-- R140 to R149: WALK puts its operation into the walker and becomes the cluster's most recent walk; an MMA_SP without one faults with
0x0B; one whose sound index does not fit the tile faults with 0x0C; any other becomes a tile of the chunks its index lists, with T of
R145. One that issues before the cycle R143 allows has a C of free values (DESIGN CHOICE, log entry 32). -/
def Sys2Proof.Claims.SparseIssue : Prop :=
  ∀ (s : State) (c : Nat) (h : Hap) (d : Desc), c < 4096 → Issues s c d →
    let u := begun s c d
    (d.unit = 4 → d.opcode = 0x50 → HasRoom u c 4 →
      let o := { u.streamIssued c d with hap := if h = .residue then .clean else h }
      exec (.walk c h) s = .next (((queued u c o).modCluster c (fun x => { x with
        walk := some ⟨effAddr (u.cluster c).seq d 2, effAddr (u.cluster c).seq d 0, effAddr (u.cluster c).seq d 1, d.count, o.last⟩
          })).finishIssue c d))
    ∧ (d.unit = 1 → d.opcode = 0x12 → (u.cluster c).walk = none →
      ∃ t, exec (.mmaSp c h) s = .next t ∧ (t.cluster c).seq.state = .fault ∧ (t.cluster c).seq.cause = 0x0B
        ∧ (t.cluster c).seq.causeDesc = d.index ∧ (t.cluster c).ops = (u.cluster c).ops ∧ Kept u t)
    ∧ (∀ w, d.unit = 1 → d.opcode = 0x12 → (u.cluster c).walk = some w →
      let x := (u.readIndex c w d.count).1
      (x.unfit d.count = true → ∃ t, exec (.mmaSp c h) s = .next t ∧ (t.cluster c).seq.state = .fault
        ∧ (t.cluster c).seq.cause = 0x0C ∧ (t.cluster c).seq.causeDesc = d.index ∧ Kept u t)
      ∧ (x.unfit d.count = false → HasRoom u c 1 →
        ∃ t o sp, exec (.mmaSp c h) s = .next (t.finishIssue c d) ∧ Kept u t ∧ (t.cluster c).ops = (u.cluster c).ops ++ [o]
          ∧ (t.cluster c).seq = (u.cluster c).seq
          ∧ o.unit = 1 ∧ o.desc = d.index ∧ o.stage = .computing ∧ o.sparse = some sp
          ∧ o.t = max (min x.n d.count) ((d.count + 7) / 8)
              * (if d.fmt 0 = 5 then 2 else if d.fmt 0 = 4 then 4 else if d.fmt 0 = 1 then 16 else 8)
          ∧ u.partCycleOf c + readLat w.addr + 1 < o.f ∧ o.last = o.f + o.t + 81
          ∧ sp.kept = x.kept d.count ∧ sp.parity = x.parity ∧ sp.poison = x.poison
          ∧ sp.early = decide (u.partCycleOf c ≤ w.last)
          ∧ (sp.kept = [] → ∀ j, j ≠ 2 → wordsRead o j = [])))

/-- Table 3.10 and R92: what the sequencer unit's own operations and those of the stream unit do at issue: NOP and ARRIVE nothing
of their own, LOOP_SET sets its counter, STEP_MARK loads N and reseeds the four generators, SSTART counts one start event, SWAIT
nothing once it issues, END is DONE with no engine working. -/
def Sys2Proof.Claims.SequencerOperations : Prop :=
  ∀ (s : State) (c : Nat) (d : Desc), c < 4096 → Issues s c d →
    let u := begun s c d
    (d.unit = 0 ∨ d.unit = 8 → d.opcode = 0x00 → exec (.nop c) s = .next (u.finishIssue c d))
    ∧ (d.unit = 0 ∨ d.unit = 8 → d.opcode = 0x04 → exec (.arrive c) s = .next (u.finishIssue c d))
    ∧ (d.unit = 7 → d.opcode = 0x81 → exec (.swait c) s = .next (u.finishIssue c d))
    ∧ (d.unit = 7 → d.opcode = 0x80 → (u.ctx c d.ctx).pendStart < 15 →
      exec (.sstart c) s = .next ((u.modCtx c d.ctx (fun y => { y with pendStart := y.pendStart + 1 })).finishIssue c d))
    ∧ (d.unit = 7 → d.opcode = 0x80 → 15 ≤ (u.ctx c d.ctx).pendStart → (u.ctx c d.ctx).state ≠ 3 → ∃ t, exec (.sstart c) s = .next t
        ∧ (t.ctx c d.ctx).state = 3 ∧ (t.ctx c d.ctx).haltCause = 5 ∧ (t.cluster c).seq.state = .fault
        ∧ (t.cluster c).seq.cause = 0x06 ∧ Kept u t)
    ∧ (d.unit = 0 → d.opcode = 0x01 → ∃ v, exec (.loopSet c) s = .next (v.finishIssue c d)
        ∧ (v.cluster c).seq = { (u.cluster c).seq with loops := mapSet loopD (u.cluster c).seq.loops d.loopSel (loopOf d) }
        ∧ Kept u v)
    ∧ (d.unit = 0 → d.opcode = 0x02 → ∃ v, exec (.stepMark c) s = .next (v.finishIssue c d)
        ∧ (v.cluster c).seq = { (u.cluster c).seq with stepN := u.stepOf (partNo (u.ownerOf c)) }
        ∧ (∀ k, k < 4 → v.gen c k = lfsrSeed (u.ctx c k).seed (u.stepOf (partNo (u.ownerOf c))))
        ∧ Kept u v)
    ∧ (d.unit = 0 → d.opcode = 0x03 → (u.cluster c).ops = [] → d.arriveEn = false → d.loopEnd = false → d.index < 4095 →
      ∃ t, exec (.endQuire c) s = .next t ∧ (t.cluster c).seq.state = .done ∧ (t.cluster c).seq.ending = false
        ∧ (t.cluster c).seq.pc = d.index + 1 ∧ Kept u t)
    ∧ (d.unit = 0 → d.opcode = 0x03 → (u.cluster c).ops ≠ [] → d.arriveEn = false → d.loopEnd = false → d.index < 4095 →
      ∃ t, exec (.endQuire c) s = .next t ∧ (t.cluster c).seq.state = .run ∧ (t.cluster c).seq.ending = true
        ∧ (t.cluster c).ops = (u.cluster c).ops ∧ Kept u t)

/-- R89, R91: after a descriptor without an arrival issues, the next is LOOP_TARGET while iterations remain, else the following
index with ITER back at 0; after descriptor 4,095 the sequencer faults with DESC_INVALID. -/
def Sys2Proof.Claims.NextDescriptor : Prop :=
  ∀ (s : State) (c : Nat) (d : Desc), (s.cluster c).seq.state ≠ .fault → d.arriveEn = false →
    let l := mapGet loopD (s.cluster c).seq.loops d.loopSel
    let q := ((s.finishIssue c d).cluster c).seq
    (d.loopEnd = true → l.set = true → l.iter + 1 < l.count →
      q.pc = d.target ∧ (mapGet loopD q.loops d.loopSel).iter = l.iter + 1)
    ∧ (d.loopEnd = true → ¬(l.set = true ∧ l.iter + 1 < l.count) → d.index < 4095 →
      q.pc = d.index + 1 ∧ (mapGet loopD q.loops d.loopSel).iter = 0)
    ∧ (d.loopEnd = false → d.index < 4095 → q.pc = d.index + 1)
    ∧ (d.loopEnd = false → d.index = 4095 → ¬(d.unit = 0 ∧ d.opcode = 0x03) →
      q.state = .fault ∧ q.cause = 1 ∧ q.causeDesc = 4095)

/-- R86, R90, R92, Table 3.12: a descriptor that is invalid in its issue cycle and one whose quire words are uncorrectable put the
sequencer into FAULT with their causes, whichever command comes; one whose wait test fails puts it into WAIT. -/
def Sys2Proof.Claims.DescriptorFaults : Prop :=
  ∀ (s : State) (c : Nat), c < 4096 → (s.settle c).canIssue c = true →
    let q := ((s.settle c).cluster c).seq
    ((s.settle c).fetchDesc c q.pc = none → ∃ t, exec (.nop c) s = .next t ∧ (t.cluster c).seq.state = .fault
        ∧ (t.cluster c).seq.cause = 0x03 ∧ (t.cluster c).seq.causeDesc = q.pc)
    ∧ (∀ d i unit op sub, (i, unit, op, sub) ∈ (.nop c, 0, 0, none) :: streamCommands c .clean →
        (s.settle c).fetchDesc c q.pc = some d → (s.settle c).issueTests c d = true → (atIssue s c d).canIssue c = true →
        d.unit = unit → d.opcode = op → (∀ v, sub = some v → d.subop = v) →
        descInvalid ((atIssue s c d).cluster c) ((atIssue s c d).walkKept c d) d = true →
        ∃ t, exec i s = .next t ∧ (t.cluster c).seq.state = .fault ∧ (t.cluster c).seq.cause = 0x01
          ∧ (t.cluster c).seq.causeDesc = d.index ∧ Kept (atIssue s c d) t)
    ∧ (∀ d i unit op sub, (i, unit, op, sub) ∈ (.nop c, 0, 0, none) :: (.swait c, 7, 0x81, none) :: streamCommands c .clean →
        (s.settle c).fetchDesc c q.pc = some d → (s.settle c).issueTests c d = false →
        d.unit = unit → d.opcode = op → (∀ v, sub = some v → d.subop = v) →
        exec i s = .next ((s.settle c).modCluster c (fun x => { x with seq := { x.seq with state := .wait } })))
    ∧ (∀ cl kept (d : Desc), d.delta = 0 ∨ d.index < d.target ∨ (1 ≤ d.unit ∧ d.unit ≤ 6 ∧ d.count = 0) ∨ 8 < d.unit →
        descInvalid cl kept d = true)

/-- R109, R111, R112, R118, R119, R350: the accesses of one cycle. A read takes its words from the banks as they stand, or whole lines
at the tail of a region that passes its test; a failed test delivers poison and faults with CIRC_UNDERRUN. A line lost to a bank
conflict faults with BANK_CONFLICT; one whose parity fails on a read is poison. Words written in a cycle, to distinct addresses and
with the flip mask disarmed, are read back as written, and every other word reads as before. -/
def Sys2Proof.Claims.AccessesOfACycle : Prop :=
  ∀ (s : State) (c i : Nat) (o : EngOp) (b : ReadBeat) (ok : Nat → Bool), (s.cluster c).ops[i]? = some o →
    (∀ ws, b.src = .words ws → o.hap = .clean →
      let t := s.doRead c i o b ok
      (t.cluster c).ops = listMod (s.cluster c).ops i (fun y => { y with
          reads := y.reads.filter (fun z => z != b), ins := mapMod wordsD y.ins b.slot (· ++ ws.map (s.peekWord c)) })
        ∧ Kept s t ∧ ∀ k, k ≠ c → t.cluster k = s.cluster k)
    ∧ (∀ r n sel, b.src = .lines r n sel → o.hap = .clean → ok r = true → o.unit ≠ 1 →
      let q := (s.cluster c).region r
      let t := s.doRead c i o b ok
      (t.cluster c).ops = listMod (s.cluster c).ops i (fun y => { y with
          reads := y.reads.filter (fun z => z != b)
          ins := mapMod wordsD y.ins b.slot (· ++ sel.map (fun k => s.peekWord c (q.wordAt (q.tail.toNat + k)))) })
        ∧ ((t.cluster c).region r).tail = q.tail + BitVec.ofNat 24 (4 * n) ∧ ((t.cluster c).region r).head = q.head ∧ Kept s t)
    ∧ (∀ r n sel, b.src = .lines r n sel → ok r = false → (s.cluster c).seq.state ≠ .fault →
      let t := s.doRead c i o b ok
      (t.cluster c).seq.state = .fault ∧ (t.cluster c).seq.cause = 0x0A ∧ (t.cluster c).seq.causeDesc = o.desc
        ∧ (t.cluster c).mem.circFault = true ∧ ((t.cluster c).region r).tail = ((s.cluster c).region r).tail)
    ∧ (∀ sl line at_ off delay vs, (o.hap = .bankConflict sl line → lineIn sl line at_ off vs.length = true →
        (s.cluster c).seq.state ≠ .fault →
        let t := (s.befallRead c o at_ off delay vs).2
        (t.cluster c).seq.state = .fault ∧ (t.cluster c).seq.cause = 0x08 ∧ (t.cluster c).seq.causeDesc = o.desc
          ∧ (t.cluster c).mem.conflict = true ∧ (s.befallRead c o at_ off delay vs).1.length = vs.length)
      ∧ (o.hap = .xbarRead sl line → (s.befallRead c o at_ off delay vs).1
          = vs.zipIdx.map (fun v => if at_ = sl ∧ (off + v.2) / 4 = line then ⟨0, true⟩ else v.1)))

/-- R109, R126, R127, R129: words written in one cycle to distinct bank words, with the flip mask disarmed, are read back as they were
written, and every other word of every cluster reads as before, with its check bits. -/
def Sys2Proof.Claims.WrittenWordsReadBack : Prop :=
  ∀ (s : State) (c : Nat) (ws : List (Nat × PWord)), (s.cluster c).flip.arm = false → (ws.map Prod.fst).Nodup →
    (∀ x ∈ ws, x.1 < 0xA00000) →
    let t := s.writeCycle c ws
    (∀ x ∈ ws, t.peekWord c x.1 = if x.2.poison then ⟨0, true⟩ else x.2)
    ∧ (∀ k w, w < 2 ^ 24 → ¬(k = c ∧ w ∈ ws.map Prod.fst) → t.rawWord k w = s.rawWord k w)
    ∧ t.qmem = s.qmem ∧ t.clusters = s.clusters

/-- R102, R350: a residue error of an engine without replay poisons every result word, counts, and faults the cluster with
RESIDUE_NOREPLAY (in the cycle of its first result: DESIGN CHOICE, log entry 158); a write whose parity fails, and one lost to a bank
conflict, is not performed and faults the cluster. -/
def Sys2Proof.Claims.CheckedErrors : Prop :=
  ∀ (s : State) (c : Nat) (o : EngOp), (s.cluster c).seq.state ≠ .fault →
    (o.hap = .residue → ∀ kv ∈ o.compute.1, ∀ v ∈ kv.2, v = ⟨0, true⟩)
    ∧ (let t := s.engineError c o
       (t.cluster c).seq.state = .fault ∧ (t.cluster c).seq.cause = 0x05 ∧ (t.cluster c).seq.causeDesc = o.desc
         ∧ (t.cluster c).res.otherMismatch = true ∧ (t.cluster c).res.events = satInc 16 (s.cluster c).res.events ∧ Kept s t)
    ∧ (∀ sl line b delay, lineIn sl line b.slot b.off b.n = true → o.hap = .xbarWrite sl line →
       let t := s.befallWrite c o b delay
       (t.cluster c).seq.state = .fault ∧ (t.cluster c).seq.cause = 0x11 ∧ (t.cluster c).seq.causeDesc = o.desc ∧ Kept s t
         ∧ ∀ i, (b.off + i) / 4 = line → o.keepsWord b i = false)
    ∧ (∀ sl line b delay, lineIn sl line b.slot b.off b.n = true → o.hap = .bankConflict sl line →
       let t := s.befallWrite c o b delay
       (t.cluster c).seq.state = .fault ∧ (t.cluster c).seq.cause = 0x08 ∧ (t.cluster c).mem.conflict = true ∧ Kept s t)

/-! Verdicts, holds, start and stop. -/

/-- R74, R75, R77, R96, R149: the verdict of the oldest computing tile, at F + T + 10: a ninth pending tile is MX_PENDING_OVERRUN; a
match makes the tile pending and sets its flags; a mismatch suppresses it, records the core and raises a hold, but a poisoned tile is
not held. -/
def Sys2Proof.Claims.TileVerdict : Prop :=
  ∀ (s : State) (c : Nat) (o0 o : EngOp) (m : Option Mis), c < 4096 → s.live c = true →
    (s.cluster c).ops.find? tileComputing = some o0 →
    let u := s.toCycle c (o0.f + o0.t + 10)
    (u.cluster c).ops.find? tileComputing = some o →
    let n := (u.cluster c).pendingTiles (u.partCycleOf c)
    (8 ≤ n → (u.cluster c).seq.state ≠ .fault →
      ∃ t, exec (.tileVerdict c m) s = .next t ∧ (t.cluster c).seq.state = .fault ∧ (t.cluster c).seq.cause = 0x07
        ∧ (t.cluster c).seq.causeDesc = o.desc ∧ (t.cluster c).ops = removeFirst tileComputing (u.cluster c).ops ∧ Kept u t)
    ∧ (n < 8 → o.fails m = none →
      exec (.tileVerdict c m) s = .next ((u.setFlags c 1 o.result.2).modOp c tileComputing (fun x => { x with stage := .pending })))
    ∧ (∀ e, n < 8 → o.fails m = some e →
      ∃ t, exec (.tileVerdict c m) s = .next t ∧ (t.cluster c).seq.holdReq = true
        ∧ (t.cluster c).res = (u.cluster c).resAfter e
        ∧ (t.cluster c).ops = modFirst tileComputing (fun x => { x with stage := .failed, mismatches := x.mismatches + 1 })
            (u.cluster c).ops
        ∧ (t.cluster c).flags = (u.cluster c).flags ∧ Kept u t
        ∧ (∀ p, s.ownerOf c = some p → (u.part p).holdActive = false → (t.part p).holdRaised.isSome = true))
    ∧ (∀ row slot, (o.poisoned = true → o.fails m = none)
        ∧ (o.poisoned = false → o.fails (some (.core row slot)) = some (.core row slot))
        ∧ (o.sparse = none → o.fails none = none)
        ∧ ((u.cluster c).resAfter (.core row slot)).lastRow = row
        ∧ ((u.cluster c).resAfter (.core row slot)).lastSlot = physCore (mapGet (natD 8) (u.cluster c).guard row) slot
        ∧ ((u.cluster c).resAfter (.core row slot)).mxMismatch = true)

/-- R96: the verdict of the next reduction group, 6 cycles after its inputs: a match counts it, a mismatch names the lane, suppresses
that group's results alone, and raises a hold. -/
def Sys2Proof.Claims.ReductionVerdict : Prop :=
  ∀ (s : State) (c : Nat) (o : EngOp), c < 4096 → s.live c = true → (s.cluster c).ops.find? redJudging = some o →
    let u := s.toCycle c (o.f + o.judged + 6)
    exec (.reductionVerdict c none) s = .next (u.modOp c redJudging (fun x => { x with judged := x.judged + 1 }))
    ∧ (∀ lane, ∃ t, exec (.reductionVerdict c (some lane)) s = .next t ∧ (t.cluster c).seq.holdReq = true
        ∧ (t.cluster c).res.rdMismatch = true ∧ (t.cluster c).res.lastLane = lane
        ∧ (t.cluster c).ops = modFirst redJudging (fun x =>
            { x with judged := x.judged + 1, failed := x.failed ++ [(x.judged, 1)] }) (u.cluster c).ops ∧ Kept u t)
    ∧ (∀ b, o.unit = 5 → (o.mayWrite b = true ↔ b.group < o.judged ∧ ∀ g ∈ o.failed, g.1 ≠ b.group))

/-- R74, R91, R96: after the last cycle of a checked tile's write-back, and of another engine's operation whose accesses have all been
performed, the operation leaves its engine with its flags set (a tile's were set with its verdict). -/
def Sys2Proof.Claims.ResultsWritten : Prop :=
  ∀ (s : State) (c : Nat), c < 4096 → s.live c = true →
    (∀ o, (s.cluster c).ops.find? tilePending = some o → o.arrive = none →
      let u := s.toCycle c o.last
      ∃ t, exec (.tileWriteback c) s = .next t ∧ Kept u t ∧ (t.cluster c).ops = removeFirst tilePending (u.cluster c).ops
        ∧ (t.cluster c).flags = (u.cluster c).flags)
    ∧ (∀ unit o0 o1 o2, (s.cluster c).ops.find? (unitOp unit) = some o0 →
      let u := s.toCycle c o0.inLast
      (u.cluster c).ops.find? (unitOp unit) = some o1 →
      let v := u.toCycle c o1.last
      (v.cluster c).ops.find? (unitOp unit) = some o2 →
      (o2.writes = [] → o2.reads = [] → o2.arrive = none →
        ∃ t, exec (.engineLastResult c unit) s = .next t ∧ Kept v t
          ∧ (t.cluster c).ops = removeFirst (unitOp unit) (v.cluster c).ops
          ∧ (t.cluster c).flags = (v.cluster c).flags.set unit o2.result.2)
      ∧ (o2.writes ≠ [] → exec (.engineLastResult c unit) s = .next v))
    ∧ (∀ (o : EngOp) b f, o.unit = 1 → (o.mayWrite b = true ↔ o.stage = .pending)
      ∧ ((s.cluster c).flags.set 1 f).mx = (s.cluster c).flags.mx ||| f ∧ ((s.cluster c).flags.set 2 f).vx = (s.cluster c).flags.vx ||| f
      ∧ ((s.cluster c).flags.set 3 f).qz = (s.cluster c).flags.qz ||| f ∧ ((s.cluster c).flags.set 5 f).rd = (s.cluster c).flags.rd ||| f
      ∧ ((s.cluster c).flags.set 6 f).sx = (s.cluster c).flags.sx ||| f)

/-- R97, R529: 48 cycles after a hold is raised, the accesses issued before it performed, every sequencer of the partition in RUN, WAIT
or DONE is in HOLD and will return to the state it left, and PART_CYCLE stands; those of other partitions go on. -/
def Sys2Proof.Claims.HoldDelivered : Prop :=
  ∀ (s : State) (p v : Nat), p < 8 → (s.part p).holdRaised = some v → (s.part p).running = true →
    let u0 := s.atFab (v + 48)
    let u := u0.overClusters p (fun x c => x.settleBefore c (u0.part p).partCycle)
    ∃ t, exec (.holdDelivered p) s = .next t ∧ (t.part p).holdActive = true ∧ (t.part p).holdRaised = none
      ∧ v + 48 ≤ t.clock.fab ∧ Kept u t
      ∧ (∀ c, s.owns p c = true → (u.cluster c).seq.state ∈ [SeqState.run, .wait, .done] →
        (t.cluster c).seq.state = .hold ∧ (t.cluster c).seq.held = (u.cluster c).seq.state)
      ∧ (∀ c, s.owns p c = true → (u.cluster c).seq.state ∉ [SeqState.run, .wait, .done] →
        (t.cluster c).seq.state = (u.cluster c).seq.state)
      ∧ (∀ c, s.owns p c = false → t.cluster c = s.cluster c)
      ∧ (∀ n, ((t.advance n).part p).partCycle = (t.part p).partCycle)

/-- R58, R98 to R100: the verdict of the replay of a dense tile, F + T + 10 after the freeze: it has read its operands again; a match
puts the result into its pending place and, once no cluster of the partition holds, raises release; the third mismatch is
REPLAY_LIMIT. The same of a reduction group, 7 cycles after the freeze or the last verdict. -/
def Sys2Proof.Claims.ReplayVerdict : Prop :=
  ∀ (s : State) (c : Nat) (o : EngOp), c < 4096 → (s.cluster c).ops.find? opFailed = some o →
    (s.part (partNo (s.ownerOf c))).holdActive = true → (s.cluster c).seq.state = .hold →
    let p := partNo (s.ownerOf c)
    let freeze := (s.cluster c).seq.replayFrom
    (o.unit = 1 → o.sparse = none →
      let y := s.asOfPair (freeze + 1) (fun u => u.replayTile c o (List.range o.d.count) false)
      let lat := 1 + tileLat (s.cluster c) o.d (List.range o.d.count) + o.t + 10
      (∀ m, m = none ∨ y.1.poisoned = true → ∃ t, exec (.replayVerdict c m) s = .next t
        ∧ (t.cluster c).ops = modFirst tileFailed (fun _ => { y.1 with stage := .pending }) (s.cluster c).ops
        ∧ (t.cluster c).seq.holdReq = (t.cluster c).ops.any opFailed ∧ freeze + lat ≤ t.clock.fab
        ∧ (t.holding p = false → (t.part p).releaseRaised = some t.clock.fab) ∧ Kept s t)
      ∧ (∀ e, y.1.poisoned = false → o.mismatches < 2 → ∃ t, exec (.replayVerdict c (some e)) s = .next t
        ∧ (t.cluster c).ops = modFirst tileFailed (fun z => { z with mismatches := z.mismatches + 1 }) (s.cluster c).ops
        ∧ (t.cluster c).seq.replayFrom = t.clock.fab ∧ freeze + lat ≤ t.clock.fab ∧ Kept s t)
      ∧ (∀ e, y.1.poisoned = false → 2 ≤ o.mismatches → ∃ t, exec (.replayVerdict c (some e)) s = .next t
        ∧ (t.cluster c).seq.state = .fault ∧ (t.cluster c).seq.cause = 0x04 ∧ (t.cluster c).seq.causeDesc = o.desc
        ∧ (t.cluster c).ops = removeFirst tileFailed (s.cluster c).ops ∧ Kept s t))
    ∧ (∀ g rest, o.unit = 5 → o.failed = g :: rest →
      (∃ t, exec (.replayVerdict c none) s = .next t
        ∧ (t.cluster c).ops = modFirst redFailed (fun z => { z with failed := z.failed.filter (fun h => h.1 != g.1) }) (s.cluster c).ops
        ∧ (t.cluster c).seq.holdReq = (t.cluster c).ops.any opFailed ∧ freeze + 7 ≤ t.clock.fab ∧ Kept s t)
      ∧ (∀ e, 2 ≤ g.2 → ∃ t, exec (.replayVerdict c (some e)) s = .next t ∧ (t.cluster c).seq.state = .fault
        ∧ (t.cluster c).seq.cause = 0x04 ∧ (t.cluster c).seq.causeDesc = o.desc ∧ Kept s t))

/-- R56, R94, R97, R99, R217, R529: 48 cycles after their raise, release returns every held sequencer to the state it left; START runs
every READY or DONE sequencer from descriptor 0 with PART_CYCLE 0 and seeds every generator of the partition; partition stop takes
RUN, WAIT, HOLD and DONE to STOPPED, keeps IDLE, READY and FAULT, drops what the engines have not written, and PART_CYCLE keeps its
value. -/
def Sys2Proof.Claims.SpineDeliveries : Prop :=
  ∀ (s : State) (p v : Nat), p < 8 →
    ((s.part p).releaseRaised = some v → (s.part p).holdActive = true → s.holding p = false →
      ∃ t, exec (.holdReleaseDelivered p) s = .next t ∧ (t.part p).holdActive = false ∧ (t.part p).releaseRaised = none
        ∧ v + 48 ≤ t.clock.fab ∧ Kept s t
        ∧ (∀ c, s.owns p c = true → (s.cluster c).seq.state = .hold → (t.cluster c).seq.state = (s.cluster c).seq.held)
        ∧ ∀ c, s.owns p c = false → t.cluster c = s.cluster c)
    ∧ ((s.part p).startRaised = some v → (s.wakeOf p).w = 0 →
      ∃ t, exec (.partitionStartDelivered p) s = .next t ∧ (t.part p).running = true ∧ (t.part p).partCycle = 0
        ∧ (t.part p).startRaised = none ∧ v + 48 ≤ t.clock.fab ∧ (t.bind p).state = 3
        ∧ (t.part p).seedEpoch = (s.part p).seedEpoch + 1 ∧ (t.part p).startStep = t.stepOf p
        ∧ (∀ c, s.owns p c = true → (s.cluster c).seq.state ∈ [SeqState.ready, .done] → (t.cluster c).seq.pc = 0
            ∧ (t.cluster c).seq.lastIssue = 0 ∧ (t.cluster c).walk = none
            ∧ ((∀ k, k < 4 → (t.ctx c k).state ≠ 3) → (t.cluster c).seq.state = .run))
        ∧ (∀ c k, s.owns p c = true → k < 4 → (s.ctx c k).genEpoch ≤ (s.part p).seedEpoch →
            t.gen c k = lfsrSeed (s.ctx c k).seed (t.stepOf p))
        ∧ Kept s t)
    ∧ ((s.part p).stopRaised = some v →
      let u0 := s.atFab (v + 48)
      let u := u0.overClusters p (fun x c => x.settleBefore c (u0.part p).partCycle)
      ∃ t, exec (.partitionStopDelivered p) s = .next t ∧ (t.part p).running = false ∧ (t.part p).stopRaised = none
        ∧ (t.part p).stopping.isSome = true ∧ v + 48 ≤ t.clock.fab ∧ (t.part p).partCycle = (u0.part p).partCycle
        ∧ (∀ c, s.owns p c = true → (u.cluster c).seq.state ∈ [SeqState.run, .wait, .hold, .done] →
          (t.cluster c).seq.state = .stopped)
        ∧ (∀ c, s.owns p c = true → (u.cluster c).seq.state ∈ [SeqState.idle, .ready, .fault] →
          (t.cluster c).seq.state = (u.cluster c).seq.state)
        ∧ (∀ c, s.owns p c = true → (t.cluster c).ops = [])
        ∧ (∀ f ∈ t.fabric.flits, f.part = p → f.slot < (t.part p).partCycle)
        ∧ t.smem = s.smem ∧ t.qmem = s.qmem ∧ t.pmap = s.pmap)

/-- R94: once a stopping partition's flits have landed and its contexts have drained it counts as stopped; LOCAL_STOP and STOP raise
partition stop, which a write by a core reaches only under the lease (R446); UNLOAD takes DONE, STOPPED and FAULT to IDLE with quire
memory zero (Table 3.11, R123), and changes nothing in another state. -/
def Sys2Proof.Claims.StopCommands : Prop :=
  ∀ (s : State) (p : Nat), p < 8 →
    ((s.part p).stopping.isSome = true → s.drained p = true →
      ∃ t, exec (.partitionStopped p) s = .next t ∧ (t.part p).stopping = none ∧ (t.bind p).state = 4 ∧ Kept s t)
    ∧ (∀ core, s.holdsLease core = true → (s.part p).running = true ∨ (s.part p).startRaised.isSome = true →
        (s.part p).stopRaised = none →
      exec (.stop p core) s = .next (s.modPart p (fun q => { q with stopRaised := some s.clock.fab, stopCause := 1 }))
      ∧ ∀ c, c < 4096 → s.ownerOf c = some p →
        exec (.localStop c (if core = .a then .coreA else .coreB)) s
          = .next (s.modPart p (fun q => { q with stopRaised := some s.clock.fab, stopCause := 1 })))
    ∧ (∀ c w, c < 4096 → (s.cluster c).seq.state ∈ [SeqState.done, .stopped, .fault] →
      ∃ t, exec (.unload c .binding) s = .next t ∧ (t.cluster c).seq.state = .idle ∧ (t.cluster c).zeroBusy = true
        ∧ (t.cluster c).zeroUntil = s.clock.fab + 4096
        ∧ (w < 2 ^ 24 → t.getByteCoded c w = some 0)
        ∧ (w < 2 ^ 24 → (s.cluster c).isResident w = false → t.peekWord c w = ⟨0, false⟩)
        ∧ (w < 2 ^ 24 → (s.cluster c).isResident w = true → t.rawWord c w = s.rawWord c w)
        ∧ ∀ k, k ≠ c → w < 2 ^ 24 → t.rawWord k w = s.rawWord k w)
    ∧ (∀ c, c < 4096 → (s.cluster c).seq.state ∉ [SeqState.done, .stopped, .fault] → exec (.unload c .binding) s = .next s)

/-! Registers of the clusters, the lease guard, and register pairs and counters (chapters 0, 3, 4; R446). -/

/-- May a writer write: binding load, or a core that holds the lease (R446)? -/
def Sys2Proof.Claims.MayWrite (s : State) (w : Writer) : Prop :=
  w = .binding ∨ (w = .coreA ∧ s.holdsLease .a = true) ∨ (w = .coreB ∧ s.holdsLease .b = true)

/-- The commands by which a management core writes the module's control state. -/
def Sys2Proof.Claims.coreWrites (k : MCore) : List (Instr → Prop) :=
  let w : Writer := if k = .a then .coreA else .coreB
  [fun i => ∃ c, i = .localStop c w, fun i => ∃ c, i = .unload c w, fun i => ∃ c r v, i = .coreMapWrite c r v w,
   fun i => ∃ c r x v, i = .circRegisterWrite c r x v w, fun i => ∃ c r x v, i = .resRegisterWrite c r x v w,
   fun i => ∃ c x v, i = .flipRegisterWrite c x v w, fun i => ∃ a v, i = .fabricControlWrite a v w,
   fun i => ∃ p v, i = .partPrioWrite p v w, fun i => ∃ p, i = .rollForward p k, fun i => ∃ p, i = .rollBack p k,
   fun i => ∃ p, i = .clearStartBlocked p k, fun i => ∃ n, i = .portRetrainRequest n k, fun i => ∃ e, i = .retirementClear e k,
   fun i => ∃ x, i = .enterDebug x k, fun i => ∃ x, i = .release x k, fun i => ∃ x, i = .retire x k, fun i => ∃ x, i = .setSvn x k,
   fun i => ∃ b, i = .operatorPkWrite b k, fun i => ∃ p o, i = .ownerIdWrite p o k, fun i => ∃ p d, i = .keyDelivery p d k,
   fun i => ∃ v, i = .wake v k, fun i => ∃ v, i = .opPointWrite v k, fun i => ∃ v, i = .clkmonCtrlWrite v k,
   fun i => ∃ v, i = .timeDiscontinuityClear v k, fun i => ∃ p, i = .start p k, fun i => ∃ p, i = .stop p k,
   fun i => ∃ p, i = .rebind p k, fun i => ∃ ty n b, i = .storedRecordWrite ty n b k,
   fun i => ∃ x y v b, isCounter x y ∧ x < 0x5300 ∧ i = .counterWrite x y v b k]

/-- R446: a guarded write of a core that does not hold the lease is refused and counted, and changes nothing else. -/
def Sys2Proof.Claims.LeaseRefusesWrites : Prop :=
  ∀ (s : State) (k : MCore) (i : Instr), s.holdsLease k = false → wellFormed i = true → (∃ f ∈ coreWrites k, f i) →
    exec i s = .next { s with lease := { s.lease with refused := s.lease.refused + 1 } }

/-- R70, R117, R120, R121, R134: what writes of the cluster's memory and sequencer pages do, the accesses its engines have issued
performed first: a write of CORE_MAP is refused; a region's CFG is written when the sequencer does not work and the region it would
enable is legal; a resident range is binding load's, with bounds that are multiples of 4 in the banks (a refusal of others is DEDUCED,
log entry 164); the flip mask is binding load's, or a core's in MANUFACTURE and DEBUG. -/
def Sys2Proof.Claims.ClusterRegisterWrites : Prop :=
  ∀ (s : State) (c : Nat) (v : Word) (who : Writer), c < 4096 → MayWrite s who →
    let u := s.settle c
    (∀ k, k < 4 → exec (.coreMapWrite c k v who) s
      = .next (s.modCluster c (fun x => { x with seq := { x.seq with mapRefused := true } })))
    ∧ (∀ r, r < 8 → u.circWritable c who = true →
        (((u.cluster c).region r).withCfg v).en = false ∨ (((u.cluster c).region r).withCfg v).legal = true →
        exec (.circRegisterWrite c r .cfg v who) s = .next (u.modCirc c r (fun x => x.withCfg v)))
    ∧ (∀ r, r < 8 → u.circWritable c who = true → (((u.cluster c).region r).withCfg v).en = true →
        (((u.cluster c).region r).withCfg v).legal = false → exec (.circRegisterWrite c r .cfg v who) s = .next (u.cfgRefused c))
    ∧ (∀ r, r < 8 → u.circWritable c who = true →
        exec (.circRegisterWrite c r .head v who) s = .next (u.modCirc c r (fun x => { x with head := v.setWidth 24 }))
        ∧ exec (.circRegisterWrite c r .tail v who) s = .next (u.modCirc c r (fun x => { x with tail := v.setWidth 24 })))
    ∧ (∀ r x, r < 8 → u.circWritable c who = false → exec (.circRegisterWrite c r x v who) s = .next (u.cfgRefused c))
    ∧ (∀ n x, n < 4 → who ≠ .binding ∨ resBound (fld v 23 0) = false →
        exec (.resRegisterWrite c n x v who) s = .next (s.cfgRefused c))
    ∧ (∀ n, n < 4 → who = .binding → resBound (fld v 23 0) = true → ∃ t, exec (.resRegisterWrite c n .base v who) s = .next t
        ∧ (t.cluster c).range n = { (s.cluster c).range n with base := fld v 23 0, en := v.getLsbD 31 }
        ∧ (∀ m, m ≠ n → (t.cluster c).range m = (s.cluster c).range m) ∧ Kept s t)
    ∧ (∀ n, n < 4 → who = .binding → resBound (fld v 23 0) = true → ∃ t, exec (.resRegisterWrite c n .limit v who) s = .next t
        ∧ (t.cluster c).range n = { (s.cluster c).range n with limit := fld v 23 0 }
        ∧ (∀ m, m ≠ n → (t.cluster c).range m = (s.cluster c).range m) ∧ Kept s t)
    ∧ (who ≠ .binding → s.testState = false → ∀ x, exec (.flipRegisterWrite c x v who) s = .next (s.cfgRefused c))
    ∧ (who = .binding ∨ s.testState = true →
        exec (.flipRegisterWrite c .data v who) s = .next (s.modCluster c (fun x => { x with flip := { x.flip with data := v } }))
        ∧ ∃ t, exec (.flipRegisterWrite c .ctrl v who) s = .next t ∧ (t.cluster c).flip.arm = v.getLsbD 7
          ∧ (t.cluster c).flip.check = v.setWidth 7 ∧ (t.cluster c).flip.word = v.toNat / 256 % 4
          ∧ (t.cluster c).flip.bank = v.toNat / 1024 % 1024 ∧ (t.cluster c).flip.bankEn = v.getLsbD 20
          ∧ (t.cluster c).flip.data = (s.cluster c).flip.data ∧ Kept s t)

/-- R123: the last zeroing write clears ZERO_BUSY at its cycle; the zeroing of cold power-on ends in every cluster at once. -/
def Sys2Proof.Claims.ZeroingEnds : Prop :=
  ∀ (s : State) (c : Nat), c < 4096 →
    (s.boot.memZeroing = false → (s.cluster c).zeroBusy = true →
      ∃ t, exec (.zeroingComplete c) s = .next t ∧ t.zeroBusy c = false ∧ (s.cluster c).zeroUntil ≤ t.clock.fab ∧ Kept s t)
    ∧ (s.boot.memZeroing = true → 7 ≤ s.boot.step →
      ∃ t, exec (.zeroingComplete c) s = .next t ∧ t.boot.memZeroing = false ∧ s.boot.memZeroUntil ≤ t.clock.fab
        ∧ t.boot.step = max s.boot.step 8 ∧ (∀ n, n < 256 → (s.port n).state = 0 → (t.port n).state = 1) ∧ Kept s t)

/-- The 64-bit value of a register pair of R104. -/
def Sys2Proof.Claims.pairValue (s : State) : LoReg → Nat
  | .partCycle c => s.cycleOf c
  | .ctxBytes c k => (s.ctx c k).bytes.toNat
  | .committed k p => (s.uep k p).committed.toNat
  | .applied k p => (s.uep k p).applied.toNat
  | .localEpoch n => (s.port n).localEpoch.toNat
  | .partnerEpoch n => (s.port n).partnerEpoch.toNat
  | .peerCommitted n => (s.port n).peerCommitted.toNat

/-- What a register pair's HI half holds latched. -/
def Sys2Proof.Claims.latched (s : State) : LoReg → Nat
  | .partCycle c => (s.cluster c).partCycleHi
  | .ctxBytes c k => (s.ctx c k).bytesHi
  | .committed k p => (s.uep k p).committedHi
  | .applied k p => (s.uep k p).appliedHi
  | .localEpoch n => (s.port n).localEpochHi
  | .partnerEpoch n => (s.port n).partnerEpochHi
  | .peerCommitted n => (s.port n).peerCommittedHi

/-- R104: a read of the LO half returns the low 32 bits of the count and latches its high 32 bits in the same cycle; a read of HI
returns what is latched, whatever the count has become in the meantime; counting on leaves the latch. So a pair read LO first gives
the count as it stood at the read of LO. -/
def Sys2Proof.Claims.PairsReadUntorn : Prop :=
  ∀ (s : State) (r : LoReg), LoReg.wf r = true →
    (∃ t, exec (.loRegisterRead r false) s = .next t ∧ t.out = s.out ++ [.value (pairValue s r % 2 ^ 32)]
      ∧ latched t r = pairValue s r / 2 ^ 32 % 2 ^ 32 ∧ pairValue t r = pairValue s r ∧ Kept s t
      ∧ (∀ n, latched (t.advance n) r = latched t r)
      ∧ (∀ u, latched u r = latched t r → ∃ w, exec (.loRegisterRead r true) u = .next w
          ∧ w.out = u.out ++ [.value (pairValue s r / 2 ^ 32 % 2 ^ 32)] ∧ pairValue w r = pairValue u r ∧ Kept u w))

/-- R11, R105: a read of an event counter returns the count without an event of the same cycle, and leaves it at 0, or at 1 with such
an event. -/
def Sys2Proof.Claims.CountersReadAndClear : Prop :=
  ∀ (s : State) (r : RcReg) (event : Bool), RcReg.wf r = true →
    let u := s.settleFor r
    ∃ t, exec (.rcCounterRead r event) s = .next t ∧ t.out = u.out ++ [.value (u.rcValue r)]
      ∧ t.rcValue r = (if event then 1 else 0) ∧ Kept u t
      ∧ (∀ r', RcReg.wf r' = true → r' ≠ r → t.rcValue r' = u.rcValue r')

/-- R11, R13, R59: a write of ones to a flag register clears those flags but for the ones hardware sets in that cycle; writes of words
with no writable field change nothing. -/
def Sys2Proof.Claims.FlagRegisterWrites : Prop :=
  ∀ (s : State) (c k n q : Nat) (v hw : Word) (who : Writer), c < 4096 → k < 24 → n < 256 → q < 16 → MayWrite s who →
    let u := s.settle c
    exec (.registerWrite (.mxFlags c) v hw who) s
      = .next (u.modCluster c (fun x => { x with flags := { x.flags with mx := w1c4 x.flags.mx v hw } }))
    ∧ exec (.registerWrite (.vxFlags c) v hw who) s
      = .next (u.modCluster c (fun x => { x with flags := { x.flags with vx := w1c4 x.flags.vx v hw } }))
    ∧ exec (.registerWrite (.qzFlags c) v hw who) s
      = .next (u.modCluster c (fun x => { x with flags := { x.flags with qz := w1c4 x.flags.qz v hw } }))
    ∧ exec (.registerWrite (.rdFlags c) v hw who) s
      = .next (u.modCluster c (fun x => { x with flags := { x.flags with rd := w1c4 x.flags.rd v hw } }))
    ∧ exec (.registerWrite (.sxFlags c) v hw who) s
      = .next (u.modCluster c (fun x => { x with flags := { x.flags with sx := w1c4 x.flags.sx v hw } }))
    ∧ exec (.registerWrite (.ueFlags k) v hw who) s
      = .next (s.modStack k (fun x => { x with ueFlags := w1c4 x.ueFlags v hw }))
    ∧ exec (.registerWrite (.seqStatus c) v hw who) s
      = .next (u.modCluster c (fun x => { x with seq := { x.seq with mapRefused := w1c x.seq.mapRefused v hw 5 } }))
    ∧ exec (.registerWrite (.resStatus c) v hw who) s = .next (u.modCluster c (fun x => { x with res := { x.res with
        mxMismatch := w1c x.res.mxMismatch v hw 0, rdMismatch := w1c x.res.rdMismatch v hw 1
        otherMismatch := w1c x.res.otherMismatch v hw 2 } }))
    ∧ exec (.registerWrite (.memStatus c) v hw who) s = .next (u.modCluster c (fun x => { x with mem := { x.mem with
        conflict := w1c x.mem.conflict v hw 1, ceSeen := w1c x.mem.ceSeen v hw 2, ueSeen := w1c x.mem.ueSeen v hw 3
        poisonSeen := w1c x.mem.poisonSeen v hw 4, circFault := w1c x.mem.circFault v hw 5
        cfgRefused := w1c x.mem.cfgRefused v hw 6 } }))
    ∧ exec (.registerWrite (.stackStatus k) v hw who) s = .next (s.modStack k (fun x => { x with
        ceSeen := w1c x.ceSeen v hw 3, ueSeen := w1c x.ueSeen v hw 4, poisonSeen := w1c x.poisonSeen v hw 5
        refused := w1c x.refused v hw 6 }))
    ∧ exec (.registerWrite (.ueStatus k) v hw who) s = .next (s.modStack k (fun x => { x with
        residueSeen := w1c x.residueSeen v hw 1, uePoisonSeen := w1c x.uePoisonSeen v hw 2
        untouchedSeen := w1c x.untouchedSeen v hw 3, excessSeen := w1c x.excessSeen v hw 4 }))
    ∧ exec (.registerWrite (.hqStatus q) v hw who) s = .next (s.modHostQ q (fun x => { x with qerr := w1c x.qerr v hw 13 }))
    ∧ (∀ off ∈ [1, 2, 3, 0x1002, 0x1003, 0x1004, 0x1008, 0x1009, 0x1021], hw = 0 →
        exec (.registerWrite (.clusterWord c off) v hw who) s = .next u)
    ∧ (∀ off, off < 0x1000 → who ≠ .binding → exec (.registerWrite (.portReg n off) v hw who) s = .next s)
    ∧ (∀ old set bit, w1c old v hw bit = set → (set = true ↔ (old = true ∧ v.getLsbD bit = false) ∨ hw.getLsbD bit = true))
    ∧ (∀ b old, w1c4 old v hw = b → ∀ j, j < 4 → b.getLsbD j = ((old.getLsbD j && !v.getLsbD j) || hw.getLsbD j))

/-! Unscheduled accesses, time, sync objects and the kettle spine (chapters 4 and 6). -/

/-- R113, R118, R123: the first ready access of the staging queue, once the accesses the engines have issued are performed, moves up to
16 lines: to consecutive words, or to the head of its circular region, which advances by the lines written; nothing moves while the
cluster zeroes its memory. -/
def Sys2Proof.Claims.StagedAccessesMove : Prop :=
  ∀ (s : State) (c i : Nat) (g : Staged), c < 4096 →
    let u := s.settle c
    (∀ a, s.zeroBusy c = false → g.dest = .addr a →
      pickStaged (u.cluster c) u.clock.fab (u.heldCluster c) false = some (g, i) →
      ∃ t, exec (.unscheduledAccess c) s = .next t ∧ Kept (u.writeWords c a (g.words.take 64)) t)
    ∧ (∀ r, s.zeroBusy c = false → g.dest = .circ r →
      pickStaged (u.cluster c) u.clock.fab (u.heldCluster c) true = some (g, i) →
      ∃ t, exec (.circWaitPass c) s = .next t ∧ Kept (u.circWrite c r (g.words.take 64)) t
        ∧ ((t.cluster c).region r).head
          = ((u.cluster c).region r).head + BitVec.ofNat 24 (4 * linesOf (g.words.take 64).length)
        ∧ ((t.cluster c).region r).tail = ((u.cluster c).region r).tail)
    ∧ (s.zeroBusy c = true → exec (.unscheduledAccess c) s = .next s ∧ exec (.circWaitPass c) s = .next s)
    ∧ (∀ circ, pickStaged (u.cluster c) u.clock.fab (u.heldCluster c) circ = some (g, i) →
      (u.cluster c).staged[i]? = some g ∧ (∀ a, g.dest = .addr a → circ = false)
        ∧ (∀ r, g.dest = .circ r → ((u.cluster c).region r).hasRoom u.clock.fab (linesOf (min 64 g.words.length)) = true))

/-- R163, R179, R529: n fabric cycles advance the fabric count by n and PART_CYCLE of a running, unheld partition by n; a partition that
is stopped or held keeps its count; neither memory nor any cluster changes. -/
def Sys2Proof.Claims.CyclesCount : Prop :=
  ∀ (s : State) (n p : Nat),
    (s.advance n).clock.fab = s.clock.fab + n
    ∧ s.clock.time ≤ (s.advance n).clock.time
    ∧ ((s.part p).running = true → (s.part p).holdActive = false →
        ((s.advance n).part p).partCycle = (s.part p).partCycle + n)
    ∧ (¬((s.part p).running = true ∧ (s.part p).holdActive = false) → (s.advance n).part p = s.part p)
    ∧ Kept s (s.advance n) ∧ (s.advance n).clusters = s.clusters ∧ (s.advance n).pending = s.pending

/-- R182, R185, R187: an arrival on an enabled object that no limit forbids counts in PENDING; the one that makes PENDING reach
LOCAL_EXPECT completes a phase: PENDING falls by LOCAL_EXPECT, and a local object's release is due 4 cycles later, while a spine member
owes its group an arrival and waits. One arrival more than 15 faults the cluster with SYNC_OVERRUN; an arrival on a disabled object
faults it, and so does one that finds the entry's parity wrong, which counts nothing (DEDUCED, log entry 163). -/
def Sys2Proof.Claims.SyncArrivals : Prop :=
  ∀ (s : State) (o who : Nat) (upset : Word), o < 16384 →
    let x := s.sync o
    (evenParity upset.toNat = true →
      (x.en = true → x.pending < 15 → x.pending + 1 < x.expect ∨ x.spineWait = true ∨ x.expect = 0 →
        exec (.syncArrival o who upset) s = .next (s.modSync o (fun y => { y with pending := y.pending + 1 })))
      ∧ (x.en = true → x.pending < 15 → 0 < x.expect → x.expect ≤ x.pending + 1 → x.spineWait = false → x.scope = false →
        ∃ t, exec (.syncArrival o who upset) s = .next t
          ∧ t.sync o = { x with pending := x.pending + 1 - x.expect
                                due := x.due ++ [(s.partCycleOf (o / 4) + 4, s.arrivalCredit o who)] })
      ∧ (x.en = true → x.pending < 15 → 0 < x.expect → x.expect ≤ x.pending + 1 → x.spineWait = false → x.scope = true →
        ∃ t, exec (.syncArrival o who upset) s = .next t
          ∧ t.sync o = { x with pending := x.pending + 1 - x.expect, spineWait := true, owed := some (s.partCycleOf (o / 4)) })
      ∧ ((s.cluster (o / 4)).seq.state ≠ .fault → x.en = true → 15 ≤ x.pending →
        ∃ t, exec (.syncArrival o who upset) s = .next t ∧ (t.cluster (o / 4)).seq.state = .fault
          ∧ (t.cluster (o / 4)).seq.cause = 0x0E ∧ t.sync o = x)
      ∧ ((s.cluster (o / 4)).seq.state ≠ .fault → x.en = false →
        ∃ t, exec (.syncArrival o who upset) s = .next t ∧ (t.cluster (o / 4)).seq.state = .fault
          ∧ (t.cluster (o / 4)).seq.cause = 0x13 ∧ t.sync o = x))
    ∧ (evenParity upset.toNat = false → (s.cluster (o / 4)).seq.state ≠ .fault → (s.ownerOf (o / 4)).isSome = true →
      ∃ t, exec (.syncArrival o who upset) s = .next t ∧ (t.cluster (o / 4)).seq.state = .fault
        ∧ (t.cluster (o / 4)).seq.cause = 0x10 ∧ t.syncs = s.syncs)

/-- R182 to R184: the oldest release of a local object increments PHASE at its cycle; the arrival an object owes reaches its group; the
torus-wide release is taken at the root once. -/
def Sys2Proof.Claims.SpineReleases : Prop :=
  ∀ (s : State) (o g : Nat), o < 16384 → g < 256 →
    (∀ v why rest, (s.sync o).due = (v, why) :: rest → s.live (o / 4) = true →
      ∃ t, exec (.localReleaseDelivered o) s = .next t ∧ (t.sync o).phase = ((s.sync o).phase + 1) % 256 ∧ (t.sync o).due = rest
        ∧ Kept s t)
    ∧ (∀ a, (s.sync o).owed = some a → g = (s.sync o).group →
      ∃ t, exec (.spineGroupArrival o) s = .next t ∧ (t.group g).arrived = (s.group g).arrived + 1
        ∧ (t.group g).lastArr = max (s.group g).lastArr a ∧ (t.sync o).owed = none)
    ∧ (∀ w p, (s.coll g).release = some w → s.groupOwner g = some p → (s.group g).torus = true → (s.group g).torusAt = none →
      exec (.torusReleaseAtRoot g) s = .next (s.modGroup g (fun y => { y with torusAt := some ((s.part p).partCycle, w) })))

/-- R183, R184: a group whose members have all arrived is released at V: its count returns to 0 and its phase increments; every member
object's PHASE increments; V is 48 cycles after the last arrival, aligned to 2^ALIGN cycles. -/
def Sys2Proof.Claims.GroupRelease : Prop :=
  ∀ (s : State) (g p v : Nat), g < 256 → s.groupOwner g = some p → (s.group g).releaseAt = some v → s.moving p = true →
    (s.memberObjects g).Nodup →
    ∃ t, exec (.spineReleaseDelivered g) s = .next t ∧ (t.group g).arrived = 0 ∧ (t.group g).phase = ((s.group g).phase + 1) % 256
      ∧ (∀ o ∈ s.memberObjects g, (t.sync o).phase = ((s.sync o).phase + 1) % 256)
      ∧ ((s.group g).torus = false → (s.group g).lastArr + 48 ≤ v ∧ v % 2 ^ (s.group g).align = 0
          ∧ v < (s.group g).lastArr + 48 + 2 ^ (s.group g).align)
      ∧ Kept s t

/-- R170, R179, R188: a waiting STRETCH takes effect when the next slot frame begins; a write of fabric control space sets a slot-table
entry, a sync object's and a group's configuration while BIND_STATE of the owner admits it and the value is legal, and has no effect
otherwise. -/
def Sys2Proof.Claims.FabricControl : Prop :=
  ∀ (s : State) (who : Writer) (v : Word), MayWrite s who →
    (s.fabric.stretchNext ≠ s.fabric.stretch →
      ∃ t, exec .stretchChange s = .next t ∧ t.fabric.stretch = s.fabric.stretchNext ∧ t.frameSlot = 0 ∧ Kept s t)
    ∧ (∀ addr c, addr < 0x840000 → addr % 0x800 < 0x500 → s.logicalAt (addr / 0x800) = some c →
      let k := addr % 0x800 / 256
      let slot := addr % 0x800 % 256
      (s.fabricOpen who (s.entryOwner c k slot) = true → s.entryLegal c k slot (entryBits k v.toNat) = true →
        ∃ t, exec (.fabricControlWrite addr v who) s = .next t ∧ t.entry c k slot = entryBits k v.toNat
          ∧ (∀ c' k' slot', k' < 5 → slot' < 256 → ¬(c' = c ∧ k' = k ∧ slot' = slot) → t.entry c' k' slot' = s.entry c' k' slot')
          ∧ Kept s t)
      ∧ (s.fabricOpen who (s.entryOwner c k slot) = false ∨ s.entryLegal c k slot (entryBits k v.toNat) = false →
        exec (.fabricControlWrite addr v who) s = .next s))
    ∧ (∀ o, o < 16384 → s.fabricOpen who (s.ownerOf (o / 4)) = true → fld v 13 10 ≠ 0 →
      exec (.fabricControlWrite (0x840000 + 4 * o) v who) s = .next (s.modSync o (fun y => y.withCfg v)))
    ∧ (∀ g, g < 256 → s.fabricOpen who (s.groupOwner g) = true → fld v 14 0 ≤ 16408 → fld v 18 15 ≤ 8 →
      exec (.fabricControlWrite (0x850000 + 4 * g) v who) s = .next (s.modGroup g (fun y => y.withCfg v)))
    ∧ (∀ o, o < 16384 → s.fabricOpen who (s.ownerOf (o / 4)) = false →
      exec (.fabricControlWrite (0x840000 + 4 * o) v who) s = .next s)
    ∧ (∀ addr, 0x850400 ≤ addr → exec (.fabricControlWrite addr v who) s = .next s)

/-! The mesh (chapter 5). -/

namespace Sys2Proof.Claims

/-- Slot i cycles ahead holds a scheduled local departure of output d whose read can still be issued (R171). -/
def Departs (s : State) (p c d i : Nat) : Prop :=
  let e := s.entry c d (((s.part p).partCycle + i) % 256)
  outSrc e = 5 ∧ outClass e = 0 ∧ readLat ((s.cluster c).region (outCirc e)).base.toNat + 1 ≤ i
    ∧ s.fabric.busyTo c d ≤ s.clock.fab + i

/-- The first slot in which output d sends an elastic flit is i cycles ahead: its owner, the slot and the flit (R166, R174, R178). -/
def SendsFirst (s : State) (c d i p slot : Nat) (x : Flit) : Prop :=
  i < 264 ∧ s.isLost c d = false ∧ s.canSend c d (s.linkClass c d) i = some (p, slot, x)
    ∧ ∀ k, k < i → s.canSend c d (s.linkClass c d) k = none

/-- The first slot in which LAND takes an elastic flit from input d is i cycles ahead (R170, R174). -/
def LandsFirst (s : State) (c d i p slot : Nat) (x : Flit) : Prop :=
  i < 264 ∧ s.canLand c d (s.inClass c d) i = some (p, slot, x) ∧ ∀ k, k < i → s.canLand c d (s.inClass c d) k = none

end Sys2Proof.Claims

/-- R112, R171, R187: the next scheduled departure of an output, read L + 1 cycles before its slot, takes 64 words from its region and puts
a flit in flight to the neighbour, which it meets 2 cycles after its slot; an occupancy below 64 words at the end of the cycle before
sends nothing; a region that is not enabled faults; so does a bank conflict on one of the lines, and an entry with a parity error moves
nothing. -/
def Sys2Proof.Claims.ScheduledDepartures : Prop :=
  ∀ (s : State) (c d p i n : Nat) (upset : Word), c < 4096 → d < 4 → s.linkClass c d = .home p → s.moving p = true →
    i < 512 → Departs s p c d i → (∀ j, j < i → ¬Departs s p c d j) →
    let t0 := (s.part p).partCycle + i
    let e := s.upsetEntry c d (t0 % 256) upset
    let r := outCirc e
    let u := ((s.atPart p (t0 - (readLat ((s.cluster c).region (outCirc (s.entry c d (t0 % 256)))).base.toNat + 1))).settle c).markSlot
      c d (s.clock.fab + i)
    let q := (u.cluster c).region r
    (evenParity e = true → outSrc e = 5 → outClass e = 0 → q.en = true → q.admitsRead u.clock.fab 16 = true →
      neighbour c d = some n → u.isLost c d = false →
      (∃ t, exec (.scheduledDeparture c d upset none) s = .next t
        ∧ ((t.cluster c).region r).tail = q.tail + 64
        ∧ (∃ x ∈ t.fabric.flits, x.part = p ∧ x.c = n ∧ x.d = opposite d ∧ x.pcyc = t0 + 2 ∧ x.slot = t0
            ∧ x.words = (List.range 64).map (fun k => u.peekWord c (q.wordAt (q.tail.toNat + k))))
        ∧ Kept u t)
      ∧ (∀ line, (u.cluster c).seq.state ≠ .fault → ∃ t, exec (.scheduledDeparture c d upset (some line)) s = .next t
        ∧ (t.cluster c).seq.state = .fault ∧ (t.cluster c).seq.cause = 0x08 ∧ (t.cluster c).mem.conflict = true ∧ Kept u t))
    ∧ (evenParity e = true → outSrc e = 5 → outClass e = 0 → q.en = true → q.admitsRead u.clock.fab 16 = false →
      exec (.scheduledDeparture c d upset none) s = .next u)
    ∧ (evenParity e = true → outSrc e = 5 → outClass e = 0 → q.en = false →
      exec (.scheduledDeparture c d upset none) s = .next (u.clusterFault c 0x14 (u.curDesc c)))
    ∧ (evenParity e = false → exec (.scheduledDeparture c d upset none) s = .next (u.tableParity c (some p) (neighbour c d)))
    ∧ (∀ fab, q.stamp ≠ fab + 1 → (q.admitsRead fab 16 = true ↔ 64 ≤ q.occ))

/-- R170, R176, R187: a scheduled flit meets its input register; the entries of its compiled cycle that select it act on it, an output
forwarding it to the neighbour 4 cycles later and the landing entry starting its landing write; with none selecting it, the running
owner's cluster faults with FLIT_UNROUTED. -/
def Sys2Proof.Claims.ScheduledFlits : Prop :=
  ∀ (s : State) (c d : Nat) (upset : Word) (x : Flit), c < 4096 → d < 4 → s.fabric.nextFlit c d = some x →
    let u := (s.atFab x.fcyc).modFabric (fun f => { f with flits := flitArrivalEffect.removeFirstFlit x f.flits })
    (∀ k rest, u.selecting x = k :: rest →
      evenParity (u.upsetEntry c k (if k = 4 then x.pcyc % 256 else (x.pcyc + 2) % 256) upset) = true →
      exec (.scheduledFlitArrival c d upset) s = .next ((u.selecting x).foldl (fun v o => v.actOn x o) u))
    ∧ (∀ o, o ∈ u.selecting x ↔ (o < 4 ∧ outClass (u.entry c o ((x.pcyc + 2) % 256)) = 0
          ∧ outSrc (u.entry c o ((x.pcyc + 2) % 256)) = d + 1)
        ∨ (o = 4 ∧ landEn (u.entry c 4 (x.pcyc % 256)) d = true ∧ landClass (u.entry c 4 (x.pcyc % 256)) d = 0))
    ∧ (∀ o n, o < 4 → neighbour x.c o = some n → u.isLost x.c o = false →
      (u.actOn x o).fabric.flits = u.fabric.flits ++ [{ x with c := n, d := opposite o, pcyc := x.pcyc + 4, fcyc := x.fcyc + 4 }])
    ∧ (let r := landCirc (u.entry x.c 4 (x.pcyc % 256)) x.d
       (((u.cluster x.c).region r).en = true →
          (u.actOn x 4).fabric.landings = u.fabric.landings ++ [⟨x.part, x.c, x.d, r, x.fcyc + 1, x.words⟩])
       ∧ (((u.cluster x.c).region r).en = false → u.actOn x 4 = u.clusterFault x.c 0x14 (u.curDesc x.c)))
    ∧ (u.selecting x = [] → (u.part x.part).running = true → u.owns x.part c = true → (u.cluster c).seq.state ≠ .fault →
      ∃ t, exec (.scheduledFlitArrival c d upset) s = .next t ∧ (t.cluster c).seq.state = .fault
        ∧ (t.cluster c).seq.cause = 0x0D ∧ Kept s t)

/-- R112, R172, R177, R180: the landing write of a flit whose words arrive clean is tested with every scheduled line written into its
region in the cycle; it goes to the head of the region, which faults with CIRC_OVERRUN when it has no room and with CIRC_DISABLED when
it is not enabled; after a stop, a landing that would fail its test is dropped; nothing lands in a cluster that zeroes its memory. -/
def Sys2Proof.Claims.ScheduledLandings : Prop :=
  ∀ (s : State) (c d : Nat) (l : Landing), c < 4096 → d < 4 →
    s.fabric.landings.find? (fun x => x.c == c && x.d == d) = some l → l.words.length = 64 → (∀ w ∈ l.words, w.poison = false) →
    let u0 := (s.atFab l.fcyc).settle c
    let due := max 16 (u0.dueLines c l.circ (u0.partCycleOf c))
    let u := u0.modFabric (fun f => { f with landings := landingEffect.dropFirst c d f.landings })
    let q := (u.cluster c).region l.circ
    (u.zeroBusy c = false → q.en = true → q.admitsWrite u.clock.fab due = true →
      (∃ t, exec (.scheduledLanding c d [] none) s = .next t ∧ Kept (u.writeCycle c (q.placed q.head.toNat l.words)) t
        ∧ ((t.cluster c).region l.circ).head = q.head + 64 ∧ ((t.cluster c).region l.circ).tail = q.tail)
      ∧ (∀ line, (u.cluster c).seq.state ≠ .fault → ∃ t, exec (.scheduledLanding c d [] (some line)) s = .next t
        ∧ (t.cluster c).seq.state = .fault ∧ (t.cluster c).seq.cause = 0x08 ∧ (t.cluster c).mem.conflict = true))
    ∧ (u.zeroBusy c = false → q.en = true → q.admitsWrite u.clock.fab due = false → (u.part l.part).running = true →
      (u.cluster c).seq.state ≠ .fault →
      ∃ t, exec (.scheduledLanding c d [] none) s = .next t ∧ (t.cluster c).seq.state = .fault ∧ (t.cluster c).seq.cause = 0x09
        ∧ (t.cluster c).mem.circFault = true ∧ Kept u t)
    ∧ (u.zeroBusy c = false → q.en = false → (u.part l.part).running = true → (u.cluster c).seq.state ≠ .fault →
      ∃ t, exec (.scheduledLanding c d [] none) s = .next t ∧ (t.cluster c).seq.state = .fault ∧ (t.cluster c).seq.cause = 0x14
        ∧ Kept u t)
    ∧ (u.zeroBusy c = true ∨ ((q.en && q.admitsWrite u.clock.fab due) = false ∧ (u.part l.part).running = false) →
      exec (.scheduledLanding c d [] none) s = .next u)
    ∧ (∀ fab n, q.stamp ≠ fab + 1 → (q.admitsWrite fab n = true ↔ q.occ + 4 * n ≤ q.size))

/-- R154, R174, R178, R180, R192, R205, R218: an elastic flit moves, in the first slot that finds one and a credit, from the head of its
source queue, or from the departures of a local context, to the tail of the next router's queue, whose credit falls by one; the freed
place's credit is due 4 cycles later, and its return raises the sender's credit by one, or lets the edge switch send the flit it holds.
At an edge link the last words of a request put it before its stack. A landing entry takes the head of its queue: data to the region the
entry names, read data to the context that asked. -/
def Sys2Proof.Claims.ElasticFlits : Prop :=
  ∀ (s : State) (c d i p slot : Nat) (upset : Word) (x : Flit), c < 4096 → d < 4 →
    (∀ n, SendsFirst s c d i p slot x → evenParity (s.upsetEntry c d slot upset) = true → neighbour c d = some n →
      ∃ t, exec (.elasticFlitSend c d upset []) s = .next t
        ∧ t.elasticQ n (opposite d) p = s.elasticQ n (opposite d) p ++ [{ x with c := n, d := opposite d, fcyc := s.clock.fab + i + 3 }]
        ∧ t.creditOf (queueKey n (opposite d) p) = s.creditOf (queueKey n (opposite d) p) - 1
        ∧ (∀ j, j < 4 → outSrc (s.entry c d slot) = j + 1 → t.elasticQ c j p = (s.elasticQ c j p).drop 1
            ∧ (queueKey c j p, s.clock.fab + i + 4) ∈ t.fabric.creditsDue)
        ∧ (∀ k, outSrc (s.entry c d slot) = 5 → bitsN (s.entry c d slot) 4 3 = k → t.departQ c k = (s.departQ c k).drop 1)
        ∧ Kept s t)
    ∧ (∀ ctx idx r, SendsFirst s c d i p slot x → evenParity (s.upsetEntry c d slot upset) = true → neighbour c d = none →
      x.cargo = .toStore ctx idx true → (∀ w ∈ x.words, w.poison = false) → (s.ctx (ctx / 4) (ctx % 4)).req idx = some r →
      ∃ t, exec (.elasticFlitSend c d upset []) s = .next t
        ∧ t.store.reqs = s.store.reqs ++ [r.storeReq p (ctx / 4) (ctx % 4) (64 * d + edgeIndex c d) ((64 * d + edgeIndex c d) / 64)
            (r.got ++ validWords x.mask x.words)] ∧ Kept s t)
    ∧ (SendsFirst s c d i p slot x → evenParity (s.upsetEntry c d slot upset) = false →
      exec (.elasticFlitSend c d upset []) s
        = .next (((s.advance i).markSlot c d (s.clock.fab + i)).tableParity c (some p) (neighbour c d)))
    ∧ (s.isLost c d = true → exec (.elasticFlitSend c d upset []) s = .next s)
    ∧ (∀ k due, p < 8 → s.fabric.creditsDue.find? (fun y => y.1 == queueKey c d p) = some (k, due) →
      (mapGet flitsD s.fabric.edges (queueKey c d p) = [] → ∃ t, exec (.elasticCreditReturn c d p) s = .next t
        ∧ t.creditOf (queueKey c d p) = s.creditOf (queueKey c d p) + 1 ∧ due ≤ t.clock.fab
        ∧ t.fabric.creditsDue.length + 1 = s.fabric.creditsDue.length ∧ Kept s t)
      ∧ (mapGet flitsD s.fabric.edges (queueKey c d p) = [x] → mapGet (natD 0) s.fabric.lost (s.edgeLostKey x.c x.d) = 0 →
        ∃ t, exec (.elasticCreditReturn c d p) s = .next t ∧ t.creditOf (queueKey c d p) = s.creditOf (queueKey c d p)
          ∧ t.elasticQ c d p = s.elasticQ c d p ++ [{ x with fcyc := t.clock.fab + 3 }]
          ∧ mapGet flitsD t.fabric.edges (queueKey c d p) = [] ∧ Kept s t))
    ∧ (LandsFirst s c d i p slot x → evenParity (s.upsetEntry c 4 slot upset) = true → (∀ w ∈ x.words, w.poison = false) →
      let u := (s.advance i).popQueue c d p (s.clock.fab + i)
      let r := landCirc (s.entry c 4 slot) d
      u.elasticQ c d p = (s.elasticQ c d p).drop 1
      ∧ (x.cargo = .plain → exec (.elasticLanding c d [] upset) s
          = .next (u.stageWrite c ⟨.landing, .circ r, validWords x.mask x.words, 0, none⟩))
      ∧ (∀ ctx idx, x.cargo = .toCtx ctx idx true → ctx / 4 = c → ∃ t, exec (.elasticLanding c d [] upset) s = .next t
          ∧ (∀ q, (s.ctx (ctx / 4) (ctx % 4)).req idx = some q → (t.ctx (ctx / 4) (ctx % 4)).req idx
              = some { q with got := q.got ++ validWords x.mask x.words, answered := true, data := q.got ++ validWords x.mask x.words })
          ∧ Kept s t))

/-- R112, R155, R158, R159, R161, R168, R181, R187: a lost link direction stops being driven and faults the partitions on it; a lane map
entry takes effect at a frame start with its record closed as in effect; a remap moves the bypass selections of a stopped row, opens its
window, and leaves a shifted cluster zeroing its memory and any other as it was; a refused one has no effect. -/
def Sys2Proof.Claims.LanesLinksRemap : Prop :=
  ∀ (s : State) (c d slot i lane row a b : Nat) (ar br : Bool),
    (∀ n, c < 4096 → d < 4 → neighbour c d = some n → s.isLost n (opposite d) = false →
      ∃ t, exec (.linkLost c d) s = .next t ∧ t.isLost n (opposite d) = true ∧ s.faults.seq < t.faults.seq ∧ Kept s t
        ∧ (∀ p, s.inClass c d = .home p → s.owns p c = true → (s.cluster c).seq.state ≠ .fault →
            (t.cluster c).seq.state = .fault ∧ (t.cluster c).seq.cause = 0x0F))
    ∧ (c < 4096 → d < 4 → neighbour c d = none → mapGet (natD 0) s.fabric.lost (s.edgeLostKey c d) = 0 →
      ∃ t, exec (.linkLost c d) s = .next t ∧ mapGet (natD 0) t.fabric.lost (s.edgeLostKey c d) = 1 ∧ s.faults.seq < t.faults.seq
        ∧ Kept s t)
    ∧ (slot < 4224 → d < 4 → i < 16 → lane < 2560 → s.pendingRec (laneElementOf slot d lane) ≠ none →
      (mapGet laneD s.fabric.lanes ((slot * 4 + d) * 16 + i)).en = false →
      ∃ t, exec (.laneMapUpdate slot d i lane) s = .next t ∧ mapGet laneD t.fabric.lanes ((slot * 4 + d) * 16 + i) = ⟨lane, true⟩
        ∧ t.frameSlot = 0 ∧ Kept s t)
    ∧ (row < 64 → a < b → b ≤ 65 → s.rowStopped row = true →
      ∃ t, exec (.remapSwitch row a b ar br) s = .next t ∧ t.rowGuard row = ⟨a, b, ar, br⟩
        ∧ t.fabric.remapUntil = s.clock.fab + 1024
        ∧ (∀ k w, k < 64 → w < 0xA00000 → physCol (s.rowGuard row) k ≠ physCol ⟨a, b, ar, br⟩ k →
            t.peekWord (64 * row + k) w = ⟨0, false⟩ ∧ (t.cluster (64 * row + k)).zeroBusy = true)
        ∧ (∀ k, k < 64 → physCol (s.rowGuard row) k = physCol ⟨a, b, ar, br⟩ k →
            (t.cluster (64 * row + k)) = (s.cluster (64 * row + k))))
    ∧ (row < 64 → ¬(a < b ∧ b ≤ 65) ∨ s.rowStopped row = false → exec (.remapSwitch row a b ar br) s = .next s)

/-! The parameter store (chapter 7). -/

/-- R194, R209, R212: the oldest queued request of a partition that a free request context admits crosses the bridges to its stack's edge
switch and takes the context, with age 0; CTX_QUOTA bounds what a partition holds, and the management class has one context of its
own. -/
def Sys2Proof.Claims.StoreRequestContexts : Prop :=
  ∀ (s u : State) (stack p i : Nat) (r : StoreReq), stack < 24 → p < 8 → s.store.reqs[i]? = some r →
    let free (x : StoreReq) : Prop :=
      (x.who = .management → ∀ y ∈ s.store.reqs, y.stack = stack → y.who = .management → y.status = .queued)
      ∧ (x.who ≠ .management → s.ctxHeld stack p < s.pmap.ctxQuota.getD p 0)
    let fits (x : StoreReq) : Prop := x.stack = stack ∧ x.part = p ∧ x.status = .queued ∧ free x
    fits r → (∀ j x, j < i → s.store.reqs[j]? = some x → ¬fits x) → s.cross p r.at_ (stack / 6) = some u →
    (r.at_ = stack / 6 → u = s) ∧ u.store.reqs = s.store.reqs
    ∧ ∃ t, exec (.storeRequestArrival stack p) s = .next t
      ∧ t.store.reqs[i]? = some { r with status := .arrived, age := 0, at_ := stack / 6 }
      ∧ (∀ j x, j ≠ i → s.store.reqs[j]? = some x → t.store.reqs[j]? = some x)
      ∧ ((∀ n, (s.port n).held = []) → t = { u with store := { u.store with
          reqs := u.store.reqs.set i { r with status := .arrived, age := 0, at_ := stack / 6 } } })

/-- R165, R194: a transfer crosses a corner bridge in the next slot of the bridge's frame of 256 that the store shares give its
partition, and takes the way with fewer bridges, clockwise between opposite edges (how slots not taken pass is a DESIGN CHOICE, log
entry 81). -/
def Sys2Proof.Claims.BridgeSlots : Prop :=
  ∀ (s : State) (p : Nat),
    (∀ key u, s.bridgeSlot p key = some u → ∃ n, mapGet (natD 0) s.store.bridges key ≤ n
      ∧ slotOwner s.pmap.storeShare (n % 256) = some p
      ∧ (∀ m, mapGet (natD 0) s.store.bridges key ≤ m → m < n → slotOwner s.pmap.storeShare (m % 256) ≠ some p)
      ∧ mapGet (natD 0) u.store.bridges key = n + 1 ∧ (∀ k, k ≠ key → mapGet (natD 0) u.store.bridges k = mapGet (natD 0) s.store.bridges k)
      ∧ u.store.reqs = s.store.reqs ∧ Kept s u)
    ∧ (∀ a b, a < 4 → b < 4 → ∀ u, s.cross p a b = some u →
      (a = b → u = s)
      ∧ (b = (a + 1) % 4 → s.bridgeSlot p (2 * a) = some u)
      ∧ (b = (a + 3) % 4 → s.bridgeSlot p (2 * a + 1) = some u)
      ∧ (b = (a + 2) % 4 → ∃ v, s.bridgeSlot p (2 * a) = some v ∧ v.bridgeSlot p (2 * ((a + 1) % 4)) = some u))

/-- R210, R211, R214: a round of a pseudo-channel goes to the owner of its slot in the schedule; the owner's best arrived request wins
and the owner's others age by one, at most to 255; nobody else's request changes, and an unowned or empty round moves nothing. -/
def Sys2Proof.Claims.StoreRounds : Prop :=
  ∀ (s : State) (stack pch : Nat), stack < 24 → pch < 64 → s.power.selfRefresh = false →
    (slotOwner s.pmap.storeShare (s.round stack pch % 256) = none →
      ∃ t, exec (.storeRoundGrant stack pch) s = .next t ∧ t.round stack pch = s.round stack pch + 1
        ∧ t.store.reqs = s.store.reqs ∧ Kept s t)
    ∧ (∀ p, slotOwner s.pmap.storeShare (s.round stack pch % 256) = some p → s.retryOf stack pch p = none →
      s.winner p stack pch = none →
      ∃ t, exec (.storeRoundGrant stack pch) s = .next t ∧ t.round stack pch = s.round stack pch + 1
        ∧ t.store.reqs = s.store.reqs ∧ Kept s t)
    ∧ (∀ p i r, slotOwner s.pmap.storeShare (s.round stack pch % 256) = some p → s.retryOf stack pch p = none →
      s.winner p stack pch = some i → s.store.reqs[i]? = some r →
      ∃ t, exec (.storeRoundGrant stack pch) s = .next t ∧ t.round stack pch = s.round stack pch + 1
        ∧ (∃ r', t.store.reqs[i]? = some r' ∧ (r'.status = .granted ∨ r'.status = .retry))
        ∧ (∀ j x, j ≠ i → s.store.reqs[j]? = some x → ∃ y, t.store.reqs[j]? = some y
            ∧ (x.stack = stack ∧ x.pch = pch ∧ x.part = p ∧ x.status = .arrived → y = { x with age := min 255 (x.age + 1) })
            ∧ (¬(x.stack = stack ∧ x.pch = pch ∧ x.part = p ∧ x.status = .arrived) → y = x)))

/-- R196, R211, R213: who wins a round: an arrived request of the owner that no earlier one of its requester to the same block holds
back; no other such request beats it, by effective priority, then age, then class, then number. -/
def Sys2Proof.Claims.RoundWinner : Prop :=
  ∀ (s : State) (p stack pch i : Nat), s.winner p stack pch = some i →
    ∃ r, s.store.reqs[i]? = some r ∧ r.stack = stack ∧ r.pch = pch ∧ r.part = p ∧ r.status = .arrived ∧ s.behind i r = false
      ∧ (∀ j q, j < i → s.store.reqs[j]? = some q → q.who.same r.who = true → q.meets r = true → q.status = .granted)
      ∧ ∀ j x, s.store.reqs[j]? = some x → x.stack = stack → x.pch = pch → x.part = p → x.status = .arrived → s.behind j x = false →
        s.effPrio x < s.effPrio r ∨ (s.effPrio x = s.effPrio r ∧ (x.age < r.age ∨ (x.age = r.age
          ∧ (r.who.cls < x.who.cls ∨ (r.who.cls = x.who.cls ∧ r.who.num ≤ x.who.num)))))

/-- R198, R200, R206, R208: what a granted request does: one that its page's kind does not allow moves no data and is marked refused; a
write puts its words into its blocks, and a poisoned word poisons its block; a read takes what its blocks deliver, of the copy COPY_SEL
selects at the grant; a read of the management class takes words of the system page. -/
def Sys2Proof.Claims.StoreAccesses : Prop :=
  ∀ (s : State) (stack pch p i : Nat) (r : StoreReq), stack < 24 → pch < 64 → s.power.selfRefresh = false →
    slotOwner s.pmap.storeShare (s.round stack pch % 256) = some p → s.retryOf stack pch p = none →
    s.winner p stack pch = some i → s.store.reqs[i]? = some r → r.page = none →
    let phys := s.physPage r.stack (s.viewPage r.stack (saPage r.addr) r.part (saView r.addr))
    (s.serves r = false → ∃ t, exec (.storeRoundGrant stack pch) s = .next t
      ∧ (t.store.reqs[i]?).map StoreReq.refused = some true ∧ (t.stack r.stack).refused = true ∧ Kept s t)
    ∧ (s.serves r = true → r.op = .write → ∃ t, exec (.storeRoundGrant stack pch) s = .next t
      ∧ t.smem = (s.putBlocks r.stack phys (saBlock r.addr) r.data).smem ∧ t.cmem = s.cmem ∧ t.qmem = s.qmem
      ∧ (t.store.reqs[i]?).map StoreReq.status = some .granted)
    ∧ (s.serves r = true → r.op = .reduce → ∃ t, exec (.storeRoundGrant stack pch) s = .next t ∧ Kept s t
      ∧ (t.store.reqs[i]?).map StoreReq.status = some .granted)
    ∧ (s.serves r = true → r.op = .read → r.who ≠ .management →
      ∃ t, exec (.storeRoundGrant stack pch) s = .next t ∧ Kept s t
        ∧ ((∃ k, k < r.len / 64 ∧ blockOutcome (s.storeBlock r.stack phys (saBlock r.addr + k)) = .uncorrectable) →
          (t.store.reqs[i]?).map StoreReq.status = some .retry)
        ∧ ((∀ k, k < r.len / 64 → blockOutcome (s.storeBlock r.stack phys (saBlock r.addr + k)) ≠ .uncorrectable) →
          (t.store.reqs[i]?).map StoreReq.status = some .granted
          ∧ (t.store.reqs[i]?).map StoreReq.data = some (s.getBlocks r.stack phys (saBlock r.addr) (r.len / 64))))
    ∧ (s.serves r = true → r.who = .management → ∃ t, exec (.storeRoundGrant stack pch) s = .next t ∧ Kept s t
        ∧ (t.store.reqs[i]?).map StoreReq.data = some ((List.range (r.len / 4)).map (fun j =>
            ⟨BitVec.ofNat 32 ((s.uep r.stack r.part).systemWord (r.addr / 4 + j)), false⟩)))

/-- R198, R207: the second read of an uncorrectable read, in the partition's next round, is granted whatever it finds, of the page its
grant resolved, and delivers each uncorrectable block as poison; the blocks of a write read back as they were stored. -/
def Sys2Proof.Claims.StoreRetryAndBlocks : Prop :=
  ∀ (s : State),
    (∀ stack pch i r, stack < 24 → pch < 64 → s.power.selfRefresh = false →
      s.store.reqs.zipIdx.find? (fun ri => ri.1.stack == stack && ri.1.pch == pch && ri.1.status == .retry) = some (r, i) →
      r.op = .read → r.who ≠ .management → ∃ t, exec (.storeReadRetry stack pch) s = .next t ∧ Kept s t
        ∧ s.round stack pch < t.round stack pch
        ∧ (t.store.reqs[i]?).map StoreReq.status = some .granted
        ∧ (∀ page, r.page = some page → (t.store.reqs[i]?).map StoreReq.data
            = some (s.getBlocks r.stack (s.physPage r.stack page) (saBlock r.addr) (r.len / 64))))
    ∧ (∀ stack phys b ws, List.length ws = 16 → (∀ w ∈ ws, w.poison = false) →
      deliverBlock ((s.putBlock stack phys b ws).storeBlock stack phys b) = ws)
    ∧ (∀ stack phys b ws, List.length ws = 16 → ws.any PWord.poison = true →
      deliverBlock ((s.putBlock stack phys b ws).storeBlock stack phys b) = poisonBlock)
    ∧ (∀ stack phys b b' ws, b' ≠ b → List.length ws = 16 →
      (s.putBlock stack phys b ws).storeBlock stack phys b' = s.storeBlock stack phys b')
    ∧ (∀ ds, blockOutcome ds = .uncorrectable → deliverBlock ds = poisonBlock)

/-- R209, R213, R215, R218, R223, R300, R501: a completed burst frees its request context and answers its requester: a stream context's
write or refusal at once, FAULT code 3 when refused, its read data as elastic flits to the edge link it was asked by; a peer with a
response frame; a host entry with its count. PART_PRIO is on its way to every stack, which each takes after one of its rounds, and is
refused as a whole when its age limit is 0. -/
def Sys2Proof.Claims.StoreCompletion : Prop :=
  ∀ (s : State),
    (∀ stack pch i r, stack < 24 → pch < 64 →
      s.store.reqs.zipIdx.find? (fun ri => ri.1.stack == stack && ri.1.pch == pch && ri.1.status == .granted
        && (ri.1.op != .reduce || ri.1.refused || ri.1.data.isEmpty)) = some (r, i) →
      ∃ t, exec (.storeBurstComplete stack pch) s = .next t ∧ Kept s t
        ∧ (∀ c k idx, r.who = .context c k idx → t.store.reqs = s.store.reqs.eraseIdx i
          ∧ (r.op ≠ .read ∨ r.refused = true → t.ctx c k = (s.ctx c k).answer idx (if r.refused then 3 else 0) [])
          ∧ (r.op = .read → r.refused = false → (s.part r.part).running = false → t.ctx c k = (s.ctx c k).answer idx 0 r.data)
          ∧ (r.op = .read → r.refused = false → (s.part r.part).running = true →
              let key := queueKey (edgeCluster (r.link / 64) (r.link % 64)) (r.link / 64) r.part
              let held (u : State) := (mapGet flitsD u.fabric.queues key ++ mapGet flitsD u.fabric.edges key).map
                (fun x => (x.words, x.cargo))
              t.ctx c k = s.ctx c k ∧ held t = held s ++ (mkFlits r.part (edgeCluster (r.link / 64) (r.link % 64)) (r.link / 64) 0 r.data
                (fun last => .toCtx (4 * c + k) idx last)).map (fun x => (x.words, x.cargo))))
        ∧ (∀ n tag flow, r.who = .peer n tag flow → (t.port (s.outPort n)).sendQ
            = (s.port (s.outPort n)).sendQ ++ [responseFrame r tag flow])
        ∧ (∀ b q idx j, r.who = .hostDma b q idx → (s.hostQ q).job = some j → r.refused = false →
            ((t.hostQ q).job.map (fun x => (x.finished, x.moved))) = some (j.finished + 1, j.moved + r.len))
        ∧ (r.who = .management → r.op = .read → t.out = s.out ++ [.bytes (bytesOfWords r.data)]))
    ∧ (∀ p v who, p < 8 → MayWrite s who → fld v 19 12 ≠ 0 →
      ∃ t, exec (.partPrioWrite p v who) s = .next t ∧ Kept s t
        ∧ (∀ k, k < 24 → mapFind t.store.prioNext (8 * k + p) = some ⟨fld v 2 0, fld v 5 3, fld v 8 6, fld v 11 9, fld v 19 12⟩))
    ∧ (∀ p v who, p < 8 → MayWrite s who → fld v 19 12 = 0 → exec (.partPrioWrite p v who) s = .next s)
    ∧ (∀ k p v, p < 8 → mapFind s.store.prioNext (8 * k + p) = some v →
      (s.prioArrives k).prio k p = v ∧ mapFind (s.prioArrives k).store.prioNext (8 * k + p) = none
        ∧ ∀ j q, j ≠ k → q < 8 → (s.prioArrives k).prio j q = s.prio j q)

/-! The stream engines and the update engines (chapters 7 and 8). -/

namespace Sys2Proof.Claims

/-- The commands that make a stream descriptor ACTIVE, with the OP each carries out. -/
def streamStarts (c k : Nat) : List (Instr × Nat) :=
  [(.streamLoad c k, 0), (.streamStore c k, 1), (.streamReduce c k, 2), (.streamSend c k, 3)]

/-- The command that writes a context has changed no other one, no cluster, memory or request. -/
def OnlyCtx (s t : State) (c k : Nat) : Prop :=
  (∀ b j, j < 4 → ¬(b = c ∧ j = k) → t.ctx b j = s.ctx b j) ∧ { t with ctxs := s.ctxs } = s

/-- The state in which a context's next request issues: PACE cycles after the last, never two in one cycle (R222). -/
def requestCycle (s : State) (c k : Nat) (d : SDesc) : State :=
  (match (s.ctx c k).lastIssue with
    | none => s
    | some t => s.atPart (partNo (s.ownerOf c)) (t + max 1 d.pace)).settle c

/-- Context k is ACTIVE in a running, unheld partition, on descriptor d with entry e, of which requests remain. -/
def OnDesc (s : State) (c k : Nat) (e : CtxDesc) (d : SDesc) : Prop :=
  c < 4096 ∧ k < 4 ∧ (s.ctx c k).state = 2 ∧ s.live c = true ∧ (s.ctx c k).descs.getLast? = some e ∧ e.issued < e.total
    ∧ s.streamDesc c k e.desc = some d

/-- Its next request has to wait: FENCE and an earlier descriptor, 32 requests unanswered, no room in the reorder buffer, or none in
the send queue of its port. -/
def MustWait (s : State) (c k : Nat) (e : CtxDesc) (d : SDesc) : Prop :=
  (d.fence = true ∧ 1 < (s.ctx c k).descs.length) ∨ 32 ≤ (s.ctx c k).outstanding
    ∨ (d.op = 0 ∧ reorderBytes < (s.ctx c k).reserved + (d.request e.issued).2.2)
    ∨ (d.remote = true ∧ (s.port (s.outPort d.port)).queueRoom = false)

/-- The frame type of a remote request (Table 10.5). -/
def requestType (op : Nat) : Nat := if op = 0 then 0x01 else if op = 1 then 0x03 else if op = 2 then 0x04 else 0x05

end Sys2Proof.Claims

/-- R217, R219, R220, Table 7.13: a waiting context whose current descriptor passes its checks and whose trigger is satisfied takes the
count and becomes ACTIVE, with one request for each 512 B unit its rows touch; until then it waits. A descriptor that fails its checks
halts the context with the cause at once, and one whose words are uncorrectable with cause 8. -/
def Sys2Proof.Claims.StreamStart : Prop :=
  ∀ (s : State) (c k op : Nat) (i : Instr), c < 4096 → k < 4 → (i, op) ∈ streamStarts c k →
    (s.ctx c k).state = 1 → s.live c = true → s.heldCluster c = false →
    (∀ d, s.streamDesc c k (s.ctx c k).cur = some d → s.haltCause c d = none →
      (d.op = op → s.triggered c k d = true →
        ∃ t, exec i s = .next t ∧ (t.ctx c k).state = 2 ∧ (t.ctx c k).prio = d.prio
          ∧ (t.ctx c k).descs = (s.ctx c k).descs ++ [⟨(s.ctx c k).nextOrd, d.index, d.op, d.remote, d.requests, 0, 0⟩]
          ∧ (t.ctx c k).pendStart = (s.ctx c k).pendStart - (if d.trig = 1 then 1 else 0)
          ∧ (t.ctx c k).pendChain = (s.ctx c k).pendChain - (if d.trig = 3 then 1 else 0)
          ∧ (t.ctx c k).pendSync = (s.ctx c k).pendSync - (if d.trig = 4 then 1 else 0)
          ∧ (t.ctx c k).reqs = (s.ctx c k).reqs ∧ (t.ctx c k).bytes = (s.ctx c k).bytes ∧ OnlyCtx s t c k)
      ∧ (d.op ≠ op ∨ s.triggered c k d = false → exec i s = .next s))
    ∧ (∀ d h, s.streamDesc c k (s.ctx c k).cur = some d → s.haltCause c d = some h →
      ∃ t, exec i s = .next t ∧ (t.ctx c k).state = 3 ∧ (t.ctx c k).haltCause = h ∧ (t.cluster c).seq.state = .fault
        ∧ ((s.cluster c).seq.state ≠ .fault → (t.cluster c).seq.cause = 0x06) ∧ Kept s t)
    ∧ (s.streamDesc c k (s.ctx c k).cur = none →
      ∃ t, exec i s = .next t ∧ (t.ctx c k).state = 3 ∧ (t.ctx c k).haltCause = 8 ∧ (t.cluster c).seq.state = .fault ∧ Kept s t)

/-- R222, R226: the requests of a row cover it without overlap: each lies in one 512 B unit of the store, the first starts at the row's
start, each further one where the last ended, and together they have the row's length. -/
def Sys2Proof.Claims.StreamRequestsCoverRows : Prop :=
  ∀ (d : SDesc) (i : Nat), 0 < d.length → i < d.requests →
    let r := d.request i
    r.1 < d.rows ∧ 0 < r.2.2 ∧ r.2.2 ≤ 512 ∧ r.2.1 + r.2.2 ≤ d.length
      ∧ (d.isSend = false → (d.rowAddr r.1 + r.2.1) / 512 = (d.rowAddr r.1 + r.2.1 + r.2.2 - 1) / 512)
      ∧ (i + 1 < d.requests → (d.request (i + 1) = (r.1, r.2.1 + r.2.2, (d.request (i + 1)).2.2) ∨
          (r.2.1 + r.2.2 = d.length ∧ (d.request (i + 1)).1 = r.1 + 1 ∧ (d.request (i + 1)).2.1 = 0)))
      ∧ (i = 0 → r.1 = 0 ∧ r.2.1 = 0) ∧ (i + 1 = d.requests → r.1 + 1 = d.rows ∧ r.2.1 + r.2.2 = d.length)

/-- R113, R123, R154, R170, R217, R218, R222, R227: an ACTIVE context that need not wait issues its next request, PACE cycles after the
last: a LOAD as one elastic flit without lines, a STORE, REDUCE or SEND with the words at its source; a remote one as a frame for its
port, queued at once where a context of the attach cluster asks. The descriptor counts it as issued, and after its last the next
descriptor becomes current. A write whose source words are not to be had, and a context that has to wait, issue nothing. -/
def Sys2Proof.Claims.StreamRequests : Prop :=
  ∀ (s : State) (c k : Nat) (e : CtxDesc) (d : SDesc), OnDesc s c k e d →
    let ro := d.request e.issued
    let a := d.rowAddr ro.1 + ro.2.1
    let v := requestCycle s c k d
    (MustWait s c k e d → exec (.streamRequestIssue c k) s = .next s)
    ∧ (∀ ws u, ¬MustWait s c k e d → (d.op = 0 ∧ ws = [] ∧ u = v ∨ d.op ≠ 0 ∧ ∃ w, v.sourceWords c k (d.dest ro.1 ro.2.1) (ro.2.2 / 4) = some (ws, w)
        ∧ u = w.countPoison c k (poisonBlocksIn ws)) →
      let p := partNo (u.ownerOf c)
      let x := u.ctx c k
      let o := u.outPort d.port
      let f := mkFrame (requestType d.op) ro.2.2 (if d.isSend then d.flow else 0) (u.port o).nextTag x.prio 0 (if d.isSend then 0 else a)
        (if d.op = 0 then .empty else .words ws)
      ∃ t, exec (.streamRequestIssue c k) s = .next t ∧ Kept u t ∧ t.store = u.store
        ∧ (t.ctx c k).reqs = x.reqs ++ [⟨x.nextIdx, e.ord, d.op, a, d.dest ro.1 ro.2.1, ro.2.2, false, false, 0, ws, []⟩]
        ∧ (t.ctx c k).nextIdx = x.nextIdx + 1 ∧ (t.ctx c k).lastIssue = some (v.part (partNo (s.ownerOf c))).partCycle
        ∧ (d.remote = false → t.departQ c k = u.departQ c k
            ++ mkFlits p c 0 u.clock.fab ws (fun last => .toStore (4 * c + k) x.nextIdx last) ∧ t.ports = u.ports)
        ∧ (d.remote = true → attachCluster o ≠ c → t.departQ c k = u.departQ c k
            ++ mkFlits p c 0 u.clock.fab ws (fun last => .toPort d.port (4 * c + k) x.nextIdx (if last then some f else none))
            ∧ (t.port o).sendQ = (u.port o).sendQ)
        ∧ (d.remote = true → attachCluster o = c → (t.port o).sendQ = (u.port o).sendQ ++ [f] ∧ t.departQ c k = u.departQ c k)
        ∧ (d.remote = true → (t.port o).reqs = (u.port o).reqs ++ [⟨(u.port o).nextTag, 4 * c + k, x.nextIdx⟩])
        ∧ (x.descs = (s.ctx c k).descs → (t.ctx c k).descs.getLast? = some { e with issued := e.issued + 1 }
          ∧ (e.issued + 1 < e.total → (t.ctx c k).state = x.state ∧ (t.ctx c k).cur = x.cur)
          ∧ (e.issued + 1 = e.total → (∀ g ∈ x.descs.dropLast, g.total ≤ g.issued) →
              (t.ctx c k).cur = (if d.next = 63 then x.head else d.next) ∧ ((t.ctx c k).state = 1 ∨ (t.ctx c k).state = 3))))
    ∧ (¬MustWait s c k e d → d.op ≠ 0 → v.sourceWords c k (d.dest ro.1 ro.2.1) (ro.2.2 / 4) = none →
      exec (.streamRequestIssue c k) s = .next s)
    ∧ (∀ m n, (v.cluster c).banksBusy v.clock.fab ((List.range n).map (m + ·)) = false → v.yields c k ((List.range n).map (m + ·)) = false → v.zeroBusy c = false →
      ∃ w, v.sourceWords c k (.addr m) n = some ((List.range n).map (fun i => v.peekWord c (m + i)), w) ∧ Kept v w)
    ∧ (∀ m n, v.zeroBusy c = true ∨ v.yields c k ((List.range n).map (m + ·)) = true → v.sourceWords c k (.addr m) n = none)

/-- R219, R220, R223, R224, R217: the responses: a refusal halts the context with its cause, a hold or not; a write's is counted; read
data goes to the staging queue in request order; the timer fires when its period has passed; a descriptor with all its responses
completes, counting its bytes and triggering the contexts chained to it; a STOPPING context with every request answered is OFF, its
counts kept. -/
def Sys2Proof.Claims.StreamResponses : Prop :=
  ∀ (s : State) (c k : Nat), c < 4096 → k < 4 →
    (∀ r, (s.ctx c k).state ≠ 4 → (s.ctx c k).state ≠ 3 → (s.ctx c k).nextAnswer = some r → r.denied ≠ 0 →
      ∃ t, exec (.streamResponse c k) s = .next t ∧ (t.ctx c k).state = 3 ∧ (t.ctx c k).haltCause = r.denied
        ∧ (t.cluster c).seq.state = .fault ∧ (t.ctx c k).reqs = (s.ctx c k).reqs.filter (fun q => q.idx != r.idx) ∧ Kept s t)
    ∧ (∀ r, s.heldCluster c = false → (s.ctx c k).state ≠ 4 → (s.ctx c k).nextAnswer = some r → r.denied = 0 → r.op ≠ 0 →
      exec (.streamResponse c k) s = .next (s.modCtx c k (fun y => y.reqDone r.idx)))
    ∧ (∀ r m, s.heldCluster c = false → (s.ctx c k).state ≠ 4 → (s.ctx c k).nextAnswer = some r → r.denied = 0 →
      r.op = 0 → r.dest = .addr m →
      ∃ t, exec (.streamResponse c k) s = .next t
        ∧ (t.cluster c).staged = (s.cluster c).staged ++ [⟨.ctx k, .addr m, r.data, r.idx, none⟩]
        ∧ (t.ctx c k).reqs = (s.ctx c k).reqs.map (fun q => if q.idx = r.idx then { q with staged := true } else q) ∧ Kept s t)
    ∧ (∀ r g, s.heldCluster c = false → (s.ctx c k).state ≠ 4 → (s.ctx c k).nextAnswer = some r → r.denied = 0 →
      r.op = 0 → r.dest = .circ g → ((s.cluster c).region g).en = true →
      ∃ t, exec (.streamResponse c k) s = .next t
        ∧ (t.cluster c).staged = (s.cluster c).staged ++ [⟨.ctx k, .circ g, r.data, r.idx, none⟩] ∧ Kept s t)
    ∧ (∀ r, (s.ctx c k).nextAnswer = some r → r ∈ (s.ctx c k).reqs ∧ (r.denied = 0 → r.op = 0 → r.answered = true ∧ r.staged = false
        ∧ (s.ctx c k).reqs.find? (fun q => q.op == 0 && !q.staged) = some r))
    ∧ (∀ d p, (s.ctx c k).state = 1 → (s.ctx c k).timerDone = false → s.live c = true →
      s.streamDesc c k (s.ctx c k).cur = some d → d.trig = 2 → d.period ≠ 0 → s.ownerOf c = some p →
      ∃ t, exec (.streamTimerExpiry c k) s = .next t ∧ (t.ctx c k).timerDone = true
        ∧ (t.part p).partCycle = max (s.part p).partCycle ((s.ctx c k).trigFrom + d.period) ∧ Kept s t)
    ∧ (∀ e rest d, s.heldCluster c = false → (s.ctx c k).descs = e :: rest → e.total ≤ e.issued → e.total ≤ e.done →
      s.streamDesc c k e.desc = some d →
      ∃ t, exec (.streamDescriptorComplete c k) s = .next t ∧ (t.ctx c k).descs = rest
        ∧ (t.ctx c k).bytes = (s.ctx c k).bytes + BitVec.ofNat 64 (d.length * d.rows)
        ∧ (∀ j, j < 4 → (s.ctx c j).chainSrc = k → (s.ctx c j).pendChain < 15 →
            (t.ctx c j).pendChain = (s.ctx c j).pendChain + 1) ∧ Kept s t)
    ∧ ((s.ctx c k).state = 4 → (∀ r ∈ (s.ctx c k).reqs, r.answered = true) →
      ∃ t, exec (.streamDrainComplete c k) s = .next t ∧ OnlyCtx s t c k
        ∧ t.ctx c k = { s.ctx c k with state := 0, descs := [], reqs := [] })

namespace Sys2Proof.Claims

/-- The 64 B blocks of a unit after a contribution, each the contributed words or their sums with what was there (R233). -/
def contributed (s : State) (stack phys b : Nat) (touched : Bool) (data : List PWord) : State :=
  ((pieces 16 data).zipIdx).foldl (fun u wi => u.putBlock stack phys (b + wi.2)
    (contributeBlock touched (deliverBlock (u.storeBlock stack phys (b + wi.2))) wi.1).1) s

/-- What the norm pass reads of a shard: its G_PLANE, without the blocks of marked groups (R244, R246). -/
def normWords (s : State) (stack : Nat) (x : Uep) (h : Shard) : List PWord :=
  (s.readPlane stack h.gPlane 1 0 (4 * h.nEl) (fun i => shardMarked x.marks h (16 * i))).1

end Sys2Proof.Claims

/-- R233 to R238: a granted contribution writes each of its blocks: the words themselves when its unit is untouched (a NaN as the
canonical one, a subnormal as zero), else the sums; the unit is then touched and the page's count one higher, which with the last
contribution of every page makes the stack PARTIAL. A contribution beyond EXPECT faults the update engine; a unit whose residue differs
three times faults it without writing; none is made while the touched bits are cleared. -/
def Sys2Proof.Claims.ReduceContributions : Prop :=
  ∀ (s : State) (stack pch i n : Nat) (r : StoreReq), stack < 24 → pch < 64 →
    s.store.reqs.zipIdx.find? (fun ri => ri.1.contributes stack pch) = some (r, i) →
    let slot := s.reduceSlot stack r.part (saPage r.addr)
    let x := s.uep stack r.part
    let phys := s.physPage stack (saPage r.addr)
    let bit := slot * 4096 + bitsN r.addr 20 9
    (x.clearBusy = true → exec (.reduceContribution stack pch n) s = .next s)
    ∧ (x.clearBusy = false → (x.accAt slot).count + 1 ≤ (x.accAt slot).expect → n < 3 →
        ∃ t, exec (.reduceContribution stack pch n) s = .next t
        ∧ ((t.uep stack r.part).accAt slot).count = (x.accAt slot).count + 1
        ∧ ((t.uep stack r.part).accAt slot).expect = (x.accAt slot).expect
        ∧ (∀ j, j ≠ slot → (t.uep stack r.part).accAt j = x.accAt j)
        ∧ (∀ j, mapGet boolD (t.uep stack r.part).touched j = (mapGet boolD x.touched j || j == bit))
        ∧ ((t.uep stack r.part).state = x.state ∨ (x.state = 1 ∧ (t.uep stack r.part).state = 2 ∧ (t.uep stack r.part).complete = true))
        ∧ (t.store.reqs[i]?).map (fun q => (q.status, q.data)) = some (.granted, [])
        ∧ t.smem = (contributed s stack phys (saBlock r.addr) (mapGet boolD x.touched bit) r.data).smem
        ∧ t.cmem = s.cmem ∧ t.qmem = s.qmem ∧ t.pmap = s.pmap ∧ t.pending = s.pending)
    ∧ (x.clearBusy = false → x.state ≠ 8 → (x.accAt slot).expect < (x.accAt slot).count + 1 →
        ∃ t, exec (.reduceContribution stack pch n) s = .next t
        ∧ (t.uep stack r.part).state = 8 ∧ (t.uep stack r.part).cause = 1 ∧ (t.stack stack).excessSeen = true ∧ Kept s t)
    ∧ (x.clearBusy = false → x.state ≠ 8 → (x.accAt slot).count + 1 ≤ (x.accAt slot).expect → 3 ≤ n →
        ∃ t, exec (.reduceContribution stack pch n) s = .next t
        ∧ (t.uep stack r.part).state = 8 ∧ (t.uep stack r.part).cause = 4 ∧ Kept s t)

/-- R239, R244, R246, R247, R255: a complete stack sends its norm partial, the sum of its 64 lane sums in order over the shards that are
not FROZEN, to NORM_GROUP and waits for the gate; poison in a word it reads faults it with cause 2, a group whose residue differs three
times with cause 4; the words of marked groups are not read. -/
def Sys2Proof.Claims.NormPartials : Prop :=
  ∀ (s : State) (stack p : Nat) (ns : List Nat), stack < 24 → p < 8 →
    let x := s.uep stack p
    x.state = 2 → s.moving p = true → (s.stacksOf p).contains stack = true →
    let live := x.shards.filter (fun h => h.rule != 3)
    let poisoned := live.any (fun h => (normWords s stack x h).any PWord.poison)
    (poisoned = false → (∀ n ∈ ns, n < 3) →
      ∃ t, exec (.normPartial stack p ns) s = .next t ∧ t.uep stack p
          = { x with state := 3, untouched := (t.uep stack p).untouched }
        ∧ (t.group x.param.normGroup).arrived = (s.group x.param.normGroup).arrived + 1
        ∧ mapGet wordD (t.group x.param.normGroup).payloads stack
          = (sumFrom0 (live.foldl (fun lanes h => normShard x.marks h (normWords s stack x h) lanes) (List.replicate 64 (fw 0)))).1
        ∧ Kept s t)
    ∧ (poisoned = true → (∀ n ∈ ns, n < 3) →
      ∃ t, exec (.normPartial stack p ns) s = .next t ∧ (t.uep stack p).state = 8 ∧ (t.uep stack p).cause = 2 ∧ Kept s t)
    ∧ ((∃ n ∈ ns, 3 ≤ n) →
      ∃ t, exec (.normPartial stack p ns) s = .next t ∧ (t.uep stack p).state = 8 ∧ (t.uep stack p).cause = 4 ∧ Kept s t)
    ∧ (∀ h i, 16 * i + 16 ≤ h.nEl → shardMarked x.marks h (16 * i) = true →
      ∀ j, j < 16 → (normWords s stack x h)[16 * i + j]? = some ⟨0, false⟩)

/-- R248, R249: the gate: a step is skipped when T is the canonical NaN or overflowed, or its root exceeds a positive SKIP_NORM;
otherwise its clip factor is CLIP_NORM over the root where the root exceeds a positive CLIP_NORM, and 1.0 elsewhere. The decision keeps T
and lr(N). -/
def Sys2Proof.Claims.StepGate : Prop :=
  ∀ (q : Param) (t lr : Word),
    (t = 0x7FC00000#32 ∨ t = 0x7F7FFFFF#32 → (gateOf q t lr).1.skip = true)
    ∧ (gateOf q t lr).1.total = t ∧ (gateOf q t lr).1.lr = lr
    ∧ (t ≠ 0x7FC00000#32 → t ≠ 0x7F7FFFFF#32 →
      ((gateOf q t lr).1.skip = true ↔ fpos q.skipNorm = true ∧ fgt (fsqrt (fw t)).1 q.skipNorm = true)
      ∧ ((gateOf q t lr).1.skip = false →
        (fpos q.clipNorm = true ∧ fgt (fsqrt (fw t)).1 q.clipNorm = true →
          (gateOf q t lr).1.clip = (fdiv (fw q.clipNorm) (fsqrt (fw t))).1)
        ∧ (¬(fpos q.clipNorm = true ∧ fgt (fsqrt (fw t)).1 q.clipNorm = true) → (gateOf q t lr).1.clip = 0x3F800000#32)))

/-- R25, R238, R250, R255, R257, R262: a step whose gate skips it changes no state plane, writes its skip and end segments, and arrives on
COMMIT_GROUP; an applied step applies its shards, leaves their last generator state, and arrives too, or faults with the cause of the
poison it met; a group whose residue differs three times faults it; while the export half it needs is not free it waits, and the wait
ends when the half is. -/
def Sys2Proof.Claims.CommitArrivals : Prop :=
  ∀ (s : State) (stack p : Nat) (g : Gate) (ns : List Nat), stack < 24 → p < 8 → (s.uep stack p).gate = some g → s.moving p = true →
    let x := s.uep stack p
    let n := x.committed.toNat + 1
    let arrived (t : State) : Prop := (t.uep stack p).state = 5 ∧ (t.uep stack p).exportWait = false
      ∧ (t.uep stack p).committed = x.committed ∧ (t.uep stack p).copySel = x.copySel
      ∧ (t.group x.param.commitGroup).arrived = (s.group x.param.commitGroup).arrived + 1
      ∧ (∃ h ∈ (t.uep stack p).halves, h.step = BitVec.ofNat 64 n ∧ h.released = false ∧ (h.segs.getLast?).map Segment.kind = some 2)
      ∧ t.cmem = s.cmem ∧ t.qmem = s.qmem ∧ t.pmap = s.pmap ∧ t.pending = s.pending
    (x.state = 4 ∨ (x.state = 3 ∧ g.skip = true)) →
    (x.halfFree n = false → ∃ t, exec (.commitArrival stack p ns) s = .next t ∧ t.uep stack p = { x with exportWait := true }
        ∧ Kept s t)
    ∧ (x.halfFree n = true → g.skip = true → ∃ t, exec (.commitArrival stack p ns) s = .next t ∧ arrived t
        ∧ (t.uep stack p).segSeq = x.segSeq + 2 ∧ (t.uep stack p).lfsr = x.lfsr)
    ∧ (x.halfFree n = true → g.skip = false → (∀ m ∈ ns, m < 3) →
      (x.shards = [] → ∃ t, exec (.commitArrival stack p ns) s = .next t ∧ arrived t ∧ (t.uep stack p).segSeq = x.segSeq + 1)
      ∧ (∀ h, x.shards = [h] → ns = [] →
        let o := applyShard s stack x g h x.lfsr
        (o.bad = 0 → ∃ t, exec (.commitArrival stack p ns) s = .next t ∧ arrived t ∧ (t.uep stack p).lfsr = o.lfsr)
        ∧ (o.bad ≠ 0 → ∃ t, exec (.commitArrival stack p ns) s = .next t ∧ (t.uep stack p).state = 8
            ∧ (t.uep stack p).cause = o.bad ∧ t.smem = s.smem))
      ∧ (∃ t, exec (.commitArrival stack p ns) s = .next t
          ∧ (arrived t ∨ ((t.uep stack p).state = 8 ∧ ((t.uep stack p).cause = 2 ∨ (t.uep stack p).cause = 3)))))
    ∧ (x.halfFree n = true → g.skip = false → (∃ m ∈ ns, 3 ≤ m) → ∃ t, exec (.commitArrival stack p ns) s = .next t
        ∧ (t.uep stack p).state = 8 ∧ (t.uep stack p).cause = 4 ∧ Kept s t)
    ∧ (x.exportWait = true → x.halfFree n = true → ∃ t, exec (.exportWaitEnd stack p) s = .next t
        ∧ t.uep stack p = { x with exportWait := false } ∧ Kept s t)

/-- R258, Table 8.8: at COMMIT each stack of the partition in COMMITTING writes its record: COMMITTED goes up by one; an applied step
raises APPLIED and switches the copy, a skipped one raises SKIPPED and leaves both; other partitions' stacks are as they were. -/
def Sys2Proof.Claims.CommitRecords : Prop :=
  ∀ (s : State) (p : Nat), p < 8 → ∃ t, exec (.commit p) s = .next t ∧ Kept s t
    ∧ (∀ stack g, (s.uep stack p).state = 6 → (s.uep stack p).gate = some g →
      let x := s.uep stack p
      let y := t.uep stack p
      y.committed = x.committed + 1 ∧ y.gate = none ∧ y.normSq = g.total ∧ y.lr = g.lr ∧ y.lastSkipped = g.skip
        ∧ y.recTT = s.ttNs ∧ y.recEpoch = s.torusTime.epoch ∧ y.state = 6
        ∧ (g.skip = false → y.applied = x.applied + 1 ∧ y.copySel = !x.copySel ∧ y.skipped = x.skipped ∧ y.clip = g.clip)
        ∧ (g.skip = true → y.applied = x.applied ∧ y.copySel = x.copySel ∧ y.skipped = x.skipped + 1 ∧ y.clip = 0))
    ∧ (∀ stack q, q < 8 → q ≠ p ∨ (s.uep stack q).state ≠ 6 → t.uep stack q = s.uep stack q)

/-- R234, R245, R258, R282, Table 8.7: once every stack in service has written its record the partition moves on: touched bits and counts
are clear and, while it runs, the next step begins with its generator seeded and its learning rate formed; TOUCHED_CLEAR_DONE ends the
clear; the interval end, when torus time reaches it, latches the live counters. -/
def Sys2Proof.Claims.StepEnd : Prop :=
  ∀ (s : State) (p : Nat), p < 8 →
    (s.allRecorded p = true → ∃ t, exec (.commitRecordWritten p) s = .next t ∧ Kept s t
        ∧ (∀ stack, stack < 24 → (s.uep stack p).state = 6 →
          let x := s.uep stack p
          let y := t.uep stack p
          y.touched = [] ∧ y.clearBusy = true ∧ (∀ n, (y.accAt n).count = 0 ∧ (y.accAt n).expect = (x.accAt n).expect)
            ∧ ((s.part p).running = false → y.state = 0)
            ∧ ((s.part p).running = true → y.state = (if y.complete then 2 else 1)
                ∧ y.lfsr = lfsrSeed x.param.ueSeed (x.committed.toNat + 1) ∧ y.stepLr = (x.lrAt (x.committed.toNat + 1)).1)))
    ∧ (s.allRecorded p = false → exec (.commitRecordWritten p) s = .next s)
    ∧ (∃ t, exec (.touchedClearDone p) s = .next t ∧ Kept s t
        ∧ ∀ stack, t.uep stack p = { s.uep stack p with clearBusy := false })
    ∧ (let u := s.atTorus (s.idle p).intervalEnd
       (s.idle p).running = true → (s.idle p).intervalEnd ≤ u.ttNs.toNat →
        ∃ t, exec (.idleIntervalEnd p) s = .next t ∧ Kept s t
        ∧ (t.idle p).snap = (u.idle p).live ∧ (t.idle p).live = (u.idle p).live ∧ (t.idle p).snapPartial = false
        ∧ (t.idle p).snapTT = BitVec.ofNat 64 (s.idle p).intervalEnd ∧ (t.idle p).startTT = BitVec.ofNat 64 (s.idle p).intervalEnd
        ∧ (t.idle p).interval = u.setting 0x5320 1)

/-- R255, R259, R260, R362, R461: of a step in doubt, ROLL_FORWARD commits it and ROLL_BACK aborts it, leaving the committed step; without
a step in doubt neither changes anything; CLEAR_START_BLOCKED clears the block, and the poison list only when it overflowed. -/
def Sys2Proof.Claims.DoubtfulSteps : Prop :=
  ∀ (s : State) (p stack : Nat) (k : MCore), p < 8 → stack < 24 → s.holdsLease k = true →
    (s.inDoubt p = false → exec (.rollForward p k) s = .next s ∧ exec (.rollBack p k) s = .next s)
    ∧ (∀ g, (s.uep stack p).state = 7 → (s.uep stack p).gate = some g →
      ∃ t, exec (.rollForward p k) s = .next t ∧ (t.uep stack p).committed = (s.uep stack p).committed + 1
        ∧ (t.uep stack p).applied = (s.uep stack p).applied + (if g.skip then 0 else 1)
        ∧ (t.uep stack p).state = 0 ∧ Kept s t)
    ∧ ((s.uep stack p).state = 7 → ∃ t, exec (.rollBack p k) s = .next t
        ∧ t.uep stack p = (s.uep stack p).abort ∧ (t.uep stack p).committed = (s.uep stack p).committed
        ∧ (t.uep stack p).copySel = (s.uep stack p).copySel ∧ Kept s t)
    ∧ (∃ t, exec (.clearStartBlocked p k) s = .next t ∧ Kept s t ∧ t.uep stack p
        = { s.uep stack p with startBlocked := false, poisonOverflow := false,
                               poisonBlocks := if (s.uep stack p).poisonOverflow then [] else (s.uep stack p).poisonBlocks })

/-! The optical ports and the torus (chapter 10). -/

namespace Sys2Proof.Claims

/-- A sequenced frame is accepted: the port is UP, every codeword could be corrected, the tag opens, and SEQ is the one expected. -/
def Accepts (s : State) (n : Nat) (f : Frame) (rx : RxCheck) : Prop :=
  (s.port n).state = 3 ∧ rx.badLane = none ∧ rx.tagOk = true ∧ f.seq = (s.port n).rxSeq

/-- The state in which an accepted sequenced frame is served: its ACK and credits taken, the next SEQ expected. -/
def heard (s : State) (n : Nat) (f : Frame) : State :=
  (s.takeHeader n f).modPort n (fun x => { x with rxSeq := (x.rxSeq + 1) % 2 ^ 32, rxGen := f.gen, gapAt := none })

/-- The request frames, with their TYPE. -/
def requestFrames (n : Nat) (f : Frame) (rx : RxCheck) : List (Instr × Nat) :=
  [(.rdReq n f rx, 0x01), (.wr n f rx, 0x03), (.red n f rx, 0x04), (.sendFrame n f rx, 0x05)]

/-- All sequenced frames. -/
def sequencedFrames (n : Nat) (f : Frame) (rx : RxCheck) : List Instr :=
  [.rdReq n f rx, .rdData n f rx, .wr n f rx, .red n f rx, .sendFrame n f rx, .resp n f rx, .stage n f rx, .commitFrame n f rx]

end Sys2Proof.Claims

/-- R292, R310, R314: a frame on a port that is not UP does nothing; an UP port answers a frame out of order with a NAK that carries the
expected SEQ, once per gap, and its expected SEQ stays; a frame with an uncorrectable codeword or a wrong tag is counted and, while the
port is still UP, answered with a NAK too. -/
def Sys2Proof.Claims.FrameScreening : Prop :=
  ∀ (s : State) (n : Nat) (f : Frame) (rx : RxCheck) (i : Instr), n < 256 → i ∈ sequencedFrames n f rx →
    ((s.port n).state ≠ 3 → exec i s = .next s)
    ∧ ((s.port n).state = 3 → rx.badLane = none → rx.tagOk = true → f.seq ≠ (s.port n).rxSeq → (s.port n).gapAt.isSome = true →
      exec i s = .next s)
    ∧ ((s.port n).state = 3 → rx.badLane = none → rx.tagOk = true → f.seq ≠ (s.port n).rxSeq → (s.port n).gapAt = none →
      ∃ t g, exec i s = .next t ∧ t.out = s.out ++ [.frame n g] ∧ g.ty = 0x21 ∧ g.ack = (s.port n).rxSeq
        ∧ (t.port n).gapAt = some s.localNs ∧ (t.port n).rxSeq = (s.port n).rxSeq ∧ Kept s t)
    ∧ (∀ l, (s.port n).state = 3 → rx.badLane = some l →
      ((s.codewordBad n l).port n).cwUncorr = min 65535 ((s.port n).cwUncorr + 1)
      ∧ exec i s = .next (if ((s.codewordBad n l).port n).state = 3 then (s.codewordBad n l).sendNak n else s.codewordBad n l))
    ∧ ((s.port n).state = 3 → rx.badLane = none → rx.tagOk = false →
      ((s.tagFailed n).port n).authFail = min 65535 ((s.port n).authFail + 1)
      ∧ exec i s = .next (if ((s.tagFailed n).port n).state = 3 then (s.tagFailed n).sendNak n else s.tagFailed n))

/-- R296, R299 to R302: an accepted request frame takes its place behind those held back; one with nothing before it is served at once
where no landing waits for its region and no store request for its context: a store request joins its stack's queue in the name of the
peer, a SEND goes to the region of its flow, and a frame that no flow, run or store admits is answered with its STATUS. -/
def Sys2Proof.Claims.RequestFrames : Prop :=
  ∀ (s : State) (n ty : Nat) (f : Frame) (rx : RxCheck) (i : Instr), n < 256 → (i, ty) ∈ requestFrames n f rx → Accepts s n f rx →
    let g : Frame := { f with ty := ty }
    let u := heard s n f
    let q := u.flow n f.flow
    (u.canProceed n = false → ∃ t, exec i s = .next t ∧ (t.port n).held = (s.port n).held ++ [g] ∧ t.store.reqs = s.store.reqs
        ∧ (t.port n).sendQ = (u.port n).sendQ ∧ Kept s t)
    ∧ ((s.port n).held = [] → u.canProceed n = true → u.requestStatus n g ≠ 0 → ∃ t, exec i s = .next t
        ∧ (t.port n).sendQ = (u.port n).sendQ ++ [refusalFrame g (u.requestStatus n g)]
        ∧ (t.port n).oweReq = (u.port n).oweReq + 1 + f.len / 64 ∧ (t.port n).held = [] ∧ t.store.reqs = s.store.reqs ∧ Kept s t)
    ∧ ((s.port n).held = [] → u.canProceed n = true → u.requestStatus n g = 0 → ty ≠ 0x05 → ∃ t r, exec i s = .next t
        ∧ t.store.reqs = s.store.reqs ++ [r] ∧ r.stack = saStack f.addr.toNat ∧ r.addr = f.addr.toNat ∧ r.len = f.len
        ∧ r.op = (if ty = 0x01 then .read else if ty = 0x03 then .write else .reduce) ∧ r.status = .queued ∧ r.age = 0
        ∧ r.who = .peer (s.inPort n) f.tag f.flow ∧ r.data = frameWords f ∧ r.prio = f.prio ∧ (t.port n).held = [] ∧ Kept s t)
    ∧ ((s.port n).held = [] → u.canProceed n = true → u.requestStatus n g = 0 → ty = 0x05 →
      let c := attachCluster (s.inPort n)
      ((u.cluster c).region q.circ).en = true → ∃ t, exec i s = .next t
        ∧ (t.cluster c).staged = (s.cluster c).staged ++ [⟨.landing, .circ q.circ, frameWords f, 0, some ⟨false, s.inPort n, f.flow, f.tag⟩⟩]
        ∧ (t.port n).held = [] ∧ Kept s t)
    ∧ (u.canProceed n = true ↔ u.storeWaits n = false ∧ u.landingWaits n = false)
    ∧ (1024 ≤ f.flow ∨ q.en = false → u.requestStatus n g = 3)
    ∧ (f.flow < 1024 → q.en = true → (s.port n).runMatch = false ∨ q.store = (ty == 0x05) → u.requestStatus n g = 1)

/-- R154, R223, R224, R298, R300, R318, R321: what accepted frames of the response pool do: data and responses answer the request of
their TAG, with REMOTE_DENIED unless the status is OK, and read data for another cluster than the attach cluster goes there through the
mesh; a COMMIT frame of a matching run gives PEER_COMMITTED; each returns its credits. -/
def Sys2Proof.Claims.ResponseFrames : Prop :=
  ∀ (s : State) (n : Nat) (f : Frame) (rx : RxCheck), n < 256 → Accepts s n f rx →
    let u := heard s n f
    (∀ r, (s.port n).reqs.find? (fun x => x.tag == f.tag) = some r →
      let c := r.ctx / 4
      let k := r.ctx % 4
      let p := partNo (s.ownerOf c)
      (∃ t, exec (.rdData n f rx) s = .next t
          ∧ (t.port n).reqs = (s.port n).reqs.filter (fun x => x.tag != f.tag)
          ∧ (t.port n).oweRsp = (u.port n).oweRsp + frameCredits f
          ∧ (f.status ≠ 0 ∨ frameWords f = [] ∨ attachCluster n = c ∨ (s.part p).running = false →
              t.ctx c k = (s.ctx c k).answer r.idx (if f.status = 0 then 0 else 7) (frameWords f))
          ∧ (f.status = 0 → frameWords f ≠ [] → attachCluster n ≠ c → (s.part p).running = true →
              t.ctx c k = s.ctx c k ∧ t.departQ (attachCluster n) k = s.departQ (attachCluster n) k
                ++ mkFlits p (attachCluster n) 0 s.clock.fab (frameWords f) (fun last => .toCtx r.ctx r.idx last)) ∧ Kept s t)
      ∧ ∃ t, exec (.resp n f rx) s = .next t
          ∧ t.ctx c k = (s.ctx c k).answer r.idx (if f.status = 0 then 0 else 7) []
          ∧ (t.port n).reqs = (s.port n).reqs.filter (fun x => x.tag != f.tag)
          ∧ (t.port n).oweRsp = (u.port n).oweRsp + frameCredits f ∧ Kept s t)
    ∧ ((s.port n).reqs.find? (fun x => x.tag == f.tag) = none →
      (∃ t, exec (.rdData n f rx) s = .next t ∧ (t.port n).oweRsp = (u.port n).oweRsp + frameCredits f ∧ t.ctxs = s.ctxs ∧ Kept s t)
      ∧ exec (.resp n f rx) s = .next (u.freeResponse n f))
    ∧ (∀ v a x y z, f.payload = .commit v a x y z →
      ((s.port n).runMatch = true → ∃ t, exec (.commitFrame n f rx) s = .next t
        ∧ (t.port n).peerCommitted = v ∧ (t.port n).peerCommitValid = true
        ∧ (t.port n).oweRsp = (u.port n).oweRsp + frameCredits f ∧ Kept s t)
      ∧ ((s.port n).runMatch = false → exec (.commitFrame n f rx) s = .next (u.freeResponse n f)))
    ∧ ((s.port n).runMatch = false → exec (.stage n f rx) s = .next (u.freeResponse n f))
    ∧ (∀ p es, (s.port n).runMatch = true → s.portOwner n = some p → f.payload = .stage es →
      exec (.stage n f rx) s = .next ((u.freeResponse n f).takeStage p
        (if travelDir n % 2 = 0 then travelDir n + 1 else travelDir n - 1) es))
    ∧ (∀ p d e, dirAxis d = e.axis → s.groupOwner e.group = some p →
      (∀ h ∈ (s.coll e.group).entries, ¬(h.axis = e.axis ∧ h.coord = e.coord ∧ h.phase = e.phase)) →
      (s.coll e.group).axis = none → ((s.takeStage p d [e]).coll e.group).entries = (s.coll e.group).entries ++ [e])

/-- R289, R290, R293, R294, R306, R323: on a session with RUN_MATCH a queued frame that has credit is numbered with the next SEQ, spends
its credits, joins the replay buffer and leaves with the credits owed; with none to leave, an ACK frame carries what is owed; an
acknowledged frame leaves the replay buffer; a NAK and a replay timeout resend every frame not yet acknowledged, each at most five
times, after which the port retrains. -/
def Sys2Proof.Claims.SendingAndReplay : Prop :=
  ∀ (s : State) (n : Nat), n < 256 → (s.port n).state = 3 →
    (∀ f j, (s.port n).readyFrame = some (f, j) →
      ∃ t g, exec (.frameSend n) s = .next t ∧ t.out = s.out ++ [.frame n g]
        ∧ g.seq = (s.port n).txSeq ∧ g.ack = (s.port n).rxSeq ∧ g.ty = f.ty ∧ g.payload = f.payload ∧ g.gen = (s.port n).txGen
        ∧ g.creditReq = min (s.port n).oweReq 65535 ∧ g.creditRsp = min (s.port n).oweRsp 65535
        ∧ (t.port n).oweReq = (s.port n).oweReq - g.creditReq ∧ (t.port n).oweRsp = (s.port n).oweRsp - g.creditRsp
        ∧ ((s.port n).txSeq + 1 ≠ 2 ^ 32 → (t.port n).txSeq = (s.port n).txSeq + 1 ∧ (t.port n).txGen = (s.port n).txGen)
        ∧ ((s.port n).txSeq + 1 = 2 ^ 32 → (t.port n).txSeq = 0 ∧ (t.port n).uSeq = 0 ∧ (t.port n).txGen = (s.port n).txGen + 1)
        ∧ (t.port n).replay = (s.port n).replay ++ [(g, 1)]
        ∧ (t.port n).sendQ = (s.port n).sendQ.eraseIdx j
        ∧ (isRequest f = true → (t.port n).creditReq = (s.port n).creditReq - frameCredits f)
        ∧ (isRequest f = false → (t.port n).creditRsp = (s.port n).creditRsp - frameCredits f) ∧ Kept s t)
    ∧ (∀ f j, (s.port n).readyFrame = some (f, j) → (s.port n).runMatch = true ∧ (s.port n).sendQ[j]? = some f
        ∧ (s.port n).creditFor f = true ∧ (s.port n).replayBytes + frameBytes f ≤ 524288
        ∧ ∀ m q, m < j → (s.port n).sendQ[m]? = some q → isRequest q ≠ isRequest f)
    ∧ ((s.port n).readyFrame = none →
      ((s.port n).oweReq = 0 → (s.port n).oweRsp = 0 → (s.port n).ackSent = (s.port n).rxSeq → exec (.frameSend n) s = .next s)
      ∧ (¬((s.port n).oweReq = 0 ∧ (s.port n).oweRsp = 0 ∧ (s.port n).ackSent = (s.port n).rxSeq) →
        ∃ t g, exec (.frameSend n) s = .next t ∧ t.out = s.out ++ [.frame n g] ∧ g.ty = 0x20 ∧ g.unseq = true
          ∧ g.ack = (s.port n).rxSeq ∧ (t.port n).ackSent = (s.port n).rxSeq
          ∧ g.creditReq = min (s.port n).oweReq 65535 ∧ g.creditRsp = min (s.port n).oweRsp 65535
          ∧ (t.port n).oweReq = (s.port n).oweReq - g.creditReq ∧ (t.port n).oweRsp = (s.port n).oweRsp - g.creditRsp
          ∧ (t.port n).txSeq = (s.port n).txSeq ∧ Kept s t))
    ∧ (∀ f rx, rx.badLane = none → rx.tagOk = true → exec (.ack n f rx) s = .next (s.takeHeader n f))
    ∧ (∀ f, ((s.takeHeader n f).port n).creditReq = (s.port n).creditReq + f.creditReq
        ∧ ((s.takeHeader n f).port n).creditRsp = (s.port n).creditRsp + f.creditRsp
        ∧ ∀ q, q ∈ ((s.takeHeader n f).port n).replay ↔ q ∈ (s.port n).replay
            ∧ ((f.ack + 2 ^ 32 - q.1.seq) % 2 ^ 32 = 0 ∨ 2 ^ 31 ≤ (f.ack + 2 ^ 32 - q.1.seq) % 2 ^ 32))
    ∧ (∀ f rx, rx.badLane = none → rx.tagOk = true →
      let left := ((s.takeHeader n f).port n).replay
      (left ≠ [] → (∀ q ∈ left, q.2 < 5) → ∃ t, exec (.nak n f rx) s = .next t ∧ t.out = s.out ++ left.map (fun q => .frame n q.1)
        ∧ (t.port n).replay = left.map (fun q => (q.1, q.2 + 1)) ∧ Kept s t)
      ∧ (left = [] → exec (.nak n f rx) s = .next (s.takeHeader n f))
      ∧ ((∃ q ∈ left, 5 ≤ q.2) → ∃ t, exec (.nak n f rx) s = .next t ∧ (t.port n).state = 4 ∧ t.out = s.out ∧ Kept s t))
    ∧ ((s.port n).replay ≠ [] → (∀ q ∈ (s.port n).replay, q.2 < 5) →
      ∃ t, exec (.replayTimeout n) s = .next t ∧ (t.port n).replay = (s.port n).replay.map (fun q => (q.1, q.2 + 1))
        ∧ t.out = s.out ++ (s.port n).replay.map (fun q => .frame n q.1)
        ∧ (s.port n).ackAt + (s.port n).rtt + 2000 ≤ t.localNs ∧ Kept s t)
    ∧ ((∃ q ∈ (s.port n).replay, 5 ≤ q.2) → ∃ t, exec (.replayTimeout n) s = .next t ∧ (t.port n).state = 4 ∧ Kept s t)
    ∧ (∀ at_, (s.port n).gapAt = some at_ → ∃ t g, exec (.nakRepeat n) s = .next t ∧ t.out = s.out ++ [.frame n g] ∧ g.ty = 0x21
        ∧ g.ack = (s.port n).rxSeq ∧ (t.port n).gapAt = some t.localNs ∧ at_ + 1000 ≤ t.localNs ∧ Kept s t)
    ∧ (∃ t g q, exec (.timeSend n) s = .next t ∧ t.out = s.out ++ [.frame n g] ∧ g.ty = 0x22 ∧ g.payload = .time q
        ∧ q.depth = t.torusTime.depth ∧ q.epoch = t.torusTime.epoch ∧ q.rootTag = t.torusTime.rootTag ∧ q.tTx = t.ttNs.toNat
        ∧ (t.port n).timeSent = some t.localNs ∧ (∀ at_, (s.port n).timeSent = some at_ → at_ + 100000 ≤ t.localNs) ∧ Kept s t)

/-- R303 to R309: a HELLO of an acceptable partner is kept; the end with the larger identity then has the keys and sends FINISH with
the ciphertext, the other waits for it. A HELLO that is not acceptable is refused with the lowest REFUSE code that applies; a FINISH
that opens brings the port UP, matching runs when both RUN_IDs agree and are not 0, and any other refuses; a kept session is never
spliced into; a RESUME with both epochs goes on where the ACK says. -/
def Sys2Proof.Claims.Sessions : Prop :=
  ∀ (s : State) (n : Nat) (f : Frame), n < 256 →
    (∀ h, f.payload = .hello h → (s.port n).state = 2 → s.refuseCode n h ≠ 0 →
      ∃ t, exec (.sessionHello n f) s = .next t
        ∧ (t.port n).state = 6 ∧ (t.port n).refuse = s.refuseCode n h ∧ (t.port n).keyed = false ∧ t.out = s.out ∧ Kept s t)
    ∧ (∀ h, f.payload = .hello h → (s.port n).state = 2 → s.refuseCode n h = 0 → ∃ t, exec (.sessionHello n f) s = .next t
        ∧ (t.port n).partner = some h ∧ (t.port n).partnerEpoch = h.epoch ∧ (t.port n).state = 2
        ∧ (t.port n).keyed = s.encapsulates h
        ∧ t.out = s.out ++ (if s.encapsulates h then
            [.frame n (mkFrame 0x30 0 0 0 0 0 0 (.finish true (some (cipherOf h.kemKey))))] else []) ∧ Kept s t)
    ∧ (∀ h, f.payload = .hello h → (s.port n).state = 3 ∨ (s.port n).state = 4 ∨ (s.port n).state = 5 → (s.port n).keyed = true →
      ∃ t, exec (.sessionHello n f) s = .next t
        ∧ (t.port n).state = 6 ∧ (t.port n).keyed = false ∧ (t.port n).newEpochSeen = true ∧ (t.port n).replay = [] ∧ Kept s t)
    ∧ (∀ h cipher, f.payload = .finish true cipher → (s.port n).state = 2 → (s.port n).partner = some h →
      s.encapsulates h = true ∨ cipher.isSome = true → ∃ t, exec (.sessionFinish n f) s = .next t
        ∧ (t.port n).state = 3 ∧ (t.port n).refuse = 0 ∧ (t.port n).keyed = true
        ∧ ((t.port n).runMatch = true ↔ s.runIdOf n ≠ 0 ∧ s.runIdOf n = h.runId ∧ s.trust.lifecycle = 2)
        ∧ t.out = s.out ++ (if s.encapsulates h then [] else [.frame n (mkFrame 0x30 0 0 0 0 0 0 (.finish true none))]) ∧ Kept s t)
    ∧ (∀ h opens cipher, f.payload = .finish opens cipher → (s.port n).state = 2 → (s.port n).partner = some h →
      opens = false ∨ (s.encapsulates h = false ∧ cipher = none) → ∃ t, exec (.sessionFinish n f) s = .next t
        ∧ (t.port n).state = 6 ∧ (t.port n).refuse = 1 ∧ (t.port n).keyed = false ∧ Kept s t)
    ∧ ((s.port n).state ≠ 2 ∨ (s.port n).partner = none → exec (.sessionFinish n f) s = .next s)
    ∧ (∀ le pe a rx, f.payload = .resume le pe a → (s.port n).state = 4 → (s.port n).keyed = true →
      (rx.badLane = none ∧ rx.tagOk = true ∧ le = (s.port n).partnerEpoch ∧ pe = (s.port n).localEpoch →
        ∃ t, exec (.resume n f rx) s = .next t ∧ (t.port n).state = 3 ∧ (t.port n).rxSeq = (s.port n).rxSeq
          ∧ (t.port n).replay.map Prod.fst = ((s.takeHeader n { f with ack := a }).port n).replay.map Prod.fst
          ∧ t.out = s.out ++ (t.port n).replay.map (fun q => .frame n q.1) ∧ Kept s t)
      ∧ (¬(rx.badLane = none ∧ rx.tagOk = true ∧ le = (s.port n).partnerEpoch ∧ pe = (s.port n).localEpoch) →
        ∃ t, exec (.resume n f rx) s = .next t ∧ (t.port n).state = 6 ∧ (t.port n).keyed = false ∧ Kept s t))

/-- R307, R308, R311, R313 to R315, R327: light, lanes and training: a kept session waits for light for the time of 0x3801.01 and is then
lost; light that returns retrains; a second retired lane of a direction loses the port; the third failed training in succession and a
retrain beyond 20 ms lose it; flags are cleared by writing 1. -/
def Sys2Proof.Claims.PortLinks : Prop :=
  ∀ (s : State) (n : Nat), n < 256 →
    ((s.port n).los = false → (s.port n).state = 3 → (s.port n).keyed = true → ∃ t, exec (.lossOfLight n) s = .next t
        ∧ (t.port n).state = 5 ∧ (t.port n).los = true ∧ (t.port n).keyed = true ∧ Kept s t)
    ∧ ((s.port n).state = 5 → ∃ t, exec (.losTimeout n) s = .next t ∧ (t.port n).state = 6 ∧ (t.port n).keyed = false
        ∧ (s.port n).since + 1000 * s.setting 0x3801 1 ≤ t.localNs ∧ Kept s t)
    ∧ ((s.port n).state = 5 → (s.port n).los = true → ∃ t, exec (.lightReturn n) s = .next t ∧ (t.port n).state = 4
        ∧ (t.port n).los = false ∧ (t.port n).keyed = (s.port n).keyed ∧ (t.port n).retrainSeen = true ∧ Kept s t)
    ∧ (∀ send pos l, pos < 9 → (s.port n).state = 3 → (s.port n).spared send = some l → pos ≠ l →
      (mapGet elemD s.faults.elems (opticalLane n send pos)).marked = false →
      ∃ t, exec (.laneLossOfLight n send pos) s = .next t ∧ (t.port n).state = 7 ∧ Kept s t)
    ∧ (∀ send pos, pos < 8 → (s.port n).state = 3 → (s.port n).spared send = none →
      (mapGet elemD s.faults.elems (opticalLane n send pos)).marked = false →
      ∃ t, exec (.laneLossOfLight n send pos) s = .next t ∧ (t.port n).state = 4 ∧ Kept s t)
    ∧ ((s.port n).state = 1 → (s.port n).trainFails < 2 → ∃ t, exec (.portTrainingDone n .failed) s = .next t
        ∧ (t.port n).trainFails = (s.port n).trainFails + 1 ∧ (t.port n).state = 1)
    ∧ ((s.port n).state = 1 → 2 ≤ (s.port n).trainFails → ∃ t, exec (.portTrainingDone n .failed) s = .next t ∧ (t.port n).state = 7)
    ∧ (∀ fibre, (s.port n).state = 1 → s.lanesOut n false [] = [] → s.lanesOut n true [] = [] →
      ∃ t, exec (.portTrainingDone n (.trained fibre [] [])) s = .next t ∧ (t.port n).state = 2
        ∧ (t.port n).fibreNs = fibre % 65536 ∧ (t.port n).creditReq = 12288 ∧ (t.port n).creditRsp = 4096
        ∧ (t.port n).txSeq = 0 ∧ (t.port n).rxSeq = 0 ∧ (t.port n).keyed = false
        ∧ (∃ h, t.out = s.out ++ [.frame n (mkFrame 0x30 0 0 0 0 0 0 (.hello h))] ∧ h.identity = s.trust.identity
            ∧ h.torusId = s.torusId ∧ (h.x, h.y, h.z) = s.coord ∧ h.runId = s.runIdOf n ∧ h.epoch = (t.port n).localEpoch) ∧ Kept s t)
    ∧ (∀ fibre, (s.port n).state = 4 → (s.port n).keyed = true → s.lanesOut n false [] = [] → s.lanesOut n true [] = [] →
      ∃ t g, exec (.portTrainingDone n (.trained fibre [] [])) s = .next t ∧ (t.port n).state = 4 ∧ t.out = s.out ++ [.frame n g]
        ∧ g.payload = .resume (s.port n).localEpoch (s.port n).partnerEpoch (s.port n).rxSeq ∧ Kept s t)
    ∧ ((s.port n).state = 4 → ∃ t, exec (.portRetrainTimeout n) s = .next t ∧ (t.port n).state = 7
        ∧ (s.port n).since + 20000000 ≤ t.localNs ∧ Kept s t)
    ∧ ((s.port n).state = 6 → (s.port n).refuse ≠ 0 → (s.port n).los = false → ∃ t, exec (.refusedRetry n) s = .next t
        ∧ (t.port n).state = 1 ∧ (s.port n).since + 1000000000 ≤ t.localNs ∧ Kept s t)
    ∧ (∀ k, s.holdsLease k = true → (s.port n).state = 3 →
      exec (.portRetrainRequest n k) s = .next (s.retrain n) ∧ ((s.retrain n).port n).state = 4
        ∧ ((s.retrain n).port n).retrainSeen = true)
    ∧ (∀ k, s.holdsLease k = true → (s.port n).state ≠ 3 → exec (.portRetrainRequest n k) s = .next s)
    ∧ (∀ k v hw, s.holdsLease k = true → v.toNat % 256 = n → v.toNat < 2048 → ∃ t, exec (.portFlagClear v hw k) s = .next t
        ∧ (t.port n).newEpochSeen = (((s.port n).newEpochSeen && !v.getLsbD 8) || hw.getLsbD 8)
        ∧ (t.port n).authSeen = (((s.port n).authSeen && !v.getLsbD 9) || hw.getLsbD 9)
        ∧ (t.port n).retrainSeen = (((s.port n).retrainSeen && !v.getLsbD 10) || hw.getLsbD 10)
        ∧ (∀ m, m ≠ n → t.port m = s.port m) ∧ Kept s t)

/-- R24, R318, R320: a complete torus group of a one-module box of a running partition ends its collective at once with its own sum; in a
larger box its entry is held and sent along the first axis, Z before Y before X. A stage whose line is complete sums its entries from +0
in increasing coordinate, and the last stage releases. A partition that has been stopped sends no entry. -/
def Sys2Proof.Claims.Collectives : Prop :=
  ∀ (s : State) (p g : Nat), p < 8 → g < 256 →
    (s.groupOwner g = some p → (s.group g).full = true → (s.group g).torus = true → (s.group g).sent = false →
      (s.part p).running = true →
      ((∀ a, a < 3 → s.hasStage p g a = false) → ∃ t, exec (.stageEntrySend p g) s = .next t ∧ (t.group g).sent = true
          ∧ (t.coll g).release = some (if (s.group g).reduce then (s.group g).sum.1 else 0) ∧ Kept s t)
      ∧ (∀ a, a < 3 → s.hasStage p g a = true → (∀ b, a < b → b < 3 → s.hasStage p g b = false) →
        (∃ k ∈ s.lineCoords p a, k ≠ s.axisCoord a ∧
          ∀ e ∈ (s.coll g).entries, ¬(e.axis = a ∧ e.coord = k)) →
        ∃ t, exec (.stageEntrySend p g) s = .next t ∧ (t.group g).sent = true ∧ (t.coll g).axis = some a
          ∧ (∃ e ∈ (t.coll g).entries, e.axis = a ∧ e.coord = s.axisCoord a ∧ e.group = g
              ∧ e.value = (if (s.group g).reduce then (s.group g).sum.1 else 0)) ∧ (t.coll g).release = none ∧ Kept s t))
    ∧ ((s.part p).running = false ∨ (s.group g).full = false ∨ (s.group g).sent = true →
      exec (.stageEntrySend p g) s = .next s)
    ∧ (∀ a es, (s.coll g).axis = some a → (s.lineCoords p a).map (fun k => (s.coll g).held a k) = List.map some es →
      (∀ b, b < a → s.hasStage p g b = false) →
      ((s.closeStage p g).coll g).release
        = some (if (s.group g).reduce then (sumFrom0 (es.map (fun e => fw e.value))).1 else 0)
      ∧ ((s.closeStage p g).coll g).axis = none)
    ∧ (∀ a k, (s.coll g).axis = some a → k ∈ s.lineCoords p a → (s.coll g).held a k = none → s.closeStage p g = s)

/-- R322, R324, R325, R437, R439: without a valid frame of the parent for 10 ms a module that is not root is without parent or has chosen
another; a root that has seen no smaller tag for 10 ms is root again with a new root epoch; a module without any correction 10 s after
READY runs on its own time; an error of at most 1 s is slewed, never stepped. -/
def Sys2Proof.Claims.TorusTime : Prop :=
  ∀ (s : State),
    (∀ m, s.torusTime.parent = some m → s.torusTime.root = false → ∃ t, exec .timeParentTimeout s = .next t
        ∧ s.torusTime.lastValid + 10000000 ≤ t.localNs ∧ (t.torusTime.parent = none → t.torusTime.depth = 255) ∧ Kept s t)
    ∧ (∀ at_, s.torusTime.smallerAt = some at_ → s.timeRoot = true → ∃ t, exec .rootConflictEnd s = .next t
        ∧ t.torusTime.root = true ∧ t.torusTime.depth = 0 ∧ t.torusTime.smallerAt = none ∧ at_ + 10000000 ≤ t.localNs
        ∧ t.torusTime.epoch = epochOf (s.torusTime.epoch.toNat / 65536 + 1) 0 ∧ Kept s t)
    ∧ (s.torusTime.locked = false → s.torusTime.noRoot = false → s.torusTime.root = false → s.boot.moduleState = 1 →
      ∃ t, exec .noRootTimeout s = .next t ∧ t.torusTime.noRoot = true ∧ t.torusTime.holdover = true
        ∧ s.boot.readyAt + 10000000000 ≤ t.localNs ∧ t.ttNs = BitVec.ofNat 64 t.localNs ∧ Kept s t)
    ∧ (∀ n f rx at_ q, n < 256 → (s.port n).state = 3 → rx.badLane = none → rx.tagOk = true → f.payload = .time q →
      exec (.timeFrame n f rx at_) s = .next ((s.takeHeader n f).takeTime n at_ q)
        ∧ (((s.takeHeader n f).takeTime n at_ q).port n).timeIn
          = some ⟨q.tTx, at_, q.depth, q.rootTag, q.epoch, q.holdover, s.localNs⟩)
    ∧ (∀ off : Int, s.torusTime.locked = true → s.torusTime.ahead = 0 → off.natAbs ≤ 1000000000 →
      let t := s.correct off
      t.ttNs = s.ttNs ∧ t.torusTime.epoch = s.torusTime.epoch ∧ t.torusTime.rest = off * 16777216 ∧ t.torusTime.holdover = false)

/-! The host port and the server ports (chapter 11). -/

namespace Sys2Proof.Claims

/-- The commands that take a queue's next entry, with its OP. -/
def entryCommands (q : Nat) (e : SqEntry) (data : List Byte) (tags : List Bool) (image : Option Binding) : List (Instr × Nat) :=
  [(.bindLoad q e data tags image, 1), (.sqWrite q e data tags, 2), (.sqRead q e, 3), (.ingest q e data tags, 4),
   (.psPush q e, 5), (.psPull q e, 6)]

/-- The state in which the bytes of a BIND_LOAD entry have been received: the entry in progress, the image's earlier bytes and these
kept, the partition loading without a measurement (R339, R385). -/
def imageTaken (s : State) (q : Nat) (e : SqEntry) (data : List Byte) : State :=
  ((((s.takeEntry q 1 e).useSeal q 0 e).modBind (q / 2) (fun x => { x with
    received := (if e.target.toNat = 0 then [] else x.received) ++ data, loading := true, state := 1 })).modOwner (q / 2)
      (fun o => { o with measure := 0 })).modJob q (fun j => { j with moved := e.length })

/-- A host entry is in progress on a queue, with its OP and what it will end with so far. -/
def InProgress (t : State) (q op : Nat) (e : SqEntry) (status : Nat) : Prop :=
  ∃ j, (t.hostQ q).job = some j ∧ j.op = op ∧ j.e = e ∧ j.status = status

end Sys2Proof.Claims

/-- R331, R332, R335: the doorbells of an enabled queue set its tail and head within the queue's size, and cover nothing while EN is 0;
setting EN returns both rings' pointers to 0 with phase 1, and a size is written only while EN is 0. -/
def Sys2Proof.Claims.HostQueueRegisters : Prop :=
  ∀ (s : State) (q : Nat) (v : Word), q < 16 →
    ((s.hostQ q).en = true → ∃ t, exec (.sqTailWrite q v) s = .next t
        ∧ t.hostQ q = { s.hostQ q with sqTail := v.toNat % 2 ^ (s.hostQ q).sqLog2 } ∧ Kept s t)
    ∧ ((s.hostQ q).en = false → ∃ t, exec (.sqTailWrite q v) s = .next t ∧ t.hostQ q = s.hostQ q ∧ Kept s t)
    ∧ ((s.hostQ q).en = true → ∃ t, exec (.cqHeadWrite q v) s = .next t
        ∧ t.hostQ q = { s.hostQ q with cqHead := v.toNat % 2 ^ (s.hostQ q).cqLog2 } ∧ Kept s t)
    ∧ ((s.hostQ q).en = false → exec (.cqHeadWrite q v) s = .next s)
    ∧ ((s.hostQ q).en = false → ∃ t, exec (.hqCfgWrite q v) s = .next t
        ∧ (t.hostQ q).sqLog2 = (if 4 ≤ fld v 3 0 ∧ fld v 3 0 ≤ 12 then fld v 3 0 else (s.hostQ q).sqLog2)
        ∧ (t.hostQ q).cqLog2 = (if 4 ≤ fld v 7 4 ∧ fld v 7 4 ≤ 12 then fld v 7 4 else (s.hostQ q).cqLog2)
        ∧ ((t.hostQ q).en = true ↔ v.getLsbD 8 = true ∧ (s.owner (q / 2)).busy = false)
        ∧ (v.getLsbD 8 = false → (t.hostQ q).sqTail = (s.hostQ q).sqTail ∧ (t.hostQ q).cqHead = (s.hostQ q).cqHead) ∧ Kept s t)
    ∧ ((s.hostQ q).en = false → v.getLsbD 8 = true → (s.owner (q / 2)).busy = false → 4 ≤ fld v 3 0 → fld v 3 0 ≤ 12 →
        4 ≤ fld v 7 4 → fld v 7 4 ≤ 12 → ∃ t, exec (.hqCfgWrite q v) s = .next t
        ∧ t.hostQ q = { s.hostQ q with en := true, irqEn := v.getLsbD 9, sqLog2 := fld v 3 0, cqLog2 := fld v 7 4,
                                       sqHead := 0, sqTail := 0, cqTail := 0, cqHead := 0, phase := true } ∧ Kept s t)
    ∧ ((s.hostQ q).en = true → ∃ t, exec (.hqCfgWrite q v) s = .next t
        ∧ (t.hostQ q).sqLog2 = (s.hostQ q).sqLog2 ∧ (t.hostQ q).cqLog2 = (s.hostQ q).cqLog2
        ∧ ((t.hostQ q).en = true ↔ v.getLsbD 8 = true ∧ (s.owner (q / 2)).busy = false) ∧ Kept s t)

/-- R332, R333, R335: an entry is taken only from an enabled queue that covers one, on a READY module, with none in progress; taking one
moves SQ_HEAD past it; a misaligned length ends it with ALIGN before its first request, with nothing moved. -/
def Sys2Proof.Claims.HostEntries : Prop :=
  ∀ (s : State) (q : Nat) (e : SqEntry) (data : List Byte) (tags : List Bool) (image : Option Binding) (i : Instr) (op : Nat),
    q < 16 → (i, op) ∈ entryCommands q e data tags image →
    (s.queueReady q = false → exec i s = .next s)
    ∧ (s.queueReady q = true → (s.wakeOf (q / 2)).w = 0 → e.length % 64 ≠ 0 ∨ e.length = 0 → ∃ t, exec i s = .next t
        ∧ (t.hostQ q).sqHead = ((s.hostQ q).sqHead + 1) % 2 ^ (s.hostQ q).sqLog2 ∧ (t.hostQ q).sqTail = (s.hostQ q).sqTail
        ∧ (∃ j, (t.hostQ q).job = some j ∧ j.op = op ∧ j.e = e ∧ j.status = 3 ∧ j.moved = 0)
        ∧ t.store.reqs = s.store.reqs ∧ Kept s t)

/-- R194, R333, R336 to R341, R347, R385: an entry whose checks pass becomes requests of its partition: a WRITE carries the payload to
the store, as far as its chunks verify, a READ asks for it, a push reads the region; an INGEST sends its data over the bridges to the edge
link of its flow, as elastic flits; a pull waits for its data; the image bytes of a BIND_LOAD are kept, and with LAST the image is loaded
or refused with its BIND_REFUSE code. An unsealed entry needs a test state, a sealed one the partition's key, a sealed payload a SEAL_SEQ not yet
used. -/
def Sys2Proof.Claims.HostTransfers : Prop :=
  ∀ (s : State) (q : Nat) (e : SqEntry) (data : List Byte) (tags : List Bool) (image : Option Binding),
    q < 16 → s.queueReady q = true → entryMisaligned e = false →
    let p := q / 2
    let n := goodBytes e tags
    (s.sealStatus q 0 e = 0 → e.target.toNat % 64 = 0 → e.target.toNat < 2 ^ 48 → saView e.target.toNat = false →
      saRun e.target.toNat e.length = true →
      ∃ t, exec (.sqWrite q e data tags) s = .next t ∧ InProgress t q 2 e (if n < e.length then 4 else 0)
        ∧ (∃ rs, t.store.reqs = s.store.reqs ++ rs ∧ (∀ r ∈ rs, r.op = .write ∧ r.part = p ∧ r.status = .queued ∧ r.len ≤ 512)
            ∧ (rs.map StoreReq.len).sum = n)
        ∧ (e.sealed = true → mapGet (natD 0) t.host.sealUsed (2 * p) = e.sealSeq + 1) ∧ Kept s t)
    ∧ (s.sealStatus q 1 e = 0 → e.target.toNat % 64 = 0 → e.target.toNat < 2 ^ 48 → saRun e.target.toNat e.length = true →
      ∃ t, exec (.sqRead q e) s = .next t ∧ InProgress t q 3 e 0
        ∧ (∃ rs, t.store.reqs = s.store.reqs ++ rs ∧ (∀ r ∈ rs, r.op = .read ∧ r.part = p ∧ r.status = .queued ∧ r.len ≤ 512)
            ∧ (rs.map StoreReq.len).sum = e.length)
        ∧ (e.sealed = true → mapGet (natD 0) t.host.sealUsed (2 * p + 1) = e.sealSeq + 1) ∧ Kept s t)
    ∧ (s.psStatus q e = 0 → ∃ t, exec (.psPush q e) s = .next t ∧ InProgress t q 5 e 0
        ∧ (∃ rs, t.store.reqs = s.store.reqs ++ rs ∧ (∀ r ∈ rs, r.op = .read ∧ r.part = p ∧ r.len ≤ 512)
            ∧ (rs.map StoreReq.len).sum = e.length)
        ∧ Kept s t)
    ∧ (s.psStatus q e = 0 → ∃ t, exec (.psPull q e) s = .next t ∧ InProgress t q 6 e 0 ∧ t.store = s.store
        ∧ (t.hostQ q).sqHead = ((s.hostQ q).sqHead + 1) % 2 ^ (s.hostQ q).sqLog2 ∧ Kept s t)
    ∧ (∀ u, s.sealStatus q 0 e = 0 → e.target.toNat < 256 → (hflowOf (s.hflowWord e.target.toNat)).en = true →
      mapGet (natD 255) s.host.flowOwner e.target.toNat = p → 0 < n →
      let edge := bitsN (s.hflowWord e.target.toNat) 5 4
      let c := s.hflowCluster e.target.toNat
      let key := queueKey c edge p
      let held (v : State) := (mapGet flitsD v.fabric.queues key ++ mapGet flitsD v.fabric.edges key).map (fun x => (x.words, x.cargo))
      s.fromHost p edge n = some u →
      ∃ t, exec (.ingest q e data tags) s = .next t ∧ InProgress t q 4 e (if n < e.length then 4 else 0) ∧ t.store = u.store
        ∧ held t = held s ++ (mkFlits p c edge 0 (payloadWords data n)
            (fun _ => .toFlow c q e.target.toNat (hflowOf (s.hflowWord e.target.toNat)).circ)).map (fun x => (x.words, x.cargo))
        ∧ Kept s t)
    ∧ (s.sealStatus q 0 e = 0 → (s.wakeOf p).w = 0 → e.target.toNat = (s.bind p).received.length ∨ e.target.toNat = 0 →
      s.loadable p = true → (s.bind p).state ≠ 5 → data.length = e.length → n = e.length →
      let v := imageTaken s q e data
      let got := (v.bind p).received
      let code := if v.loadBusy p then refuseBusy else v.bindRefuse p image got.length
      (e.last = false → exec (.bindLoad q e data tags image) s = .next v ∧ (v.bind p).state = 1
        ∧ got = (if e.target.toNat = 0 then [] else (s.bind p).received) ++ data ∧ (v.owner p).measure = 0 ∧ InProgress v q 1 e 0
        ∧ Kept s v)
      ∧ (e.last = true → code ≠ 0 → ∃ t, exec (.bindLoad q e data tags image) s = .next t ∧ InProgress t q 1 e 8
        ∧ (t.bind p).refuse = code ∧ (t.bind p).loading = false ∧ (t.bind p).image = (s.bind p).image
        ∧ (t.bind p).state = (if (s.bind p).image.isSome then 4 else 0) ∧ Kept s t)
      ∧ (e.last = true → code = 0 → ∃ t, exec (.bindLoad q e data tags image) s = .next t ∧ InProgress t q 1 e 0
        ∧ (t.bind p).state = 2 ∧ (t.bind p).refuse = 0 ∧ (t.bind p).image = image ∧ (t.owner p).measure = sha384 got
        ∧ t.pmap = s.pmap ∧ t.pending = s.pending))
    ∧ (e.sealed = false → n = e.length)
    ∧ (e.sealed = true → (e.length + 4095) / 4096 ≤ tags.length → (∀ b ∈ tags, b = true) → n = e.length)
    ∧ (∀ k, e.sealed = true → tags[k]? = some false → n ≤ 4096 * k)
    ∧ (∀ dir, (e.sealed = false → s.sealStatus q dir e = if s.testState then 0 else 4)
        ∧ (e.sealed = true → (s.owner p).keyState ≠ 2 → s.sealStatus q dir e = 4)
        ∧ (e.sealed = true → (s.owner p).keyState = 2 →
            s.sealStatus q dir e = if e.sealSeq < mapGet (natD 0) s.host.sealUsed (2 * p + dir) then 9 else 0))
    ∧ (let a := psAddr e
       a % 64 = 0 → saView a = false → saRun a e.length = true →
       (if e.sealed then (s.owner p).keyState ≠ 2 else s.testState = false) → s.psStatus q e = 4
         ∧ (∃ t, exec (.psPush q e) s = .next t ∧ InProgress t q 5 e 4 ∧ t.store = s.store)
         ∧ ∃ t, exec (.psPull q e) s = .next t ∧ InProgress t q 6 e 4 ∧ t.store = s.store)

/-- R332, R334, R336: an entry whose effects are done writes its completion with the phase of its place and moves the tail; a completion
that would overflow disables the queue with cause 4; a link that goes down disables every queue with cause 1. -/
def Sys2Proof.Claims.HostCompletions : Prop :=
  ∀ (s : State) (q : Nat) (j : HostJob), q < 16 →
    ((s.hostQ q).job = some j → s.jobDone q j = true → (s.hostQ q).unread + 1 < 2 ^ (s.hostQ q).cqLog2 →
      let st := if j.status = 0 ∧ j.op = 3 ∧ 0 < j.poison then 6 else j.status
      ∃ t, exec (.entryComplete q) s = .next t ∧ (t.hostQ q).job = none
        ∧ (t.hostQ q).cqTail = ((s.hostQ q).cqTail + 1) % 2 ^ (s.hostQ q).cqLog2
        ∧ ((t.hostQ q).phase = (s.hostQ q).phase ↔ (s.hostQ q).cqTail + 1 ≠ 2 ^ (s.hostQ q).cqLog2)
        ∧ Out.completion q j.e.cid st (b2n (s.hostQ q).phase + 2 * b2n j.mixed) (s.hostQ q).sqHead j.moved j.poison ∈ t.out
        ∧ (j.op = 3 → j.output.flatten ≠ [] → .toHost q 0 (bytesOfWords j.output.flatten) ∈ t.out)
        ∧ (Out.msix q ∈ t.out.drop s.out.length ↔ j.e.irq = true ∧ (s.hostQ q).irqEn = true) ∧ Kept s t)
    ∧ ((s.hostQ q).job = some j → s.jobDone q j = true → 2 ^ (s.hostQ q).cqLog2 ≤ (s.hostQ q).unread + 1 →
      ∃ t, exec (.entryComplete q) s = .next t ∧ (t.hostQ q).en = false ∧ (t.hostQ q).qerr = true ∧ (t.hostQ q).cause = 4
        ∧ Kept s t)
    ∧ ((s.hostQ q).job = some j → s.jobDone q j = false → exec (.entryComplete q) s = .next s)
    ∧ (∃ t, exec .hostLinkDown s = .next t ∧ (t.hostQ q).en = false ∧ (t.hostQ q).cause = 1 ∧ (t.hostQ q).job = none
        ∧ t.host.rate = 0 ∧ t.host.width = 0 ∧ t.boot.hostUp = false ∧ Kept s t)
    ∧ (∀ rate width flit, 1 ≤ rate → rate ≤ 6 → width ∈ [1, 2, 4, 8, 16] → ∃ t, exec (.hostLinkUp rate width flit) s = .next t
        ∧ t.host = { s.host with rate := rate, width := width, flit := flit } ∧ t.boot = { s.boot with hostUp := true })
    ∧ (s.boot.step < 4 → exec .perstDeassert s = .next s)
    ∧ (4 ≤ s.boot.step → exec .perstDeassert s = .next { s with host := { s.host with configBy := some (s.localNs + 100000000) } })

/-- R343, R384: a datagram is accepted once: its session up, its tag and key generation right, its PKT_SEQ inside the window of 1,024 and
not seen before; any other is dropped without effect. A handshake that names the bound key starts a fresh generation. -/
def Sys2Proof.Claims.DatagramWindow : Prop :=
  ∀ (s : State) (d : Dgram),
    let x := s.srv d.part d.peer
    ((8 ≤ d.part ∨ 9 ≤ d.peer ∨ x.up = false ∨ d.tagOk = false ∨ d.keyGen ≠ x.keyGen ∨ 2 ^ 48 ≤ d.pktSeq ∨ (∃ h, x.rxHigh = some h ∧ (d.pktSeq + 1024 ≤ h ∨ d.pktSeq ∈ x.rxSeen))) →
      exec (.expAck d) s = .next s ∧ exec (.psData d) s = .next s ∧ exec (.psAck d) s = .next s ∧ exec (.keepalive d) s = .next s)
    ∧ (d.part < 8 → d.peer < 9 → x.up = true → d.tagOk = true → d.keyGen = x.keyGen → d.pktSeq < 2 ^ 48 → (∀ h, x.rxHigh = some h → h < d.pktSeq + 1024 ∧ d.pktSeq ∉ x.rxSeen) →
      ∃ t, exec (.keepalive d) s = .next t ∧ (t.srv d.part d.peer).rxHigh = some (max (x.rxHigh.getD 0) d.pktSeq)
        ∧ (∃ h, (t.srv d.part d.peer).rxHigh = some h ∧ (d.pktSeq ∈ (t.srv d.part d.peer).rxSeen ∨ d.pktSeq + 1024 ≤ h))
        ∧ exec (.keepalive d) t = .next t ∧ Kept s t)
    ∧ (∀ b hash, (s.bind d.part).image = some b → mapFind b.peers d.peer = some hash → (s.owner d.part).keyState = 2 →
      s.trust.lifecycle = 2 → ∃ t, exec (.serverHandshake d.part d.peer hash true) s = .next t
        ∧ t.srv d.part d.peer = { x with up := true, keyGen := x.keyGen + 1, txSeq := 0, rxHigh := none, rxSeen := [] })
    ∧ (∀ hash, exec (.serverHandshake d.part d.peer hash false) s = .next s)

/-- R262, R345, R346: an accepted acknowledgement of a committed segment advances the export, frees the halves it covers and returns the
retransmission time to 2 ms; without one, every segment past the acknowledged is sent again and the time doubles to at most 256 ms; 30 s
without any advance report EXPORT_STALLED. -/
def Sys2Proof.Claims.ExportProtocol : Prop :=
  ∀ (s : State) (stack p : Nat), stack < 24 → p < 8 →
    (∀ d : Dgram, d.part = p → d.stack = stack → d.peer = 8 → (s.srv p 8).accepts d = true → (s.exp stack p).acked < d.ackId →
      (∃ g ∈ (s.uep stack p).exportable, g.seg.toNat = d.ackId) → ∃ t, exec (.expAck d) s = .next t ∧ (t.exp stack p).acked = d.ackId
        ∧ (t.exp stack p).rto = 2000000 ∧ (t.exp stack p).nextSeg = max (s.exp stack p).nextSeg (d.ackId + 1)
        ∧ ((∃ h ∈ (s.uep stack p).halves, h.released = true ∧ h.acked = false ∧ ∀ g ∈ h.segs, g.seg.toNat ≤ d.ackId) →
            (t.uep stack p).exportAcked = BitVec.ofNat 32 (t.uep stack p).ackedStep)
        ∧ p ∉ t.server.stalled
        ∧ (∀ h ∈ (t.uep stack p).halves, h.released = true → (∀ g ∈ h.segs, g.seg.toNat ≤ d.ackId) → h.acked = true)
        ∧ Kept s t)
    ∧ ((s.exp stack p).acked + 1 < (s.exp stack p).nextSeg → ∃ t, exec (.exportRetransmit stack p) s = .next t
        ∧ (t.exp stack p).nextSeg = (s.exp stack p).acked + 1 ∧ (t.exp stack p).nextOff = 0
        ∧ (t.exp stack p).rto = min 256000000 (2 * (s.exp stack p).rto)
        ∧ (s.exp stack p).sentAt + (s.exp stack p).rto ≤ t.localNs ∧ Kept s t)
    ∧ ((s.ueps.any (fun kv => kv.1 % 8 == p && kv.2.halves.any (fun h => h.released && !h.acked))) = true →
      ∃ t, exec (.exportStallTimeout p) s = .next t ∧ p ∈ t.server.stalled
        ∧ mapGet (natD 0) s.server.advancedAt p + 30000000000 ≤ t.localNs ∧ Kept s t)

/-- R342, R344 to R347, Table 11.5: a push is done when its peer acknowledges; 10 s without progress end an exchange with PEER_FAIL; a slot
of the port's frame sends one datagram for the slot's owner and nothing while the link is down; ICMPv6 queries are answered on a port
that is up, and Packet Too Big bounds the datagrams. -/
def Sys2Proof.Claims.ServerPorts : Prop :=
  ∀ (s : State),
    (∀ d q j, d.part < 8 → d.peer < 9 → (s.srv d.part d.peer).accepts d = true → s.transferQueue d.part 5 d.ackId d.peer = some q →
      (s.hostQ q).job = some j → ∃ t, exec (.psAck d) s = .next t
        ∧ (∃ k, (t.hostQ q).job = some k ∧ k.acked = j.e.length) ∧ Kept s t)
    ∧ (∀ d q j, d.part < 8 → d.peer < 9 → (s.srv d.part d.peer).accepts d = true → s.transferQueue d.part 6 d.id d.peer = some q →
      (s.hostQ q).job = some j → 64 ≤ d.data.length → d.offset % 64 = 0 → d.offset + d.data.length ≤ j.e.length →
      mapFind j.read d.offset = none → ∃ t, exec (.psData d) s = .next t
        ∧ (∃ k, (t.hostQ q).job = some k ∧ k.acked = j.acked + d.data.length / 64 * 64)
        ∧ (∃ rs, t.store.reqs = s.store.reqs ++ rs ∧ (∀ r ∈ rs, r.op = .write ∧ r.part = q / 2)) ∧ Kept s t)
    ∧ (∀ q j, q < 16 → (s.hostQ q).job = some j → j.op = 5 ∨ j.op = 6 → j.status = 0 → s.jobDone q j = false →
      ∃ t, exec (.psPeerTimeout q) s = .next t ∧ (∃ k, (t.hostQ q).job = some k ∧ k.status = 10)
        ∧ j.progressAt + 10000000000 ≤ t.localNs ∧ Kept s t)
    ∧ (∀ k slot, k < 2 → slot < 256 →
      ((s.srvPort k).up = false → ∃ t, exec (.serverDatagramSend k slot) s = .next t ∧ (t.srvPort k).slot = slot
          ∧ t.out = s.out ∧ Kept s t)
      ∧ (∃ t, exec (.serverDatagramSend k slot) s = .next t ∧ (t.out = s.out ∨ ∃ ty g, t.out = s.out ++ [.datagram k ty g]
          ∧ slotOwner s.pmap.srvShare slot = some g.part) ∧ Kept s t)
      ∧ (∀ p stack rest g, (s.srvPort k).up = true → slotOwner s.pmap.srvShare slot = some p →
        (List.range 24).filter (fun j => s.exportPort j == k && (s.nextSegment j p).isSome && (s.srv p 8).usable && s.exportDest p != 0)
          = stack :: rest → s.nextSegment stack p = some g →
        ∃ t d, exec (.serverDatagramSend k slot) s = .next t ∧ t.out = s.out ++ [.datagram k 0x01 d] ∧ d.part = p ∧ d.stack = stack
          ∧ d.id = (s.exp stack p).nextSeg ∧ d.offset = (s.exp stack p).nextOff ∧ d.keyGen = (s.srv p 8).keyGen
          ∧ d.data = ((segBytes g p stack s.coord.1 s.coord.2.1 s.coord.2.2).drop (s.exp stack p).nextOff).take (s.payloadMax k)
          ∧ (t.srv p 8).txSeq = (s.srv p 8).txSeq + 1 ∧ Kept s t))
    ∧ (∀ k, k < 2 → (∃ t, exec (.serverLinkDown k) s = .next t ∧ (t.srvPort k).up = false)
      ∧ (∃ t, exec (.serverLinkUp k) s = .next t ∧ (t.srvPort k).up = true)
      ∧ (∀ mtu, ∃ t, exec (.icmpv6Message k (.packetTooBig mtu)) s = .next t ∧ (t.srvPort k).mtu = some mtu)
      ∧ ((s.srvPort k).up = true → exec (.icmpv6Message k .neighbourSolicitation) s = .next (s.emit (.icmp k 0))
        ∧ exec (.icmpv6Message k .echoRequest) s = .next (s.emit (.icmp k 1)))
      ∧ exec (.icmpv6Message k .unreachable) s = .next s)

/-! Faults, trust, power, clocks and bring-up (chapters 12 to 16). -/

/-- R356, R359, R528: the oldest retirement record that is not in storage is committed; one of an element with an owner waits for its
owner's stop; clearing an element's records is for MANUFACTURE and DEBUG with every partition stopped. -/
def Sys2Proof.Claims.RetirementRecords : Prop :=
  ∀ (s : State) (k : MCore) (e : Nat),
    (∀ r, s.faults.recs.find? (fun x => !x.committed) = some r → s.elemOwned r.element = true →
      exec .retirementRecordCommit s = .next { s with faults := { s.faults with
        recs := s.faults.recs.map (fun x => if x.inst = r.inst then { x with committed := true } else x) } })
    ∧ ((∀ r ∈ s.faults.recs, r.committed = true) → exec .retirementRecordCommit s = .next s)
    ∧ (s.holdsLease k = true → s.testState = true → s.allStopped = true → ∃ t, exec (.retirementClear e k) s = .next t
        ∧ (∀ r, r ∈ t.faults.recs ↔ r ∈ s.faults.recs ∧ r.element ≠ e) ∧ t.fabric = s.fabric ∧ Kept s t)
    ∧ (s.holdsLease k = true → ¬(s.testState = true ∧ s.allStopped = true) → exec (.retirementClear e k) s = .next s)

/-- R352 to R354, R366: one detected event stamps its element and counts in its class; an unmarked element whose event reaches the
threshold of its class is marked and its record awaits storage. -/
def Sys2Proof.Claims.ElementEvents : Prop :=
  ∀ (s : State) (e cause action : Nat) (part : Option Nat) (uncorr : Bool) (detail : Word), e < 2 ^ 64 →
    let cls := e / 2 ^ 56
    let r := s.elementEvent e .marking uncorr part cause action detail
    (mapGet elemD r.1.faults.elems e).stamps = (s.localNs :: (mapGet elemD s.faults.elems e).stamps).take 15
    ∧ (r.1.counter (counterKey 0x5010 cls 0)).value = (s.counter (counterKey 0x5010 cls 0)).value + 1
    ∧ (r.2 = true → (mapGet elemD r.1.faults.elems e).marked = true
        ∧ ∃ x ∈ r.1.faults.recs, x.element = e ∧ x.state = 0 ∧ x.committed = false)
    ∧ (r.2 = false → r.1.faults.recs = s.faults.recs)
    ∧ Kept s r.1

/-- R372, R374 to R376, Table 13.4: a lifecycle command that fails a check reports the first that fails and changes nothing else; an accepted
SET_SVN raises FW_SVN to its argument and uses up the nonce; ENTER_DEBUG, RELEASE and RETIRE stop every partition, remove every owner
and key, and enter their state. -/
def Sys2Proof.Claims.LifecycleCommands : Prop :=
  ∀ (s : State) (x : LcCmd) (k : MCore) (i : Instr) (fail : Nat), s.holdsLease k = true → x.magicOk = true →
    (i, fail) ∈ [(Instr.enterDebug x k, s.cmdFail x [2] true (if s.trust.debugCount < 64 then 0 else 6)),
      (.release x k, s.cmdFail x [2] false 0), (.retire x k, s.cmdFail x [2, 3] false 0),
      (.setSvn x k, s.cmdFail x [2, 3] false (if x.arg ≤ s.trust.imageSvn then 0 else 5))] →
    (fail ≠ 0 → exec i s = .next { s with trust := { s.trust with cmdFail := fail } })
    ∧ (i = .setSvn x k → fail = 0 → ∃ t, exec i s = .next t ∧ t.trust.fwSvn = max s.trust.fwSvn x.arg ∧ t.trust.cmdFail = 0
        ∧ (∀ n at_ used, t.trust.report = some (n, at_, used) → used = true) ∧ t = { s with trust := t.trust })
    ∧ (i = .enterDebug x k → fail = 0 → ∃ t, exec i s = .next t ∧ t.trust.lifecycle = 3
        ∧ t.trust.debugCount = s.trust.debugCount + 1 ∧ (∀ p, p < 8 → (t.owner p).id = 0 ∧ (t.owner p).keyState = 0
          ∧ (t.part p).running = false) ∧ t.maunvo.sessions = [])
    ∧ (i = .release x k → fail = 0 → ∃ t, exec i s = .next t ∧ t.trust.lifecycle = 1 ∧ t.trust.operatorPk = []
        ∧ (∀ p, p < 8 → (t.owner p).id = 0 ∧ (t.owner p).keyState = 0 ∧ (t.part p).running = false))
    ∧ (i = .retire x k → fail = 0 → ∃ t, exec i s = .next t ∧ t.trust.lifecycle = 4 ∧ t.trust.retiredFuse = true
        ∧ t.power.selfRefresh = true ∧ (∀ n, (t.port n).state = 0 ∨ (t.port n).state = 7))

/-- R371, R372, R377 to R381, R386, R490, R491: provisioning; the operator's key and an owner are asked into storage; an owner's zeroing
ends at its time; a report is issued and remembered; a delivered key is held with its RUN_ID, or refused with the first check that
fails. -/
def Sys2Proof.Claims.OwnersAndKeys : Prop :=
  ∀ (s : State) (k : MCore) (p : Nat), p < 8 →
    (∀ h, s.trust.lifecycle = 0 → s.trust.provisionedFuse = false → ∃ t, exec (.provisioning h) s = .next t
        ∧ t.trust.lifecycle = 1 ∧ t.trust.identity = h ∧ t.trust.provisionedFuse = true ∧ Kept s t)
    ∧ (∀ pk, s.holdsLease k = true → s.trust.lifecycle = 1 → List.length pk = 2592 → exec (.operatorPkWrite pk k) s
        = .next (s.nvRequest 1 0 (.lifecycle 2 pk s.trust.sealEpoch) (some k) none))
    ∧ (∀ id, s.holdsLease k = true → s.computeState = true → s.partStopped p = true → (s.owner p).id ≠ id → ∃ t w, exec (.ownerIdWrite p id k) s = .next t
        ∧ t.nv.writes = s.nv.writes ++ [w] ∧ w.core = some k ∧ t = { s with nv := t.nv })
    ∧ (∀ id, s.holdsLease k = true → (s.owner p).id = id → exec (.ownerIdWrite p id k) s = .next s)
    ∧ (∀ id, s.holdsLease k = true → s.partStopped p = false → exec (.ownerIdWrite p id k) s = .next s)
    ∧ ((s.owner p).busy = true → ∃ t, exec (.ownerZeroingComplete p) s = .next t ∧ (t.owner p).busy = false
        ∧ (s.owner p).busyUntil ≤ t.localNs ∧ (∀ c, s.owns p c = true → (t.cluster c).zeroBusy = false)
        ∧ (∃ n, t = { s.advance n with trust := t.trust, clusters := t.clusters }))
    ∧ (∀ nonce, ∃ t, exec (.attestationReport nonce 0xFF) s = .next t ∧ t.trust.report = some (nonce, s.localNs, false)
        ∧ t.out = s.out ++ [.report (s.reportBytes nonce 0xFF) false] ∧ t = { s with trust := t.trust, out := t.out })
    ∧ (∀ nonce, s.reportAllowed p = true → ∃ t, exec (.attestationReport nonce p) s = .next t
        ∧ t.out = s.out ++ [.report (s.reportBytes nonce p) (s.issuesEk p)])
    ∧ (∀ nonce scope, (8 ≤ scope ∧ scope ≠ 0xFF) ∨ s.reportAllowed scope = false → exec (.attestationReport nonce scope) s = .next s)
    ∧ (∀ d key, s.holdsLease k = true → d.magicOk = true → d.unwrapped = some key → s.keyFail p d = 0 → ∃ t, exec (.keyDelivery p d k) s = .next t
        ∧ (t.owner p).keyState = 2 ∧ (t.owner p).runKey = key ∧ (t.owner p).runId = runIdOfKey key
        ∧ t = { s with trust := t.trust, ports := t.ports, nv := t.nv, out := t.out })
    ∧ (∀ d, s.holdsLease k = true → d.magicOk = true → s.keyFail p d ≠ 0 → exec (.keyDelivery p d k) s
        = .next (s.modOwner p (fun o => { o with keyFail := s.keyFail p d })))

/-- R390, R391, R453: an input failure and an overvoltage stop every partition, darken the optics and put the stores into self-refresh,
the overvoltage holding the first stage off until its recovery; the safe state does so with its cause and halts the module. -/
def Sys2Proof.Claims.InputAndSafeState : Prop :=
  ∀ (s : State),
    (∃ t, exec .powerFail s = .next t ∧ t.power.on = false ∧ t.power.selfRefresh = true ∧ t.power.heldOff = s.power.heldOff
      ∧ (∀ p, p < 8 → (s.part p).running = true → (t.part p).stopRaised ≠ none)
      ∧ (∀ n, (t.port n).state = 0 ∨ (t.port n).state = 7) ∧ Kept s t)
    ∧ (∃ t, exec .overvoltage s = .next t ∧ t.power.on = false ∧ t.power.heldOff = true ∧ Kept s t)
    ∧ (∃ t, exec .overvoltageRecovery s = .next t ∧ t.power = { s.power with heldOff := false } ∧ Kept s t)
    ∧ (∀ cause, 1 ≤ cause → cause ≤ 5 → ∃ t, exec (.safeStateEntry cause) s = .next t ∧ t.boot.moduleState = 2
        ∧ t.boot.safeCause = cause ∧ t.power.selfRefresh = true ∧ (∀ p, p < 8 → (t.part p).running = false)
        ∧ (∀ q, q < 16 → (t.hostQ q).en = false))
    ∧ (∀ cause, cause = .tmax95 → 100 ≤ s.power.hotTicks → ∃ t, exec (.thermalTrip cause) s = .next t
        ∧ t.boot.moduleState = 2 ∧ t.boot.safeCause = 3 ∧ t.power.thermalTrip = true)
    ∧ (∃ t, exec .overdriveSave s = .next t ∧ t.nv.writes.length = s.nv.writes.length + 1 ∧ t = { s with nv := t.nv })

/-- R398, R399, R402, R403: steering moves a domain's set point up by 5 mV below the target margin and down by 2.5 mV from 4 above it,
within 0.60 to 0.85 V; an out-of-regulation event below the threshold raises it by 20 mV; an abnormal drop switches the domain off and
faults its clusters. -/
def Sys2Proof.Claims.RegulatorDomains : Prop :=
  ∀ (s : State) (d : Nat), d < domainCount s.power.mode → d < 4096 →
    (∀ codes, codes ≠ [] → (s.domain d).off = false → s.domainClocked d = true → ∃ t, exec (.steeringPeriod [(d, codes)]) s = .next t
        ∧ (t.domain d).margin = leastCode codes
        ∧ (leastCode codes < s.marginTarget → (t.domain d).setPoint = max 1200 (min 1700 ((s.domain d).setPoint + 10)))
        ∧ (s.marginTarget + 4 ≤ leastCode codes → (t.domain d).setPoint = max 1200 (min 1700 ((s.domain d).setPoint - 5)))
        ∧ (s.marginTarget ≤ leastCode codes → leastCode codes < s.marginTarget + 4 → (t.domain d).setPoint = (s.domain d).setPoint)
        ∧ (∃ n, t = { s.advance n with power := t.power }))
    ∧ ((s.domain d).off = false → (s.elementEvent (domainElement d) .marking false (s.domainOwner d) 0 0 0).2 = false →
        ∃ t, exec (.outOfRegulation d) s = .next t
          ∧ (t.domain d).setPoint = max 1200 (min 1700 ((s.domain d).setPoint + 40)) ∧ Kept s t)
    ∧ ((s.domain d).off = false → ∃ t, exec (.abnormalDrop d) s = .next t ∧ (t.domain d).off = true
        ∧ (∀ c ∈ domainClusters s.power.mode d, (t.cluster c).seq.state = .fault) ∧ Kept s t)

/-- R400, R401, R404 to R406, R408, R412: a tick counts sprint time above POWER_CAP; over its limit the controller lowers the margins first and stretches
next; at 95 degrees the thermal demand is 16; the greater demand is the stretch from the next slot frame; a group's header stages
follow one another. -/
def Sys2Proof.Claims.PowerTicks : Prop :=
  ∀ (s : State) (vin pf tmax : Nat),
    (∃ t, exec (.powerTick vin pf tmax) s = .next t ∧ t.power.vin = vin ∧ t.power.pf = pf ∧ t.power.tmax = tmax
        ∧ t.fabric.stretchNext = max t.power.sP t.power.sT
        ∧ (95000 ≤ tmax → t.power.sT = 16)
        ∧ (90000 ≤ tmax → tmax < 95000 → t.power.sT = min 16 (s.power.sT + 1))
        ∧ (88000 ≤ tmax → tmax < 90000 → t.power.sT = s.power.sT)
        ∧ (s.powerCap + 3000000 < pf → s.power.marginLowered = false → t.power.marginLowered = true ∧ t.power.sP = s.power.sP)
        ∧ (s.powerCap + 3000000 < pf → s.power.marginLowered = true → t.power.sP = min 16 (s.power.sP + 1))
        ∧ (s.powerCap < pf → t.power.sprinting = true ∧ t.power.sprintUsed = s.power.sprintUsed + 1)
        ∧ (s.powerCap < pf → s.power.sP = 16 → s.power.marginLowered = true → t.power.powerTrip = true
            ∧ ∀ p, p < 8 → (s.part p).running = true → (t.part p).stopRaised ≠ none)
        ∧ Kept s t)
    ∧ (∀ g, g < 8 → s.power.on = true → s.groupStage g < 4 → s.groupSequences g = true →
        ∃ t, exec (.powerGroupStage g) s = .next t ∧ t.groupStage g = s.groupStage g + 1 ∧ s.localNs + 30000 ≤ t.localNs
          ∧ Kept s t)

/-- R407, R414: three consecutive samples above 27,000 W set S_P to 16, which no tick lowers within 1 ms, and any others do nothing;
the coolant's readings set COOLANT_WARN while flow is below 36 L/min, the inlet above 35 degrees or the rise above 10 K, and change no
demand. Readings are in thousandths, samples of power in W. -/
def Sys2Proof.Claims.FastClampAndCoolant : Prop :=
  ∀ (s : State),
    (∀ a b c, 27000 < a → 27000 < b → 27000 < c → ∃ t, exec (.fastClamp a b c) s = .next t ∧ t.power.sP = 16
        ∧ t.fabric.stretchNext = 16 ∧ t.power.clampUntil = s.localNs + 1000000
        ∧ t.power = { s.power with sP := 16, clampUntil := t.power.clampUntil, lowTicks := 0, calmTicks := 0 } ∧ Kept s t)
    ∧ (∀ a b c, ¬(27000 < a ∧ 27000 < b ∧ 27000 < c) → exec (.fastClamp a b c) s = .next s)
    ∧ (∀ vin pf tmax t, exec (.powerTick vin pf tmax) s = .next t → t.localNs < s.power.clampUntil → s.power.sP = 16 → t.power.sP = 16)
    ∧ (∀ flow inlet outlet, ∃ t, exec (.coolantSample flow inlet outlet) s = .next t
        ∧ t.power = { s.power with flow := flow, inlet := inlet, outlet := outlet, coolantWarn := t.power.coolantWarn }
        ∧ (t.power.coolantWarn = true ↔ flow < 36000 ∨ 35000 < inlet ∨ inlet + 10000 < outlet)
        ∧ t = { s with power := t.power, counters := t.counters, maunvo := t.maunvo, out := t.out })

/-- R415 to R420: an idle partition sinks to the deepest wake state its owner and its dwell allow; a wake event brings it back within the
state's latency, out of W3 with its words that are not resident zero; the module sleeps in W4 with sessions lost and memory off, and is
READY again once its ports are up. -/
def Sys2Proof.Claims.WakeStates : Prop :=
  ∀ (s : State) (p : Nat), p < 8 →
    (s.partIdle p = true → s.boot.moduleState = 1 → (s.part p).startRaised = none → (s.wakeOf p).w < s.wakeTarget p →
      ∃ t, exec (.wakeEntry p) s = .next t ∧ (t.wakeOf p).w = s.wakeTarget p ∧ (t.wakeOf p).due = none ∧ t = { s with power := t.power })
    ∧ (∀ why, 1 ≤ (s.wakeOf p).w → (s.wakeOf p).w ≤ 3 → (s.wakeOf p).due = none → ∃ t, exec (.wakeEvent p why) s = .next t
        ∧ (t.wakeOf p).due = some (s.localNs + wakeLatency (s.wakeOf p).w) ∧ t = { s with power := t.power }
        ∧ ((s.wakeOf p).w = 3 → t.power.domains = s.raisedPoints p))
    ∧ (∀ due, (s.wakeOf p).due = some due → (s.wakeOf p).w ≠ 3 → ∃ t, exec (.wakeComplete p) s = .next t ∧ (t.wakeOf p).w = 0
        ∧ due ≤ t.localNs ∧ (∃ n, t = { s.advance n with power := t.power }))
    ∧ (∀ due, (s.wakeOf p).due = some due → (s.wakeOf p).w = 3 → (∀ g ∈ s.bandsOf p, s.groupStage g = 4) →
      ∃ t, exec (.wakeComplete p) s = .next t ∧ (t.wakeOf p).w = 0
        ∧ (∀ c w, c < 4096 → s.owns p c = true → w < 0xA00000 → (s.cluster c).isResident w = false → t.peekWord c w = ⟨0, false⟩)
        ∧ (∀ c w, c < 4096 → w < 0xA00000 → s.owns p c = false ∨ (s.cluster c).isResident w = true →
            t.peekWord c w = s.peekWord c w))
    ∧ (s.w4Ready = true → ∃ t, exec .w4Entry s = .next t ∧ t.boot.moduleState = 3 ∧ t.power.selfRefresh = true
        ∧ t.cmem = [] ∧ t.qmem = [] ∧ t.smem = s.smem ∧ (∀ n, (t.port n).state = 0 ∨ (t.port n).state = 7))
    ∧ (∀ k, s.holdsLease k = true → s.boot.moduleState = 3 → s.power.w4Wake = none → ∃ t, exec (.wake true k) s = .next t
        ∧ t.power.w4Wake = some s.localNs ∧ t = { s with power := t.power, ports := t.ports })
    ∧ (∀ at_, s.power.w4Wake = some at_ → s.boot.moduleState = 3 → s.maunvo.deferred = [] → (∀ n, n < 256 → (s.port n).state = 3 ∨ (s.port n).state = 7) →
      ∃ t, exec .w4WakeComplete s = .next t ∧ t.boot.moduleState = 1 ∧ t.power.selfRefresh = false ∧ t.power.w4Wake = none
        ∧ Kept s t)

/-- R423, R424, R429 to R434: crystal comparisons put the crystal into service after 16 passes; its loss enters the safe state; a selector
takes a ready source and refuses any other; the operating point is asked into storage with its conditions; two passing gates put the
fabric PLL into service and 1 ms without them fails the relock. -/
def Sys2Proof.Claims.Clocks : Prop :=
  ∀ (s : State) (k : MCore),
    (∀ n, s.clk.xtalReady = false → s.clk.xtalFail = false → s.clk.xtalLost = false → s.clk.oscReady = true → inRange n = true →
      n ≤ s.clk.refN + 25 → s.clk.refN ≤ n + 25 → s.clk.refN ≠ 0 → s.clk.comparisons < 1000 →
      ∃ t, exec (.crystalComparison n) s = .next t ∧ t.clk.passes = s.clk.passes + 1 ∧ t.clk.lastN = n
        ∧ (t.clk.xtalReady = true ↔ 15 ≤ s.clk.passes) ∧ Kept s t)
    ∧ (s.clk.xtalReady = true → ∃ t, exec .crystalLost s = .next t ∧ t.clk.xtalReady = false ∧ t.clk.xtalLost = true
        ∧ t.clk.fabOnSafe = true ∧ t.clk.relockBusy = false ∧ t.boot.moduleState = 2 ∧ t.boot.safeCause = 2)
    ∧ (∀ c d sep, c < 4096 → d < 4 → 1 ≤ sep → sep ≤ 3 → exec (.phaseFault c d sep) s = .next s)
    ∧ (∀ sel src, selExists sel = true → s.sourceReady sel src = true → ∃ t, exec (.sourceSwitch sel src) s = .next t
        ∧ mapGet (natD 0) t.clk.selectors (selNum sel) = srcCode src ∧ t.clk.switchRefused = false ∧ t = { s with clk := t.clk })
    ∧ (∀ sel src, selExists sel = true → s.sourceReady sel src = false →
        exec (.sourceSwitch sel src) s = .next { s with clk := { s.clk with switchRefused := true } })
    ∧ (s.clk.fabOnSafe = false → ∃ t, exec (.readyLost .fabric) s = .next t ∧ t.clk.fabOnSafe = true ∧ t.clk.fabLock = false
        ∧ t.clk.relockBusy = true ∧ t.frameSlot = 0 ∧ (∀ p, p < 8 → (s.part p).running = true → (t.part p).stopRaised ≠ none)
        ∧ Kept s t)
    ∧ (∀ v, s.holdsLease k = true → v ≤ 3 → s.quiet = true → s.clk.xtalReady = true →
        (v ≠ s.setting 0x2400 1 →
          exec (.opPointWrite v k) s = .next (s.nvRequest 6 0x1400 (.change [(0x240001, v)]) (some k) none))
        ∧ (v = s.setting 0x2400 1 → ∃ t, exec (.opPointWrite v k) s = .next t ∧ t.clk.relockBusy = true ∧ t.clk.fabLockFail = false
          ∧ t.clk.fabOnSafe = true ∧ t.clk.opPoint = v ∧ t.frameSlot = 0 ∧ t.nv = s.nv))
    ∧ (∀ n, s.clk.relockBusy = true → s.clk.fabLockFail = false → gateCount s.clk.opPoint - 8 ≤ n → n ≤ gateCount s.clk.opPoint →
      ∃ t, exec (.verifyingGate n) s = .next t ∧ (∃ m, t = { s.advance m with clk := t.clk, boot := t.boot })
        ∧ (s.clk.gates = 0 → t.clk.gates = 1 ∧ t.clk.fabLock = s.clk.fabLock)
        ∧ (1 ≤ s.clk.gates → t.clk.fabLock = true ∧ t.clk.fabOnSafe = false ∧ t.clk.opInForce = s.clk.opPoint
          ∧ t.clk.relockBusy = false))
    ∧ (s.clk.relockBusy = true → s.clk.fabLockFail = false → ∃ t, exec .relockTimeout s = .next t ∧ t.clk.fabLockFail = true
        ∧ t.clk.relockBusy = false ∧ t.clk.fabOnSafe = s.clk.fabOnSafe ∧ s.clk.relockFrom + 1000000 ≤ t.localNs
        ∧ (∃ n, t = { s.advance n with clk := t.clk }))
    ∧ (∀ v, s.holdsLease k = true → s.monOk v = true → ∃ t, exec (.clkmonCtrlWrite v k) s = .next t ∧ t.clk.clkmon = v &&& 0x03FFFFFF#32
        ∧ t.clk.switchRefused = false ∧ t = { s with clk := t.clk })
    ∧ (∀ v, s.holdsLease k = true → s.monOk v = false → exec (.clkmonCtrlWrite v k) s = .next { s with clk := { s.clk with switchRefused := true } })

/-- R436 to R439: at the module that may be root an announce makes it root with a new root epoch; a lost announce is holdover; the
discontinuity flag is cleared by writing 1. -/
def Sys2Proof.Claims.RootTime : Prop :=
  ∀ (s : State) (k : MCore),
    (∀ u, s.timeRoot = true → s.torusTime.root = false → s.torusTime.smallerAt = none →
      ∃ t, exec (.ptpMessage (.announce u)) s = .next t ∧ t.torusTime.root = true ∧ t.torusTime.depth = 0 ∧ t.torusTime.utcOffset = u
        ∧ t.torusTime.epoch = epochOf (s.torusTime.epoch.toNat / 65536 + 1) 0 ∧ Kept s t)
    ∧ (∀ ref, s.timeRoot = true → s.torusTime.root = true → s.torusTime.ptpOk = true →
      exec (.ptpMessage (.sync ref)) s = .next (s.correct ((ref : Int) - (s.ttNs.toNat : Int))))
    ∧ (∀ m, s.timeRoot = false → exec (.ptpMessage m) s = .next s)
    ∧ (s.torusTime.root = true → s.torusTime.ptpOk = true → ∃ t, exec .ptpLost s = .next t ∧ t.torusTime.ptpOk = false
        ∧ t.torusTime.holdover = true ∧ Kept s t)
    ∧ (s.holdsLease k = true → exec (.timeDiscontinuityClear true k) s = .next { s with torusTime := { s.torusTime with discontinuity := false } })
    ∧ (s.holdsLease k = true → exec (.timeDiscontinuityClear false k) s = .next s)

/-- R442 to R446, R448, R491: the lease is granted to one core for 250 ms with its epoch one higher, renewed by its holder, released, and
expires; an uncorrectable lease is the safe state; a record of a core that holds no lease when its write ends is refused and counted, and
the copy in force stands; so does the one whose write fails in the array; a change that commits is in force. -/
def Sys2Proof.Claims.LeaseAndRecords : Prop :=
  ∀ (s : State) (k : MCore),
    (∀ both, s.coresRun = true → s.lease.standDown = false → s.lease.holder = 0 ∨ s.lease.expires ≤ s.localNs →
      ∃ t, exec (.leaseAcquire k both) s = .next t ∧ t.lease.holder = coreCode (if both then .a else k)
        ∧ t.lease.epoch = s.lease.epoch + 1 ∧ t.lease.expires = s.localNs + 250000000 ∧ Kept s t)
    ∧ (∀ both, s.coresRun = true → s.lease.standDown = false → s.lease.holder ≠ 0 → s.localNs < s.lease.expires →
      exec (.leaseAcquire k both) s = .next s)
    ∧ (s.coresRun = true → s.holdsLease k = true →
      exec (.leaseRenew k) s = .next { s with lease := { s.lease with expires := s.localNs + 250000000 } })
    ∧ (s.holdsLease k = false → exec (.leaseRenew k) s = .next s)
    ∧ (s.coresRun = true → s.lease.holder = coreCode k → ∃ t, exec (.leaseRelease k) s = .next t ∧ t.lease.holder = 0
      ∧ t = { s with lease := t.lease, counters := t.counters, maunvo := t.maunvo, out := t.out })
    ∧ (s.lease.holder = coreCode k → ∃ t, exec .leaseExpiry s = .next t ∧ t.holdsLease k = false ∧ (∃ n, t = s.advance n))
    ∧ (∃ t, exec .leaseUncorrectable s = .next t ∧ t.lease.standDown = true ∧ t.lease.holder = 3 ∧ t.boot.moduleState = 2
        ∧ t.boot.safeCause = 4)
    ∧ (∀ ty n payload, ty < 65536 → n < 65536 → List.length payload ≤ 65504 → s.holdsLease k = true →
      exec (.storedRecordWrite ty n payload k) s = .next (s.nvRequest ty n (s.payloadValue ty n payload) (some k) none))
    ∧ (∀ w rest fails, s.nv.writes = w :: rest → w.core = some k → s.holdsLease k = false → ∃ t, exec (.recordCommit fails) s = .next t
        ∧ (0 < (s.nvRec w.ty w.inst).best.seq → (t.nvRec w.ty w.inst).best = (s.nvRec w.ty w.inst).best)
        ∧ t.nv.writes = rest ∧ t.lease.refused = s.lease.refused + 1 ∧ Kept s t)
    ∧ (∀ w rest bs, s.nv.writes = w :: rest → w.core = none → w.v = .raw bs → w.ty ≠ 4 → ∃ t, exec (.recordCommit false) s = .next t
        ∧ (t.nvRec w.ty w.inst).best = .valid ((s.nvRec w.ty w.inst).best.seq + 1) (.raw bs) ∧ t.nv.writes = rest ∧ Kept s t)
    ∧ (∀ w rest vals, s.nv.writes = w :: rest → w.core = some k → s.holdsLease k = true → w.ty = 6 → w.v = .change vals →
      (s.stillOk w = true → ∃ t, exec (.recordCommit false) s = .next t ∧ t.nv.writes = rest
        ∧ 0 < (t.nvRec w.ty w.inst).best.seq
        ∧ (∀ key v, vals = [(key, v)] → key / 256 = 0x2000 → (t.setting 0x2000 (key % 256)) = v))
      ∧ (s.stillOk w = false → ∃ t, exec (.recordCommit false) s = .next t ∧ t.nv.writes = rest ∧ t.dict = s.dict ∧ Kept s t))
    ∧ (∀ w rest, s.nv.writes = w :: rest → w.core = none ∨ (w.core = some k ∧ s.holdsLease k = true) → w.ty ≠ 4 →
      ∃ t, exec (.recordCommit true) s = .next t ∧ (0 < (s.nvRec w.ty w.inst).best.seq → (t.nvRec w.ty w.inst).best = (s.nvRec w.ty w.inst).best)
        ∧ t.nv.writes = rest ∧ t.dict = s.dict ∧ Kept s t)
    ∧ (∀ fails, s.nv.writes = [] → exec (.recordCommit fails) s = .next s)

/-- R368, R391, R449 to R455: a cold power-on with a bad image is the safe state with cause 1, and one with the input held off nothing; a
module whose bring-up is complete becomes READY with every memory zero; a host reset outside the safe state disables the queues;
recalibration is invisible. -/
def Sys2Proof.Claims.BringUp : Prop :=
  ∀ (s : State),
    (∀ b, s.power.heldOff = false → b.fwOk = false ∨ b.imageSvn < s.trust.fwSvn → ∃ t, exec (.coldPowerOn b) s = .next t
        ∧ t.boot.moduleState = 2 ∧ t.boot.safeCause = 1 ∧ t.lease.holder = 0 ∧ t.dict = [] ∧ t.pending = s.pending
        ∧ t.cmem = [] ∧ t.qmem = [] ∧ t.smem = [])
    ∧ (∀ b, s.power.heldOff = false → b.fwOk = true → s.trust.fwSvn ≤ b.imageSvn → s.trust.provisionedFuse = false →
      s.trust.retiredFuse = false → s.nv.recs = [] → s.nv.writes = [] → s.faults.recs = [] → ∃ t, exec (.coldPowerOn b) s = .next t
        ∧ t.boot.step = 4 ∧ t.boot.romDone = true ∧ t.trust.lifecycle = 0 ∧ t.faults.boot = 1 ∧ t.lease.epoch = 1
        ∧ t.pmap = Pmap.single ∧ (∀ n, n < 256 → (t.port n).state = 0) ∧ t.cmem = [] ∧ t.qmem = [] ∧ t.smem = [])
    ∧ (∀ b, s.power.heldOff = true → exec (.coldPowerOn b) s = .next s)
    ∧ (s.mayBeReady = true → ∃ t, exec (.moduleReady []) s = .next t ∧ t.boot.moduleState = 1 ∧ t.boot.step = 12
        ∧ t.cmem = [] ∧ t.qmem = [] ∧ t.smem = [] ∧ t.power.selfRefresh = false
        ∧ (∀ n, n < 24 → (t.stack n).trained = !(t.stack n).retired))
    ∧ (∀ e, s.mayBeReady = false → exec (.moduleReady e) s = .next s)
    ∧ (∀ ev q, s.boot.moduleState ≠ 2 → q < 16 → ∃ t, exec (.hostReset ev) s = .next t ∧ (t.hostQ q).en = false
        ∧ (t.hostQ q).cause = (if ev = .flr then 2 else 1) ∧ Kept s t)
    ∧ (∀ n, n < 24 → exec (.storeRecalibration n) s = .next s)

/-- R94, R418, R433, R457 to R461: START of a partition that may start is raised on the spine; STOP is raised with cause HOST; REBIND is
remembered; a warm re-bind does not start while a condition blocks it and names the condition; a re-bound partition whose ports are open
is LOADED again; a step that takes longer than STEP_TIMEOUT stops the partition. -/
def Sys2Proof.Claims.BindingControl : Prop :=
  ∀ (s : State) (p : Nat) (k : MCore), p < 8 →
    (s.holdsLease k = true → s.startable p = true → ∃ t, exec (.start p k) s = .next t ∧ (t.part p).startRaised = some s.clock.fab ∧ t = { s with parts := t.parts, power := t.power })
    ∧ (s.holdsLease k = true → s.startable p = false → exec (.start p k) s = .next s)
    ∧ (s.holdsLease k = true → (s.part p).running = true ∨ (s.part p).startRaised.isSome = true → (s.part p).stopRaised = none → ∃ t, exec (.stop p k) s = .next t
        ∧ (t.part p).stopRaised = some s.clock.fab ∧ (t.part p).stopCause = 1 ∧ t = { s with parts := t.parts })
    ∧ (s.holdsLease k = true → (s.part p).running = false → (s.part p).startRaised = none → exec (.stop p k) s = .next s)
    ∧ (s.holdsLease k = true → s.rebindable p = true → exec (.rebind p k) s = .next (s.modBind p (fun b => { b with rebindAsked := true })))
    ∧ (s.holdsLease k = true → s.rebindable p = false → exec (.rebind p k) s = .next s)
    ∧ ((s.bind p).state = 4 → (s.bind p).rebindAsked = true → (s.part p).stopping = none → s.blockCause p ≠ 0 →
      exec (.warmRebind p) s = .next (s.modBind p (fun b => { b with state := 6, block := s.blockCause p })))
    ∧ ((s.bind p).state ≠ 4 → (s.bind p).state ≠ 6 → exec (.warmRebind p) s = .next s)
    ∧ (∀ b, (s.bind p).state = 4 → (s.bind p).rebindAsked = true → (s.part p).stopping = none → s.blockCause p = 0 →
      (s.bind p).image = some b → (s.rebindRepairs p).faults.exhausted.contains p = false →
      exec (.warmRebind p) s = .next ((s.rebindRepairs p).rebindLoad p b))
    ∧ (∀ b, (s.readImage b (s.bind p).imageLen = none ∨ (∃ bytes, s.readImage b (s.bind p).imageLen = some bytes
          ∧ sha384 bytes ≠ (s.owner p).measure)) → s.rebindLoad p b = s.modBind p (fun x => { x with state := 6, block := 4 }))
    ∧ (∀ b bytes, s.readImage b (s.bind p).imageLen = some bytes → sha384 bytes = (s.owner p).measure →
      ((s.rebindLoad p b).bind p).image = some b
      ∧ (((s.rebindLoad p b).bind p).state = 5 ∨ (((s.rebindLoad p b).bind p).state = 4 ∧ ((s.rebindLoad p b).bind p).noAuto = true)))
    ∧ (∀ b, (s.bind p).state = 5 → (s.bind p).image = some b → (∀ n ∈ b.ports, (s.port (s.outPort n)).open_ = true) →
      s.clk.relockBusy = false → s.clk.fabOnSafe = false → ∃ t, exec (.warmRebindStart p) s = .next t ∧ (t.bind p).state = 2
        ∧ (t.bind p).rebindAsked = false ∧ (s.autoRebind p = true → (t.part p).startRaised = some s.clock.fab)
        ∧ t = { s with parts := t.parts, binds := t.binds, power := t.power })
    ∧ (s.setting (0x6010 + p) 5 ≠ 0 → (s.part p).running = true → (s.part p).stopRaised = none →
      ∃ t, exec (.stepTimeout p) s = .next t ∧ (t.part p).stopCause = 5 ∧ (t.part p).stopRaised = some t.clock.fab
        ∧ (s.bind p).lastStep + s.setting (0x6010 + p) 5 * 1000000 ≤ t.localNs
        ∧ (∃ n, t = { s.advance n with parts := t.parts }))

/-! Maunvo, the chassis port, the dictionary, pins and test access (chapters 17 to 19). -/

/-- A message of a session that the module accepts (R464): the port takes datagrams, the session is open, the tag and PKT_SEQ
pass. -/
def Sys2Proof.Claims.Accepted (s : State) (h : MHead) (x : Session) : Prop :=
  s.portTakes = true ∧ s.openSession h.session = some x ∧ x.accepts h = true

/-- The state in which an accepted message is acted on: PKT_SEQ is noted and the idle time starts anew. -/
def Sys2Proof.Claims.noted (s : State) (h : MHead) (x : Session) : State := s.setSession h.session (x.note h s.localNs)

/-- A request that is executed: not answered before, not running, not stale, with room, within the role (R474, R475, Table 17.3). -/
def Sys2Proof.Claims.Fresh (s : State) (h : MHead) (x : Session) (index sub : Nat) (write : Bool) : Prop :=
  (∀ r ∈ x.kept, r.reqId ≠ h.reqId) ∧ (∀ w ∈ x.waiting, w.reqId ≠ h.reqId)
    ∧ (x.kept = [] ∨ ∃ r ∈ x.kept, r.reqId ≤ h.reqId) ∧ x.waiting.length < 8
    ∧ roleReaches x.role s.trust.lifecycle index sub write = true

/-- The messages a client sends in a session. -/
def Sys2Proof.Claims.messages (h : MHead) (index sub offset total seq target : Nat) (data : List Byte) (mask : Word) : List Instr :=
  [.close h, .ping h, .subscribe h mask, .eventAck h seq, .abort h target, .maunvoRead h index sub offset data,
   .maunvoWrite h index sub offset total data]

/-- Nothing but the Maunvo sessions and what is put out has changed. -/
def Sys2Proof.Claims.OnlyMaunvo (s t : State) : Prop := t = { s with maunvo := t.maunvo, out := t.out }

/-- Fabric cycles have passed; beyond that nothing but the Maunvo sessions and what is put out has changed. -/
def Sys2Proof.Claims.LaterMaunvo (s t : State) : Prop := ∃ n, t = { s.advance n with maunvo := t.maunvo, out := t.out }

/-- R463 to R465, R469, R470: a message that is not accepted is dropped; PROBE and PING are answered, CLOSE ends its session and no other,
SUBSCRIBE replaces the mask. -/
def Sys2Proof.Claims.SessionMessages : Prop :=
  ∀ (s : State) (h : MHead),
    (∀ i index sub offset total seq target data mask, i ∈ messages h index sub offset total seq target data mask →
      s.portTakes = false ∨ s.openSession h.session = none ∨ (∃ x, s.openSession h.session = some x ∧ x.accepts h = false) →
      exec i s = .next s)
    ∧ (∀ r, s.portTakes = true → exec (.probe r) s = .next (s.emit (.message 0 0x02 r s.probeReply)))
    ∧ (∀ r, s.portTakes = false → exec (.probe r) s = .next s)
    ∧ (∀ x, Accepted s h x → ∃ t, exec (.ping h) s = .next t ∧ t.out = s.out ++ [.message h.session 0x31 h.reqId []]
        ∧ t.openSession h.session = some { x.note h s.localNs with txSeq := x.txSeq + 1 } ∧ OnlyMaunvo s t)
    ∧ (∀ x, Accepted s h x → ∃ t, exec (.close h) s = .next t ∧ t.openSession h.session = none ∧ t.out = s.out
        ∧ (∀ k, k ≠ h.session → t.openSession k = s.openSession k) ∧ OnlyMaunvo s t)
    ∧ (∀ x mask, Accepted s h x → ∃ t, exec (.subscribe h mask) s = .next t ∧ t.out = s.out
        ∧ t.openSession h.session = some { x.note h s.localNs with mask := mask } ∧ OnlyMaunvo s t)
    ∧ (∀ x : Session, x.accepts h = true ↔ h.tagOk = true ∧ x.rxHigh < h.pktSeq + 64 ∧ h.pktSeq ∉ x.rxSeen ∧ 0 < h.pktSeq)

/-- R466 to R469: a C_HELLO that is whole is answered with a SESSION_ID, or refused by silence and counted with 8 sessions open; a valid
C_FINISH opens the session with its role, any other ends the handshake; a handshake ends 2 s after its first fragment and an idle
session after its timeout. -/
def Sys2Proof.Claims.Handshakes : Prop :=
  ∀ (s : State) (client : Nat) (hash : BitVec 384) (nonce : BitVec 256), s.portTakes = true →
    ((mapFind s.maunvo.handshakes client).filter (fun x => decide (s.localNs < x.from_ + 2000000000)) = none → s.maunvo.sessions.length < 8 → ∃ t id, exec (.cHello client 0 1 hash nonce) s = .next t
      ∧ id ≠ 0 ∧ t.out = s.out ++ [.message 0 0x04 0 (beBytes 4 id)] ∧ t.maunvo.sessions = s.maunvo.sessions
      ∧ mapFind t.maunvo.handshakes client = some ⟨hash, nonce, [0], 1, s.localNs, id⟩
      ∧ t = { s with maunvo := t.maunvo, out := t.out, free := s.free + 1 })
    ∧ (∀ frag count, (mapFind s.maunvo.handshakes client).filter (fun x => decide (s.localNs < x.from_ + 2000000000)) = none → 1 < count → count ≤ 8 → frag < count →
      ∃ t, exec (.cHello client frag count hash nonce) s = .next t ∧ t.out = s.out
        ∧ mapFind t.maunvo.handshakes client = some ⟨hash, nonce, [frag], count, s.localNs, 0⟩ ∧ OnlyMaunvo s t)
    ∧ (∀ x frag, mapFind s.maunvo.handshakes client = some x → s.localNs < x.from_ + 2000000000 → x.keyHash = hash → x.nonce = nonce →
      frag < x.count → x.count ≤ 8 → frag ∉ x.frags → x.session = 0 →
      (x.frags.length + 1 < x.count → ∃ t, exec (.cHello client frag x.count hash nonce) s = .next t ∧ t.out = s.out
        ∧ mapFind t.maunvo.handshakes client = some { x with frags := x.frags ++ [frag] } ∧ OnlyMaunvo s t)
      ∧ (x.count ≤ x.frags.length + 1 → s.maunvo.sessions.length < 8 → ∃ t id, exec (.cHello client frag x.count hash nonce) s = .next t
        ∧ id ≠ 0 ∧ t.out = s.out ++ [.message 0 0x04 0 (beBytes 4 id)]
        ∧ mapFind t.maunvo.handshakes client = some { x with frags := x.frags ++ [frag], session := id }))
    ∧ ((mapFind s.maunvo.handshakes client).filter (fun x => decide (s.localNs < x.from_ + 2000000000)) = none → 8 ≤ s.maunvo.sessions.length → ∃ t, exec (.cHello client 0 1 hash nonce) s = .next t
        ∧ t.out = s.out ∧ t.maunvo.refused = s.maunvo.refused + 1 ∧ t.maunvo.sessions = s.maunvo.sessions ∧ OnlyMaunvo s t)
    ∧ (∀ frag count, count = 0 ∨ 8 < count ∨ count ≤ frag → exec (.cHello client frag count hash nonce) s = .next s)
    ∧ (∀ h id role, mapFind s.maunvo.handshakes client = some h → h.session = id → id ≠ 0 → s.roleOf hash = some role → hash = h.keyHash →
        s.localNs < h.from_ + 2000000000 → s.maunvo.sessions.length < 8 → ∃ t, exec (.cFinish client id hash true) s = .next t
        ∧ t.openSession id = some { Session.reset with role := role, txSeq := 1, lastMsg := s.localNs }
        ∧ mapFind t.maunvo.handshakes client = none ∧ t.out = s.out ++ [.response id ⟨0, 0, 0, stOk, 0, 0, []⟩] ∧ OnlyMaunvo s t)
    ∧ (∀ h id ok, mapFind s.maunvo.handshakes client = some h → h.session = id → id ≠ 0 →
        ok = false ∨ h.from_ + 2000000000 ≤ s.localNs ∨ s.roleOf hash = none ∨ hash ≠ h.keyHash ∨ 8 ≤ s.maunvo.sessions.length → ∃ t,
        exec (.cFinish client id hash ok) s = .next t ∧ t.maunvo.sessions = s.maunvo.sessions ∧ t.out = s.out
        ∧ t.maunvo.refused = s.maunvo.refused + 1
        ∧ mapFind t.maunvo.handshakes client = none ∧ OnlyMaunvo s t)
    ∧ (∀ h, mapFind s.maunvo.handshakes client = some h → ∃ t, exec (.handshakeTimeout client) s = .next t
        ∧ mapFind t.maunvo.handshakes client = none ∧ h.from_ + 2000000000 ≤ t.localNs ∧ LaterMaunvo s t)
    ∧ (∀ id x, s.openSession id = some x → ∃ t, exec (.idleTimeout id) s = .next t ∧ t.openSession id = none
        ∧ x.lastMsg + s.setting 0x1100 5 * 1000000000 ≤ t.localNs ∧ LaterMaunvo s t)
    ∧ (s.trust.lifecycle = 2 → (s.roleOf hash = some 2 ↔ hash = sha384 s.trust.operatorPk))

/-- R474 to R476: a request answered before is answered again with the kept response and not executed; one that runs is answered PENDING;
a stale one, a ninth and one outside the role are refused with their status. -/
def Sys2Proof.Claims.RequestReplies : Prop :=
  ∀ (s : State) (h : MHead) (x : Session) (i : Instr) (index sub : Nat) (write : Bool), Accepted s h x →
    (write = false ∧ (∃ offset arg, i = .maunvoRead h index sub offset arg))
      ∨ (write = true ∧ ∃ offset total data, i = .maunvoWrite h index sub offset total data) →
    let u := noted s h x
    let no (st : Nat) : MResp := ⟨h.reqId, index, sub, st, 0, 0, []⟩
    (∀ r, x.kept.find? (fun r => r.reqId == h.reqId) = some r → exec i s = .next (u.sayStatus h.session r))
    ∧ ((∀ r ∈ x.kept, r.reqId ≠ h.reqId) → (∃ w ∈ x.waiting, w.reqId = h.reqId) → exec i s = .next (u.sayStatus h.session (no stPending)))
    ∧ ((∀ r ∈ x.kept, h.reqId < r.reqId) → x.kept ≠ [] → (∀ w ∈ x.waiting, w.reqId ≠ h.reqId) →
        exec i s = .next (u.sayStatus h.session (no stStale)))
    ∧ (x.kept = [] → (∀ w ∈ x.waiting, w.reqId ≠ h.reqId) → 8 ≤ x.waiting.length → exec i s = .next (u.sayStatus h.session (no stBusy)))
    ∧ (x.kept = [] → x.waiting = [] → roleReaches x.role s.trust.lifecycle index sub write = false →
        exec i s = .next (u.respond h.session (no stRole)))
    ∧ (∀ r, r ∈ (x.keep r).kept ∧ (x.keep r).kept.length ≤ 8 ∧ ∃ old, (x.kept.filter (fun k => k.reqId != r.reqId)) ++ [r] = old ++ (x.keep r).kept)
    ∧ (∀ r, ((u.sayStatus h.session r).out = s.out ++ [.response h.session r]) ∧ OnlyMaunvo s (u.sayStatus h.session r)
        ∧ ((u.respond h.session r).out = s.out ++ [.response h.session r])
        ∧ ((u.respond h.session r).openSession h.session = some ((x.note h s.localNs).keep r)) ∧ OnlyMaunvo s (u.respond h.session r))

/-- R472, R473: a READ of a value of at most 1,400 B is answered whole; a longer one is latched and its first 1,400 B are answered; a
later segment comes from the latched copy; a failed check is answered by its status. -/
def Sys2Proof.Claims.MaunvoReads : Prop :=
  ∀ (s : State) (h : MHead) (x : Session) (index sub : Nat) (arg : List Byte), Accepted s h x → Fresh s h x index sub false →
    let u := noted s h x
    let r := u.readEntry h.session index sub arg
    (r.1 ≠ stOk → exec (.maunvoRead h index sub 0 arg) s = .next (u.respond h.session ⟨h.reqId, index, sub, r.1, 0, 0, []⟩))
    ∧ (r.1 = stOk → r.2.1.length ≤ 1400 → exec (.maunvoRead h index sub 0 arg) s
        = .next (r.2.2.respond h.session ⟨h.reqId, index, sub, stOk, r.2.1.length, 0, r.2.1⟩))
    ∧ (r.1 = stOk → 1400 < r.2.1.length → x.buffers = [] → exec (.maunvoRead h index sub 0 arg) s
        = .next ((r.2.2.modSession h.session (fun y => { y with buffers :=
            [⟨false, index, sub, r.2.1.length, r.2.1.take 262144, h.reqId, 1400, s.localNs⟩] })).respond h.session
            ⟨h.reqId, index, sub, stOk, r.2.1.length, 0, r.2.1.take 1400⟩))
    ∧ (∀ offset b, 0 < offset → x.buffers.find? (sameTransfer false index sub) = some b → offset < b.data.length →
        ∃ t, exec (.maunvoRead h index sub offset arg) s = .next t ∧ OnlyMaunvo s t
          ∧ t.out = s.out ++ [.response h.session ⟨h.reqId, index, sub, stOk, b.total, offset, (b.data.drop offset).take 1400⟩])
    ∧ (∀ offset, 0 < offset → x.buffers.find? (sameTransfer false index sub) = none →
        exec (.maunvoRead h index sub offset arg) s = .next (u.respond h.session ⟨h.reqId, index, sub, stSegment, 0, offset, []⟩))

/-- R420, R472, R476, R478, R481: a WRITE in one message is executed and answered, or PENDING until its end; one to the binding control in
W4 wakes the module and waits; segments gather until the last, which is executed; ABORT frees the transfer and answers ABORTED. -/
def Sys2Proof.Claims.MaunvoWrites : Prop :=
  ∀ (s : State) (h : MHead) (x : Session) (index sub : Nat) (data : List Byte), Accepted s h x → Fresh s h x index sub true →
    data ≠ [] → data.length ≤ 1400 →
    let u := noted s h x
    let w := u.writeEntry index sub data u.executor (some (h.session, h.reqId, index, sub))
    (s.boot.moduleState ≠ 3 ∨ wakesW4 index = false → w.1 ≠ stPending → exec (.maunvoWrite h index sub 0 data.length data) s
        = .next (w.2.respond h.session ⟨h.reqId, index, sub, w.1, 0, 0, []⟩))
    ∧ (s.boot.moduleState ≠ 3 ∨ wakesW4 index = false → w.1 = stPending → exec (.maunvoWrite h index sub 0 data.length data) s
        = .next (w.2.modSession h.session (fun y => { y with waiting := y.waiting ++ [⟨h.reqId, index, sub, u.localNs⟩] })))
    ∧ (s.boot.moduleState = 3 → wakesW4 index = true → ∃ t, exec (.maunvoWrite h index sub 0 data.length data) s = .next t
        ∧ t.maunvo.deferred = s.maunvo.deferred ++ [⟨h.session, h.reqId, index, sub, data⟩] ∧ t.power.w4Wake ≠ none ∧ Kept s t)
    ∧ (∀ total, data.length < total → total ≤ 16384 → oneMessage index sub = false → x.buffers = [] →
        exec (.maunvoWrite h index sub 0 total data) s = .next ((u.modSession h.session (fun y => { y with buffers :=
          [⟨true, index, sub, total, data, h.reqId, data.length, s.localNs⟩] })).respond h.session
            ⟨h.reqId, index, sub, stOk, total, 0, []⟩))
    ∧ (∀ b, x.buffers = [b] → b.write = true → b.index = index → b.sub = sub → b.data ≠ [] → b.total = b.data.length + data.length →
        b.total ≤ 16384 → oneMessage index sub = false →
        exec (.maunvoWrite h index sub b.data.length b.total data) s
          = .next ((u.modSession h.session (fun y => { y with buffers := [] })).takeWrite h.session h.reqId index sub (b.data ++ data)))
    ∧ (∀ offset total, total < offset + data.length ∨ 16384 < total → exec (.maunvoWrite h index sub offset total data) s
        = .next (u.respond h.session ⟨h.reqId, index, sub, stSegment, total, offset, []⟩))
    ∧ (∀ b, x.buffers = [b] → s.maunvo.deferred = [] → ∃ t, exec (.abort h b.reqId) s = .next t ∧ OnlyMaunvo s t
        ∧ t.out = s.out ++ [.response h.session ⟨b.reqId, 0, 0, stAborted, 0, 0, []⟩]
        ∧ ∃ y, t.openSession h.session = some y ∧ y.buffers = [])

/-- R474, R479, R480, Table 17.5: an EVENT_ACK frees the acknowledged events and reports what was lost; the held ones are sent again every
second; a running request is answered PENDING every 200 ms; a transfer without a segment for 5 s is freed. -/
def Sys2Proof.Claims.SessionTimers : Prop :=
  ∀ (s : State),
    (∀ h x seq, Accepted s h x → x.lost = 0 → ∃ t, exec (.eventAck h seq) s = .next t ∧ t.out = s.out
        ∧ t.openSession h.session = some { x.note h s.localNs with events := x.events.filter (fun e => decide (seq < e.seq)) }
        ∧ OnlyMaunvo s t)
    ∧ (∀ h x seq, Accepted s h x → 0 < x.lost → (x.events.filter (fun e => decide (seq < e.seq))).length < 256 →
        ∃ t y, exec (.eventAck h seq) s = .next t ∧ t.openSession h.session = some y ∧ y.lost = 0 ∧ y.eventSeq = x.eventSeq + 1
          ∧ y.events.length = (x.events.filter (fun e => decide (seq < e.seq))).length + 1 ∧ t.out.length = s.out.length + 1
          ∧ OnlyMaunvo s t)
    ∧ (∀ id x, s.openSession id = some x → x.events ≠ [] → ∃ t, exec (.eventResend id) s = .next t
        ∧ t.out = s.out ++ x.events.map (Out.event id) ∧ x.sentAt + 1000000000 ≤ t.localNs ∧ LaterMaunvo s t)
    ∧ (∀ id x r w, s.openSession id = some x → x.waiting.find? (fun v => v.reqId == r) = some w →
        ∃ t, exec (.pendingRepeat id r) s = .next t ∧ t.out = s.out ++ [.response id ⟨r, w.index, w.sub, stPending, 0, 0, []⟩]
          ∧ w.at_ + 200000000 ≤ t.localNs ∧ LaterMaunvo s t)
    ∧ (∀ id x b, s.openSession id = some x → x.buffers = [b] → b.data.length ≤ b.sent → b.write = false →
        ∃ t, exec (.segmentGapTimeout id b.index b.sub) s = .next t ∧ t.out = s.out ∧ b.at_ + 5000000000 ≤ t.localNs ∧ LaterMaunvo s t
          ∧ (∀ y, t.openSession id = some y → y.buffers = []))
    ∧ (∀ id x b, s.openSession id = some x → x.buffers = [b] → b.sent < b.data.length ∨ b.write = true → 0 < x.rxHigh →
        ∃ t, exec (.segmentGapTimeout id b.index b.sub) s = .next t ∧ b.at_ + 5000000000 ≤ t.localNs ∧ LaterMaunvo s t
          ∧ t.out = s.out ++ [.response id ⟨b.reqId, b.index, b.sub, stTimeout, b.total, 0, []⟩])

/-- R482: the chassis port answers a request with a wrong CRC by LENGTH and one outside its entries by ROLE, reads a value whole or
latches it, reads the latch in segments, writes POWER_CAP and WAKE, and takes its dynamic address. -/
def Sys2Proof.Claims.ChassisPort : Prop :=
  ∀ (s : State) (index sub : Nat), s.coresRun = true →
    (exec (.i3cRead index sub false) s = .next (s.emit (.i3c stLength [])))
    ∧ (i3cReads index sub = false → exec (.i3cRead index sub true) s = .next (s.emit (.i3c stRole [])))
    ∧ (i3cReads index sub = true → (s.readEntry 0 index sub []).1 ≠ stOk →
        exec (.i3cRead index sub true) s = .next (s.emit (.i3c (s.readEntry 0 index sub []).1 [])))
    ∧ (∀ e, i3cReads index sub = true → findEntry index sub = some e → e.ty ≠ .domain → (s.readEntry 0 index sub []).1 = stOk →
        exec (.i3cRead index sub true) s
          = .next ((s.readEntry 0 index sub []).2.2.emit (.i3c stOk (s.readEntry 0 index sub []).2.1)))
    ∧ (∀ e, i3cReads index sub = true → findEntry index sub = some e → e.ty = .domain → (s.readEntry 0 index sub []).1 = stOk →
        ∃ t, exec (.i3cRead index sub true) s = .next t ∧ t.maunvo.latch = some (index, sub, (s.readEntry 0 index sub []).2.1))
    ∧ (∀ data offset, i3cReads index sub = true → s.maunvo.latch = some (index, sub, data) →
        exec (.i3cReadSegment index sub offset true) s = .next (s.emit (.i3c stOk ((data.drop offset).take 255))))
    ∧ (∀ offset, i3cReads index sub = true → s.maunvo.latch = none →
        exec (.i3cReadSegment index sub offset true) s = .next (s.emit (.i3c stState [])))
    ∧ (∀ data, i3cWrites index sub = false → exec (.i3cWrite index sub data true) s = .next (s.emit (.i3c stRole [])))
    ∧ (∀ data, i3cWrites index sub = true → let w := s.writeEntry index sub data s.executor (some (0, 0, index, sub))
        exec (.i3cWrite index sub data true) s = .next (w.2.emit (.i3c w.1 [])))
    ∧ (∀ addr, addr < 128 → exec (.i3cDynamicAddress addr) s = .next { s with maunvo := { s.maunvo with dynAddr := some addr } })

/-- The commands that write an entry by its index, in their own rows (R496, R499, R502, R503). -/
def Sys2Proof.Claims.StoredWrite (i : Instr) (index sub : Nat) (data : List Byte) (who : MCore) : Prop :=
  i = .rwsWrite index sub data who ∨ (i = .torusIdentityWrite sub data who ∧ index = 0x3800) ∨ i = .serverAddressWrite index sub data who
    ∨ (∃ v same, i = .counterWrite index sub v same who ∧ data = leBytes 8 v.toNat ∧ ¬(isCounter index sub = true ∧ index < 0x5300))

/-- R446, R476, R488, R491: a write of an entry is the dictionary's write of its index; one that names no entry, or that is read only,
changes nothing. A write of a stored entry that fails a check changes nothing; one that passes puts the change into the entry's
record and takes effect with its commit, unless the value is in force already; without the lease it is refused and counted. -/
def Sys2Proof.Claims.StoredEntries : Prop :=
  ∀ (s : State) (i : Instr) (index sub : Nat) (data : List Byte) (who : MCore), StoredWrite i index sub data who →
    (exec i s = .next (s.writeEntry index sub data who none).2)
    ∧ (index ≠ 0x3000 → ¬(index = 0x2400 ∧ sub = 3) → findEntry index sub = none → exec i s = .next s)
    ∧ (∀ e, index ≠ 0x3000 → ¬(index = 0x2400 ∧ sub = 3) → findEntry index sub = some e → e.acc = .ro ∨ e.acc = .const → exec i s = .next s)
    ∧ (∀ e, findEntry index sub = some e → e.acc = .rws → rawEntry index sub e = false → ¬(index = 0x2400 ∧ sub = 3) →
    (s.writeStatus index sub data ≠ stOk → exec i s = .next s)
    ∧ (s.writeStatus index sub data = stOk → s.holdsLease who = false →
        exec i s = .next { s with lease := { s.lease with refused := s.lease.refused + 1 } })
    ∧ (s.writeStatus index sub data = stOk → s.holdsLease who = true → s.holds index sub (entryValue index sub data) = true → ¬(index = 0x2400 ∧ sub = 1) →
        exec i s = .next s)
    ∧ (s.writeStatus index sub data = stOk → s.holdsLease who = true → s.holds index sub (entryValue index sub data) = false →
        exec i s = .next (s.nvRequest 6 (index - 0x1000) (.change (s.changeOf index sub (entryValue index sub data))) (some who) none)))

/-- R499, R500: a map of the wrong length changes nothing; one that fails a condition sets PMAP_REFUSE; an accepted one becomes a record
and is applied with its commit; PMAP_STATE is 0 once the last zeroing write has taken effect. -/
def Sys2Proof.Claims.PartitionMap : Prop :=
  ∀ (s : State) (image : List Byte) (who : MCore),
    (image.length ≠ 1696 → exec (.pmapWrite image who) s = .next s)
    ∧ (∀ m, Pmap.ofBytes image = some m → s.pmapRefuse m ≠ 0 →
        exec (.pmapWrite image who) s = .next { s with pmapCtl := { s.pmapCtl with refuse := s.pmapRefuse m } })
    ∧ (∀ m, Pmap.ofBytes image = some m → s.pmapRefuse m = 0 → s.holdsLease who = true → m ≠ s.pmap →
        ∃ t, exec (.pmapWrite image who) s = .next t ∧ t.pmap = s.pmap ∧ t.pmapCtl.refuse = 0 ∧ Kept s t
          ∧ t.nv.writes = s.nv.writes ++ [{ ty := 6, inst := 0x2000, v := .newMap m, core := some who, reply := none }])
    ∧ (s.pmapCtl.applying = true → ∃ t, exec .pmapApplyComplete s = .next t ∧ t.pmapCtl.applying = false ∧ t.pmap = s.pmap
        ∧ s.pmapCtl.until_ ≤ t.localNs ∧ Kept s t)

/-- R495, R498: a read of a counter answers its value and latches its flags for the session; a read of the flag entry answers the latched
flags and empties the latch, or the live flags; of any other entry either is a read of that entry; SNAPSHOT answers every scalar counter; none of them changes a counter. -/
def Sys2Proof.Claims.CounterReads : Prop :=
  ∀ (s : State) (session index sub : Nat),
    (isCounter index sub = true → session = 0 ∨ s.openSession session ≠ none → ∃ t, exec (.counterRead session index sub) s = .next t
        ∧ t.out = s.out ++ [.bytes (leBytes 8 (s.counterValue index sub))] ∧ t.latch session index sub = some (s.counterFlags index sub + 4)
        ∧ t.counters = s.counters ∧ t.idles = s.idles ∧ OnlyMaunvo s t)
    ∧ (∀ f, flagEntry index sub = true → s.latch session (index - 0x400) sub = some f → ∃ t,
        exec (.flagEntryRead session index sub) s = .next t ∧ t.out = s.out ++ [.value (f - 4)]
        ∧ t.latch session (index - 0x400) sub = none ∧ t.counters = s.counters ∧ OnlyMaunvo s t)
    ∧ (flagEntry index sub = true → s.latch session (index - 0x400) sub = none → ∃ t, exec (.flagEntryRead session index sub) s = .next t
        ∧ t.out = s.out ++ [.value (s.counterFlags (index - 0x400) sub)] ∧ t.counters = s.counters ∧ OnlyMaunvo s t)
    ∧ (∀ i, (i = Instr.counterRead session index sub ∧ isCounter index sub = false)
          ∨ (i = Instr.flagEntryRead session index sub ∧ flagEntry index sub = false) →
      let r := s.readEntry session index sub []
      (r.1 = stOk → exec i s = .next (r.2.2.emit (.bytes r.2.1))) ∧ (r.1 ≠ stOk → exec i s = .next r.2.2)
        ∧ (findEntry index sub = none → exec i s = .next s))
    ∧ exec .snapshotRead s = .next (s.emit (.bytes s.snapshot))

/-- R504, R525: debug accesses and test multiplexers act in MANUFACTURE and DEBUG only. -/
def Sys2Proof.Claims.DebugAccess : Prop :=
  ∀ (s : State) (who : MCore),
    (s.testState = true → s.dbgOk = true → exec .dbgRead s = .next (s.dbgRead.2.emit (.bytes s.dbgRead.1)))
    ∧ (s.testState = false → exec .dbgRead s = .next s)
    ∧ (∀ data, s.testState = true → s.holdsLease who = true → data.length = s.dbgLen → s.dbgOk = true →
        exec (.dbgWrite data who) s = .next (s.dbgWrite data (coreWriter who)))
    ∧ (∀ data, s.testState = false → exec (.dbgWrite data who) s = .next s)
    ∧ (∀ t v, t < 8 → s.testState = true → s.tmuxOk v = true → s.holdsLease who = true → ∃ u, exec (.tmuxSelWrite t v who) s = .next u
        ∧ u.setting 0x7001 (t + 1) = v ∧ (∀ k, k ≠ t + 1 → k < 256 → u.setting 0x7001 k = s.setting 0x7001 k) ∧ u = { s with dict := u.dict })
    ∧ (∀ t v, t < 8 → s.testState = false → exec (.tmuxSelWrite t v who) s = .next s)

/-- R511 to R515, R517, R523: a pin group takes its code at once when it has it or the boundary register drives, else it goes to high
impedance and takes it after 1 us; a code outside the table or the lifecycle changes nothing; a transaction that does not end within
100 ms keeps its function; the console reads input in MANUFACTURE and DEBUG only. -/
def Sys2Proof.Claims.PinFunctions : Prop :=
  ∀ (s : State) (g : Nat) (k : MCore), 1 ≤ g → g ≤ 5 →
    (∀ code, s.pinStatus g code ≠ stOk → exec (.pinFunctionWrite g code k) s = .next s)
    ∧ (∀ code, s.pinStatus g code = stOk → s.holdsLease k = true → (s.pinGroup g).upto = none → (s.pinGroup g).waiting = [] →
        ∃ t, exec (.pinFunctionWrite g code k) s = .next t ∧ (∀ j, j ≠ g → t.pinGroup j = s.pinGroup j) ∧ t = { s with pins := t.pins }
          ∧ ((s.pinGroup g).fn = code → t.pinGroup g = s.pinGroup g)
          ∧ (s.boundaryDrives = true → (t.pinGroup g).fn = code ∧ (t.pinGroup g).upto = none)
          ∧ ((s.pinGroup g).fn ≠ code → s.boundaryDrives = false → (t.pinGroup g).fn = (s.pinGroup g).fn
              ∧ (t.pinGroup g).hiz = (if (s.pinGroup g).fn = 0 then (s.pinGroup g).hiz else s.localNs)
              ∧ ∃ w, (t.pinGroup g).upto = some w ∧ w.code = code))
    ∧ (∀ w, (s.pinGroup g).upto = some w → (s.pinGroup g).waiting = [] → ∃ t, exec (.pinSwitchComplete g) s = .next t
        ∧ (t.pinGroup g).fn = w.code ∧ (t.pinGroup g).upto = none ∧ (s.pinGroup g).hiz + 1000 ≤ t.localNs ∧ (∃ n, t = { s.advance n with pins := t.pins, maunvo := t.maunvo, out := t.out }))
    ∧ (∀ w, (s.pinGroup g).upto = some w → (s.pinGroup g).waiting = [] → (s.pinGroup g).fn = 1 → g ≠ 3 →
        ∃ t, exec (.pinSwitchTimeout g) s = .next t ∧ (t.pinGroup g).fn = 1 ∧ (t.pinGroup g).upto = none
          ∧ w.at_ + 100000000 ≤ t.localNs ∧ (∃ n, t = { s.advance n with pins := t.pins, maunvo := t.maunvo, out := t.out }))
    ∧ (∀ ch, s.testState = true → (s.pinGroup 1).fn = 1 →
        exec (.uartInput ch) s = .next { s with pins := { s.pins with uartIn := s.pins.uartIn ++ [ch] } })
    ∧ (∀ ch, s.testState = false → exec (.uartInput ch) s = .next s)

/-- The gated TAP instructions with their codes; `b` is the boundary value they load, where they load one. -/
def Sys2Proof.Claims.GatedTap (v : BitVec 125) (d : BitVec 96) (i : Instr) (code : Nat) (b : Option (BitVec 125)) : Prop :=
  (i = .extest v ∧ code = 0x00 ∧ b = some v) ∨ (i = .samplePreload v ∧ code = 0x01 ∧ b = some v) ∨ (i = .clamp ∧ code = 0x03 ∧ b = none)
    ∨ (i = .highz ∧ code = 0x04 ∧ b = none) ∨ (i = .extestPulse v ∧ code = 0x05 ∧ b = some v)
    ∨ (i = .extestTrain v ∧ code = 0x06 ∧ b = some v) ∨ (i = .dieLink d ∧ code = 0x10 ∧ b = none)

/-- R519, R520, R522 to R524: reset and IDCODE load the identification register; a gated instruction loads BYPASS outside MANUFACTURE
and DEBUG, and in them its code, driving the pins with the host link down where it does so; DIE_LINK selects dies; an internal scan is
gated while a partition runs, and its end zeroes what was scanned. -/
def Sys2Proof.Claims.TestAccess : Prop :=
  ∀ (s : State) (v : BitVec 125) (d : BitVec 96),
    (s.pins.instr ≠ 0x11 → exec .tapReset s = .next { s with pins := { s.pins with instr := 0x02, gated := false } })
    ∧ (s.pins.instr ≠ 0x11 → exec .idcode s
        = .next ({ s with pins := { s.pins with instr := 0x02, gated := false } }.emit (.value 0x15734C59)))
    ∧ (∀ i code b, GatedTap v d i code b → s.pins.instr ≠ 0x11 → s.testState = false →
        exec i s = .next { s with pins := { s.pins with instr := 0xFF, gated := true } })
    ∧ (∀ i code b, GatedTap v d i code b → s.pins.instr ≠ 0x11 → s.testState = true → ∃ t, exec i s = .next t
        ∧ t.pins.instr = code ∧ t.pins.gated = false ∧ (∀ w, b = some w → t.pins.boundary = w) ∧ (b = none → t.pins.boundary = s.pins.boundary)
        ∧ ((code = 0 ∨ (3 ≤ code ∧ code ≤ 6)) → t.host.rate = 0) ∧ (code = 1 ∨ code = 0x10 → t.host = s.host)
        ∧ (code = 0x10 → t.pins.dieLink = d &&& (BitVec.allOnes 90).setWidth 96) ∧ Kept s t)
    ∧ (s.pins.instr ≠ 0x11 → s.testState = true → (∀ p, p < 8 → (s.bind p).state ≠ 3 ∧ (s.bind p).state ≠ 5) →
        exec .intScan s = .next { s with pins := { s.pins with instr := 0x11, gated := false, scanned := s.pins.scanned ||| s.pins.dieLink } })
    ∧ (∀ p, s.pins.instr ≠ 0x11 → p < 8 → (s.bind p).state = 3 ∨ (s.bind p).state = 5 →
        exec .intScan s = .next { s with pins := { s.pins with instr := 0xFF, gated := true } })
    ∧ (s.pins.instr = 0x11 → ∃ t, exec .intScanEnd s = .next t ∧ t.pins.instr = 0xFF ∧ t.pins.scanned = 0
        ∧ (s.pins.scanned.getLsbD 0 = true → t.qmem = [] ∧ ∀ c w, w < 0xA00000 → isNear w = true → t.peekWord c w = ⟨0, false⟩)
        ∧ (∀ a, s.pins.scanned.getLsbD (2 + a / 16 / 2 ^ 18 / 24704) = true → t.smem.read a = 0)
        ∧ (∀ a, s.pins.scanned.getLsbD (2 + a / 16 / 2 ^ 18 / 24704) = false → t.smem.read a = s.smem.read a))
    ∧ (s.pins.instr ≠ 0x11 → exec .intScanEnd s = .next s)
    ∧ (s.pins.instr ≠ 0x11 → exec (.bypass 0xFF#8) s = .next { s with pins := { s.pins with instr := 0xFF, gated := false } })
    ∧ (∀ code, s.pins.instr ≠ 0x11 → s.testState = true → tapListed code.toNat = false →
        exec (.bypass code) s = .next { s with pins := { s.pins with instr := 0xFF, gated := false } })

/-! The module as a whole. -/

/-- The block's form of a fetch: a step runs the command at the front of the queue on the state with the queue's rest, exactly as exec
has it; an empty queue is one fabric cycle (the model's choice, DESIGN CHOICE, log entry 1). -/
def Sys2Proof.Claims.StepRunsTheFrontCommand : Prop :=
  (∀ (s : State) (c : Instr) (r : List Instr), s.pending = c :: r → step s = exec c { s with pending := r })
  ∧ (∀ s : State, s.pending = [] → step s = .next (s.advance 1))

/-- What reset leaves where the spec gives a value: sequencers idle with no flags, guard slots 8 and spares 22 and 44, every sync
object and group at zero, every port OFF, no lease held under an epoch of 1, the fabric on SAFE, DEPTH 255, the settings of the
dictionary at their defaults, and no command waiting. -/
def Sys2Proof.Claims.ResetState : Prop :=
  let s := State.reset
  s.pending = [] ∧ s.boot.moduleState = 0 ∧ s.boot.safeCause = 0 ∧ s.lease.holder = 0 ∧ s.lease.epoch = 1 ∧ s.clk.fabOnSafe = true
    ∧ s.torusTime.depth = 255 ∧ s.fabric.stretch = 0 ∧ s.localNs = 0
    ∧ (∀ c, (s.cluster c).seq.state = .idle ∧ (s.cluster c).seq.cause = 0 ∧ (s.cluster c).res.events = 0 ∧ (s.cluster c).ops = []
        ∧ ∀ row, mapGet (natD 8) (s.cluster c).guard row = 8)
    ∧ (∀ r, s.rowGuard r = ⟨22, 44, false, false⟩) ∧ (∀ o, s.sync o = SyncObj.reset) ∧ (∀ g, s.group g = Group.reset)
    ∧ (∀ n, (s.port n).state = 0 ∧ (s.port n).keyed = false ∧ (s.port n).replay = []) ∧ (∀ k, (s.counter k).value = 0)
    ∧ (∀ p, (s.bind p).state = 0 ∧ (s.part p).running = false ∧ (s.owner p).id = 0)
    ∧ s.setting 0x2000 4 = 24000 ∧ s.setting 0x3801 1 = 200 ∧ s.setting 0x4402 1 = 10000 ∧ s.setting 0x4401 10 = 12
    ∧ s.setting 0x6010 5 = 30000 ∧ s.setting 0x1100 5 = 60

/-- Every well-formed command runs: it answers a next state in every state. What is not well formed stops under one name, and nothing is
refused. -/
def Sys2Proof.Claims.WellFormedCommandsRun : Prop :=
  (∀ (i : Instr) (s : State), wellFormed i = true → Goes (exec i s))
  ∧ (∀ (i : Instr) (s : State) (f : Fault), exec i s = .fault f → ∃ kind n, f = .noSuchElement kind n)
  ∧ (∀ (i : Instr) (s : State) (r : Refusal), exec i s ≠ .refused r)

/-- A queue of well-formed commands runs to its end: every step answers a next state, whose queue is the rest of the old one. -/
def Sys2Proof.Claims.QueuesRunOut : Prop :=
  ∀ s : State, (∀ c ∈ s.pending, wellFormed c = true) →
    ∃ t, step s = .next t ∧ t.pending = s.pending.tail ∧ (∀ c ∈ t.pending, wellFormed c = true)

/-- R131, R363: the three memories keep the form in which equal contents are equal data, whatever runs. -/
def Sys2Proof.Claims.MemoriesStayCanonical : Prop :=
  ∀ s t : State, MemOk s → step s = .next t → MemOk t

/-- At reset the memories are canonical and the RETIRED fuse agrees with the lifecycle state. -/
def Sys2Proof.Claims.ResetIsSound : Prop := MemOk State.reset ∧ State.reset.trust.RetiredRight

/-- R372, R374, R376: a retired module stays retired; a fuse once blown stays blown, and neither DEBUG_COUNT nor FW_SVN ever falls. -/
def Sys2Proof.Claims.FusesAndRetirementAreFinal : Prop :=
  ∀ s t : State, step s = .next t →
    (s.trust.RetiredRight → t.trust.RetiredRight)
    ∧ (s.trust.retiredFuse = true → t.trust.retiredFuse = true) ∧ (s.trust.provisionedFuse = true → t.trust.provisionedFuse = true)
    ∧ s.trust.debugCount ≤ t.trust.debugCount ∧ s.trust.fwSvn ≤ t.trust.fwSvn

/-- The commands at which the partition map can change: a commit, and what recovers it (R450, R500). -/
def Sys2Proof.Claims.changesMap : Instr → Bool
  | .recordCommit _ | .coldPowerOn _ | .hostReset _ => true
  | _ => false

/-- The commands at which the lease changes hands (R445 to R448). -/
def Sys2Proof.Claims.changesLease : Instr → Bool
  | .leaseAcquire _ _ | .leaseRelease _ | .leaseUncorrectable | .coldPowerOn _ | .hostReset _ => true
  | _ => false

/-- The commands at which the lifecycle state can change: provisioning and the lifecycle commands, alone or as dictionary writes, a
commit, and recovery (R372, R374). -/
def Sys2Proof.Claims.changesLifecycle : Instr → Bool
  | .provisioning _ | .enterDebug _ _ | .release _ _ | .retire _ _ | .recordCommit _ | .maunvoWrite _ _ _ _ _ _ | .i3cWrite _ _ _ _
  | .rwsWrite _ _ _ _ | .counterWrite _ _ _ _ _ | .serverAddressWrite _ _ _ _
  | .w4WakeComplete | .coldPowerOn _ | .hostReset _ => true
  | _ => false

/-- R372, R445, R500: no other command changes the partition map, the holder or epoch of the lease, or the lifecycle state, fuses and
identity. -/
def Sys2Proof.Claims.WhoChangesWhat : Prop :=
  ∀ (i : Instr) (s t : State), exec i s = .next t →
    (changesMap i = false → t.pmap = s.pmap)
    ∧ (changesLease i = false → t.lease.holder = s.lease.holder ∧ t.lease.epoch = s.lease.epoch
        ∧ t.lease.standDown = s.lease.standDown)
    ∧ (changesLifecycle i = false → t.trust.lifecycle = s.trust.lifecycle ∧ t.trust.identity = s.trust.identity
        ∧ t.trust.provisionedFuse = s.trust.provisionedFuse ∧ t.trust.retiredFuse = s.trust.retiredFuse)

/-- R126, R127, R132, R205: each of the three codes reads its own encoding as clean, corrects every single error, in data, check or
parity, and delivers no data of a word with two errors. -/
def Sys2Proof.Claims.CodesCorrectOneDetectTwo : Prop :=
  ∀ (k : HamCode) (poison : Option (Nat × Nat)) (v : Nat),
    (k, poison) ∈ [(code39, poison39), (code13, none), (code72, poison72)] → v < 2 ^ k.dataBits →
    let bits := k.dataBits + k.checkBits + 1
    -- the word with the error e: bits below dataBits are data, the rest check bits
    let read (e : Nat) : Decoded := k.decode poison (v ^^^ (e % 2 ^ k.dataBits)) (k.check v ^^^ (e / 2 ^ k.dataBits))
    (read 0).outcome = .clean ∧ (read 0).data = v
    ∧ (∀ a, a < bits → (read (2 ^ a)).outcome = .corrected ∧ (read (2 ^ a)).data = v)
    ∧ (∀ a b, a < bits → b < a → ((read (2 ^ a + 2 ^ b)).outcome = .uncorrectable ∨ (read (2 ^ a + 2 ^ b)).outcome = .poison)
        ∧ (read (2 ^ a + 2 ^ b)).data = 0)

/-! The statements. -/

/-- Engine descriptors that issue, the cycles of their accesses, and what the hardware checks do to them. -/
def Obligations.EnginesIssueAndCheck : Prop :=
  Claims.EngineIssueEffects ∧ Claims.StreamSchedule ∧ Claims.AccessesOfACycle ∧ Claims.CheckedErrors

/-- What vector, reduction, statistics, quantiser and walker operations compute. -/
def Obligations.VectorEnginesCompute : Prop :=
  Claims.OperationResults ∧ Claims.SpecialOperands

/-- Dense and sparse tiles, walks and the quantiser at issue. -/
def Obligations.MatrixEnginesCompute : Prop :=
  Claims.MatrixIssue ∧ Claims.SparseIssue ∧ Claims.QuantiserIssue

/-- The sequencer: its own operations, the next descriptor, its faults and waits. -/
def Obligations.SequencerSteps : Prop :=
  Claims.SequencerOperations ∧ Claims.NextDescriptor ∧ Claims.DescriptorFaults

/-- Verdicts of tiles and reductions, the write of results, and reading them back. -/
def Obligations.VerdictsAndResults : Prop :=
  Claims.TileVerdict ∧ Claims.ReductionVerdict ∧ Claims.ResultsWritten ∧ Claims.WrittenWordsReadBack

/-- Hold freezes a partition; a replay matches or reaches its limit. -/
def Obligations.HoldAndReplay : Prop :=
  Claims.HoldDelivered ∧ Claims.ReplayVerdict

/-- Release, start and stop delivered by the spine, and the commands that stop and unload. -/
def Obligations.StartStopRelease : Prop :=
  Claims.SpineDeliveries ∧ Claims.StopCommands

/-- Guarded register writes of the cluster and of hardware flags. -/
def Obligations.ClusterRegisters : Prop :=
  Claims.LeaseRefusesWrites ∧ Claims.ClusterRegisterWrites ∧ Claims.FlagRegisterWrites

/-- LO and HI register pairs read untorn; an event counter read in the cycle of an event. -/
def Obligations.PairsAndEventCounters : Prop :=
  Claims.PairsReadUntorn ∧ Claims.CountersReadAndClear

/-- Zeroing ends at its cycle; staged accesses move line by line. -/
def Obligations.MemoryTraffic : Prop :=
  Claims.ZeroingEnds ∧ Claims.StagedAccessesMove

/-- Fabric cycles advance PART_CYCLE of running unheld partitions and nothing in memory. -/
def Obligations.CyclesAdvance : Prop :=
  Claims.CyclesCount

/-- Arrivals, phases and releases of sync objects and spine groups. -/
def Obligations.SyncObjectsAndGroups : Prop :=
  Claims.SyncArrivals ∧ Claims.SpineReleases ∧ Claims.GroupRelease

/-- STRETCH at the slot frame, and writes of fabric control space. -/
def Obligations.FabricControlWrites : Prop :=
  Claims.FabricControl

/-- Scheduled flits: departure, routing and landing. -/
def Obligations.ScheduledMesh : Prop :=
  Claims.ScheduledDepartures ∧ Claims.ScheduledFlits ∧ Claims.ScheduledLandings

/-- Elastic flits, their credits and their landing; lanes, lost links and row remaps. -/
def Obligations.ElasticMeshAndRepair : Prop :=
  Claims.ElasticFlits ∧ Claims.LanesLinksRemap

/-- Request contexts, bridges, rounds and who wins them. -/
def Obligations.StoreArbitration : Prop :=
  Claims.StoreRequestContexts ∧ Claims.BridgeSlots ∧ Claims.StoreRounds ∧ Claims.RoundWinner

/-- What granted requests do, retries, and blocks read back as stored. -/
def Obligations.StoreAccess : Prop :=
  Claims.StoreAccesses ∧ Claims.StoreRetryAndBlocks

/-- Completed bursts answer their requester; PART_PRIO. -/
def Obligations.StoreBurstsComplete : Prop :=
  Claims.StoreCompletion

/-- Stream descriptors start, and their requests cover their rows. -/
def Obligations.StreamContextsStart : Prop :=
  Claims.StreamStart ∧ Claims.StreamRequestsCoverRows

/-- Stream requests and responses. -/
def Obligations.StreamTraffic : Prop :=
  Claims.StreamRequests ∧ Claims.StreamResponses

/-- Contributions, touched units and norm partials. -/
def Obligations.GradientReduction : Prop :=
  Claims.ReduceContributions ∧ Claims.NormPartials

/-- The gate of a step: skip, clip or pass. -/
def Obligations.StepGateDecision : Prop :=
  Claims.StepGate

/-- Commit arrivals and commit records. -/
def Obligations.StepsCommit : Prop :=
  Claims.CommitArrivals ∧ Claims.CommitRecords

/-- The end of a step, and steps in doubt. -/
def Obligations.StepsEnd : Prop :=
  Claims.StepEnd ∧ Claims.DoubtfulSteps

/-- What an optical port does with the frames it receives. -/
def Obligations.FramesReceived : Prop :=
  Claims.FrameScreening ∧ Claims.RequestFrames ∧ Claims.ResponseFrames

/-- Numbering, credits, replay, and TIME frames. -/
def Obligations.FramesSent : Prop :=
  Claims.SendingAndReplay

/-- Optical sessions, light, training, lanes and lost ports. -/
def Obligations.PortSessionsAndLinks : Prop :=
  Claims.Sessions ∧ Claims.PortLinks

/-- Torus collectives and torus time. -/
def Obligations.TorusCollectivesAndTime : Prop :=
  Claims.Collectives ∧ Claims.TorusTime

/-- Host queue registers and the taking of entries. -/
def Obligations.HostQueues : Prop :=
  Claims.HostQueueRegisters ∧ Claims.HostEntries

/-- Host entries become requests and completions. -/
def Obligations.HostTransfersComplete : Prop :=
  Claims.HostTransfers ∧ Claims.HostCompletions

/-- A server datagram is accepted once, inside its window. -/
def Obligations.DatagramsAcceptedOnce : Prop :=
  Claims.DatagramWindow

/-- Export of steps, pushes, pulls and ICMPv6 of the server ports. -/
def Obligations.ServerPortExchange : Prop :=
  Claims.ExportProtocol ∧ Claims.ServerPorts

/-- Element events, marking, and retirement records. -/
def Obligations.FaultElements : Prop :=
  Claims.RetirementRecords ∧ Claims.ElementEvents

/-- Lifecycle commands: the first failed check, or their whole effect. -/
def Obligations.LifecycleControl : Prop :=
  Claims.LifecycleCommands

/-- Provisioning, owners, keys and reports. -/
def Obligations.OwnersKeysReports : Prop :=
  Claims.OwnersAndKeys

/-- Input failures, overvoltage, trips and the safe state. -/
def Obligations.InputFailures : Prop :=
  Claims.InputAndSafeState

/-- Set points, ticks, sprint, stretch and power groups. -/
def Obligations.PowerControl : Prop :=
  Claims.RegulatorDomains ∧ Claims.PowerTicks

/-- The fast clamp and the coolant warning. -/
def Obligations.FastClampCoolant : Prop :=
  Claims.FastClampAndCoolant

/-- Wake states of partitions and of the module. -/
def Obligations.WakePolicy : Prop :=
  Claims.WakeStates

/-- Crystal, selectors, operating point, CLKMON, and the root reference. -/
def Obligations.ClocksAndRoot : Prop :=
  Claims.Clocks ∧ Claims.RootTime

/-- The management lease and stored records. -/
def Obligations.ManagementLease : Prop :=
  Claims.LeaseAndRecords

/-- Cold power-on, readiness, host reset and recalibration. -/
def Obligations.PowerOnAndReadiness : Prop :=
  Claims.BringUp

/-- START, STOP, REBIND, the warm re-bind and the step timeout. -/
def Obligations.BindingControlCommands : Prop :=
  Claims.BindingControl

/-- Maunvo messages, handshakes and sessions. -/
def Obligations.MaunvoSessions : Prop :=
  Claims.SessionMessages ∧ Claims.Handshakes

/-- A repeated request is answered from the kept responses and not executed again. -/
def Obligations.RepliesKept : Prop :=
  Claims.RequestReplies

/-- Reads, writes, segments, events and timers of a session. -/
def Obligations.MaunvoTransfers : Prop :=
  Claims.MaunvoReads ∧ Claims.MaunvoWrites ∧ Claims.SessionTimers

/-- The I3C chassis port. -/
def Obligations.ChassisPortRequests : Prop :=
  Claims.ChassisPort

/-- Writes of stored entries and of the partition map. -/
def Obligations.DictionaryWrites : Prop :=
  Claims.StoredEntries ∧ Claims.PartitionMap

/-- Counter latches, snapshots, debug access and test multiplexers. -/
def Obligations.CountersAndDebug : Prop :=
  Claims.CounterReads ∧ Claims.DebugAccess

/-- Service pin functions and the console. -/
def Obligations.PinFunctionSwitch : Prop :=
  Claims.PinFunctions

/-- The TAP, its gating, and internal scan. -/
def Obligations.TestAccessPort : Prop :=
  Claims.TestAccess

/-- A step runs the command at the front of the queue. The idle tick is the model's choice (log entry 1). -/
def Obligations.StepRunsFrontCommand : Prop :=
  Claims.StepRunsTheFrontCommand

/-- What reset leaves, and that the invariants hold at reset. -/
def Obligations.ResetIsSoundState : Prop :=
  Claims.ResetState ∧ Claims.ResetIsSound

/-- Every well-formed command runs; nothing is refused. -/
def Obligations.WellFormedCommandsGoOn : Prop :=
  Claims.WellFormedCommandsRun

/-- A queue of well-formed commands runs to its end. -/
def Obligations.QueuesOfCommandsRunOut : Prop :=
  Claims.QueuesRunOut

/-- Every step keeps the canonical form of the memories. -/
def Obligations.CanonicalMemories : Prop :=
  Claims.MemoriesStayCanonical

/-- A retired module stays retired; fuses and versions never go back. -/
def Obligations.RetirementIsFinal : Prop :=
  Claims.FusesAndRetirementAreFinal

/-- Who may change the partition map, the lease and the lifecycle. -/
def Obligations.OnlyTheirCommandsChange : Prop :=
  Claims.WhoChangesWhat

/-- The three codes correct one error and deliver nothing of two. -/
def Obligations.ErrorCodes : Prop :=
  Claims.CodesCorrectOneDetectTwo
end

