-- ==== Sys2Proof/Laws/Mem.lean ====
section
/-! SUPPORT. The laws of the sparse maps: a read after a write gives the value written, a write leaves every other
number alone, and every operation keeps the canonical form. -/

namespace Sys2Proof.Machine

open Sys2Proof

variable {α : Type}

theorem mapFind_erase_self (m : SMap α) (k : Nat) : mapFind (mapErase m k) k = none := by
  induction m with
  | nil => rfl
  | cons x r ih => unfold mapErase; split <;> simp_all [mapFind]

theorem mapFind_erase_ne (m : SMap α) {k j : Nat} (h : j ≠ k) : mapFind (mapErase m k) j = mapFind m j := by
  induction m with
  | nil => rfl
  | cons x r ih => unfold mapErase; split <;> simp_all [mapFind, Ne.symm]

theorem mapFind_insert_self (m : SMap α) (k : Nat) (v : α) (h : mapFind m k = none) :
    mapFind (mapInsert m k v) k = some v := by
  induction m with
  | nil => simp [mapInsert, mapFind]
  | cons x r ih =>
    unfold mapInsert
    split
    · rename_i hlt
      have hne : x.1 ≠ k := by omega
      simp [mapFind, hne] at h ⊢; exact ih h
    · simp [mapFind]

theorem mapFind_insert_ne (m : SMap α) {k j : Nat} (v : α) (h : j ≠ k) :
    mapFind (mapInsert m k v) j = mapFind m j := by
  induction m with
  | nil => simp [mapInsert, mapFind, Ne.symm h]
  | cons x r ih =>
    unfold mapInsert
    split
    · simp [mapFind, ih]
    · simp [mapFind, Ne.symm h]

@[simp] theorem mapGet_set_self [DecidableEq α] (d : Nat → α) (m : SMap α) (k : Nat) (v : α) :
    mapGet d (mapSet d m k v) k = v := by
  by_cases h : v = d k
  · simp [mapSet, mapGet, h, mapFind_erase_self]
  · simp [mapSet, mapGet, h, mapFind_insert_self _ _ _ (mapFind_erase_self m k)]

theorem mapGet_set_ne [DecidableEq α] (d : Nat → α) (m : SMap α) {k j : Nat} (v : α) (h : j ≠ k) :
    mapGet d (mapSet d m k v) j = mapGet d m j := by
  by_cases hv : v = d k
  · simp [mapSet, mapGet, hv, mapFind_erase_ne m h]
  · simp [mapSet, mapGet, hv, mapFind_insert_ne _ v h, mapFind_erase_ne m h]

@[simp] theorem mapGet_mod_self [DecidableEq α] (d : Nat → α) (m : SMap α) (k : Nat) (f : α → α) :
    mapGet d (mapMod d m k f) k = f (mapGet d m k) := by simp [mapMod]

theorem mapGet_mod_ne [DecidableEq α] (d : Nat → α) (m : SMap α) {k j : Nat} (f : α → α) (h : j ≠ k) :
    mapGet d (mapMod d m k f) j = mapGet d m j := by simp [mapMod, mapGet_set_ne d m _ h]

theorem mapAbove_erase (m : SMap α) (k j : Nat) (h : mapAbove j m = true) : mapAbove j (mapErase m k) = true := by
  induction m with
  | nil => rfl
  | cons x r ih =>
    simp [mapAbove] at h
    unfold mapErase; split
    · exact ih h.2
    · simp [mapAbove, h.1, ih h.2]

theorem mapAbove_insert (m : SMap α) {k j : Nat} (v : α) (hk : j < k) (h : mapAbove j m = true) :
    mapAbove j (mapInsert m k v) = true := by
  induction m with
  | nil => simp [mapInsert, mapAbove, hk]
  | cons x r ih =>
    simp [mapAbove] at h
    unfold mapInsert; split
    · simp [mapAbove, h.1, ih h.2]
    · simp [mapAbove, hk, h.1, h.2]

theorem mapAbove_trans (m : SMap α) {k j : Nat} (hk : j ≤ k) (h : mapAbove k m = true) : mapAbove j m = true := by
  induction m with
  | nil => rfl
  | cons x r ih => simp [mapAbove] at h ⊢; exact ⟨by omega, ih h.2⟩

theorem mapErase_wf [DecidableEq α] (d : Nat → α) (m : SMap α) (k : Nat) (h : mapWf d m = true) :
    mapWf d (mapErase m k) = true := by
  induction m with
  | nil => rfl
  | cons x r ih =>
    simp [mapWf] at h
    unfold mapErase; split
    · exact ih h.2
    · simp [mapWf, h.1.1, mapAbove_erase r k _ h.1.2, ih h.2]

theorem mapInsert_wf [DecidableEq α] (d : Nat → α) (m : SMap α) (k : Nat) (v : α) (hv : v ≠ d k)
    (hf : mapFind m k = none) (h : mapWf d m = true) : mapWf d (mapInsert m k v) = true := by
  induction m with
  | nil => simp [mapInsert, mapWf, mapAbove, hv]
  | cons x r ih =>
    simp [mapWf] at h
    by_cases hx : x.1 = k
    · simp [mapFind, hx] at hf
    simp [mapFind, hx] at hf
    unfold mapInsert; split
    · rename_i hlt
      simp [mapWf, h.1.1, mapAbove_insert r v hlt h.1.2, ih hf h.2]
    · rename_i hlt
      have hkx : k < x.1 := by omega
      simp [mapWf, hv, mapAbove, hkx, h.1.1, h.1.2, h.2, mapAbove_trans r (Nat.le_of_lt hkx) h.1.2]

theorem mapSet_wf [DecidableEq α] (d : Nat → α) (m : SMap α) (k : Nat) (v : α) (h : mapWf d m = true) :
    mapWf d (mapSet d m k v) = true := by
  unfold mapSet
  split
  · exact mapErase_wf d m k h
  · rename_i hv
    exact mapInsert_wf d _ k v hv (mapFind_erase_self m k) (mapErase_wf d m k h)

theorem mapMod_wf [DecidableEq α] (d : Nat → α) (m : SMap α) (k : Nat) (f : α → α) (h : mapWf d m = true) :
    mapWf d (mapMod d m k f) = true := mapSet_wf d m k _ h

theorem mapAbove_filter (m : SMap α) (p : Nat × α → Bool) (j : Nat) (h : mapAbove j m = true) :
    mapAbove j (m.filter p) = true := by
  induction m with
  | nil => rfl
  | cons x r ih =>
    simp [mapAbove] at h
    simp only [List.filter_cons]; split
    · simp [mapAbove, h.1, ih h.2]
    · exact ih h.2

theorem mapClear_wf [DecidableEq α] (d : Nat → α) (m : SMap α) (p : Nat → Bool) (h : mapWf d m = true) :
    mapWf d (mapClear m p) = true := by
  unfold mapClear
  induction m with
  | nil => rfl
  | cons x r ih =>
    simp [mapWf] at h
    simp only [List.filter_cons]; split
    · simp [mapWf, h.1.1, mapAbove_filter r _ _ h.1.2]
      have := ih h.2
      simpa using this
    · exact ih h.2

@[simp] theorem Memory.read_write_self (m : Memory) (a : Nat) (b : Byte) : (m.write a b).read a = b := by
  simp [Memory.read, Memory.write]

theorem Memory.read_write_ne (m : Memory) {a c : Nat} (b : Byte) (h : c ≠ a) :
    (m.write a b).read c = m.read c := by simp [Memory.read, Memory.write, mapGet_set_ne zeroByte m b h]

theorem Memory.write_wf (m : Memory) (a : Nat) (b : Byte) (h : m.wf = true) : (m.write a b).wf = true :=
  mapSet_wf zeroByte m a b h

theorem Memory.writeList_wf (m : Memory) (a : Nat) (bs : List Byte) (h : m.wf = true) :
    (m.writeList a bs).wf = true := by
  induction bs generalizing m a with
  | nil => exact h
  | cons b r ih => exact ih _ _ (m.write_wf a b h)

theorem Memory.read_writeList_outside (m : Memory) (a c : Nat) (bs : List Byte)
    (h : c < a ∨ a + bs.length ≤ c) : (m.writeList a bs).read c = m.read c := by
  induction bs generalizing m a with
  | nil => rfl
  | cons b r ih =>
    simp only [List.length_cons] at h
    unfold Memory.writeList
    rw [ih _ _ (by omega), Memory.read_write_ne m b (by omega)]

end Sys2Proof.Machine
end

