-- ==== Sys2Proof/Laws/Keeps.lean ====
section
/-! SUPPORT. What an operation leaves alone: the relation Keeps between a state and a later one, and how it passes through a state update
and through folds. `m`, `l` and `t` say whether the partition map, the lease's holder and epoch, and the lifecycle state with fuses and
identity are kept; the commands that wait, the form of the memories and the direction of the fuses always are. -/

namespace Sys2Proof.Machine

open Sys2Proof

structure Keeps (m l t : Bool) (r s : State) : Prop where
  pending : s.pending = r.pending
  mem : MemOk r → MemOk s
  right : r.trust.RetiredRight → s.trust.RetiredRight
  fuses : (r.trust.retiredFuse = true → s.trust.retiredFuse = true) ∧ (r.trust.provisionedFuse = true → s.trust.provisionedFuse = true)
    ∧ r.trust.debugCount ≤ s.trust.debugCount ∧ r.trust.fwSvn ≤ s.trust.fwSvn
  map : m = true → s.pmap = r.pmap
  lease : l = true → s.lease.holder = r.lease.holder ∧ s.lease.epoch = r.lease.epoch ∧ s.lease.standDown = r.lease.standDown
  life : t = true → s.trust.lifecycle = r.trust.lifecycle ∧ s.trust.identity = r.trust.identity
    ∧ s.trust.provisionedFuse = r.trust.provisionedFuse ∧ s.trust.retiredFuse = r.trust.retiredFuse

theorem Memory.clear_wf (x : Memory) (p : Nat → Bool) (h : x.wf = true) : Memory.wf (mapClear x p) = true :=
  mapClear_wf _ _ _ h

theorem zeroCells_wf (x : Memory) (c : Nat) (p : Nat → Bool) (h : x.wf = true) : (zeroCells x c p).wf = true :=
  mapClear_wf _ _ _ h

variable {m l t : Bool} {r s : State}

theorem Keeps.refl (s : State) : Keeps m l t s s :=
  ⟨rfl, id, id, ⟨id, id, Nat.le_refl _, Nat.le_refl _⟩, fun _ => rfl, fun _ => ⟨rfl, rfl, rfl⟩, fun _ => ⟨rfl, rfl, rfl, rfl⟩⟩

theorem Keeps.trans {u : State} (h : Keeps m l t r s) (k : Keeps m l t s u) : Keeps m l t r u where
  pending := k.pending.trans h.pending
  mem := fun x => k.mem (h.mem x)
  right := fun x => k.right (h.right x)
  fuses := ⟨fun x => k.fuses.1 (h.fuses.1 x), fun x => k.fuses.2.1 (h.fuses.2.1 x), Nat.le_trans h.fuses.2.2.1 k.fuses.2.2.1,
    Nat.le_trans h.fuses.2.2.2 k.fuses.2.2.2⟩
  map := fun x => (k.map x).trans (h.map x)
  lease := fun x => ⟨(k.lease x).1.trans (h.lease x).1, (k.lease x).2.1.trans (h.lease x).2.1, (k.lease x).2.2.trans (h.lease x).2.2⟩
  life := fun x => ⟨(k.life x).1.trans (h.life x).1, (k.life x).2.1.trans (h.life x).2.1, (k.life x).2.2.1.trans (h.life x).2.2.1,
    (k.life x).2.2.2.trans (h.life x).2.2.2⟩

/-- A state whose commands, memories, map, lease and trust are those of s. -/
theorem Keeps.upd {u : State} (h : Keeps m l t r s) (hp : u.pending = s.pending := by rfl) (hc : u.cmem = s.cmem := by rfl)
    (hq : u.qmem = s.qmem := by rfl) (hs : u.smem = s.smem := by rfl) (hm : u.pmap = s.pmap := by rfl)
    (hl : u.lease.holder = s.lease.holder ∧ u.lease.epoch = s.lease.epoch ∧ u.lease.standDown = s.lease.standDown := by exact ⟨rfl, rfl, rfl⟩)
    (ht : u.trust.lifecycle = s.trust.lifecycle ∧ u.trust.identity = s.trust.identity ∧ u.trust.provisionedFuse = s.trust.provisionedFuse
      ∧ u.trust.retiredFuse = s.trust.retiredFuse := by exact ⟨rfl, rfl, rfl, rfl⟩)
    (hd : u.trust.debugCount = s.trust.debugCount := by rfl) (hv : u.trust.fwSvn = s.trust.fwSvn := by rfl) : Keeps m l t r u :=
  h.trans ⟨hp, by unfold MemOk; rw [hc, hq, hs]; exact id, by unfold Trust.RetiredRight; rw [ht.1, ht.2.2.2]; exact id,
    ⟨by rw [ht.2.2.2]; exact id, by rw [ht.2.2.1]; exact id, Nat.le_of_eq hd.symm, Nat.le_of_eq hv.symm⟩, fun _ => hm, fun _ => hl,
    fun _ => ht⟩

theorem keeps_mk {clock clusters parts syncs groups fabric store ctxs ueps idles pmapCtl faults counters dict binds boot nv ports colls host server torusTime clk power maunvo pins out free} :
    Keeps m l t r (State.mk s.pending clock clusters s.cmem s.qmem parts syncs groups fabric store s.smem ctxs ueps idles s.pmap pmapCtl faults counters dict s.lease binds boot nv s.trust ports colls host server torusTime clk power maunvo pins out free) ↔ Keeps m l t r s :=
  ⟨fun h => h.upd, fun h => h.upd⟩

theorem keeps_mk_lease {clock clusters parts syncs groups fabric store ctxs ueps idles pmapCtl faults counters dict binds boot nv ports colls host server torusTime clk power maunvo pins out free} {e n} :
    Keeps m l t r (State.mk s.pending clock clusters s.cmem s.qmem parts syncs groups fabric store s.smem ctxs ueps idles s.pmap pmapCtl faults counters dict ⟨s.lease.holder, s.lease.standDown, e, s.lease.epoch, n⟩ binds boot nv s.trust ports colls host server torusTime clk power maunvo pins out free) ↔ Keeps m l t r s :=
  ⟨fun h => h.upd, fun h => h.upd⟩

theorem keeps_mk_trust {clock clusters parts syncs groups fabric store ctxs ueps idles pmapCtl faults counters dict binds boot nv ports colls host server torusTime clk power maunvo pins out free} {t1 t2 t3 t4 t5 t6 t7} :
    Keeps m l t r (State.mk s.pending clock clusters s.cmem s.qmem parts syncs groups fabric store s.smem ctxs ueps idles s.pmap pmapCtl faults counters dict s.lease binds boot nv ⟨s.trust.lifecycle, s.trust.provisionedFuse, s.trust.retiredFuse, s.trust.debugCount, s.trust.fwSvn, t1, t2, s.trust.identity, t3, t4, t5, t6, t7⟩ ports colls host server torusTime clk power maunvo pins out free) ↔ Keeps m l t r s :=
  ⟨fun h => h.upd, fun h => h.upd⟩

theorem keeps_mk_mem {clock clusters parts syncs groups fabric store ctxs ueps idles pmapCtl faults counters dict binds boot nv ports colls host server torusTime clk power maunvo pins out free} {cmem qmem smem} (h : Keeps m l t r s) (hc : MemOk s → Memory.wf cmem = true)
    (hq : MemOk s → Memory.wf qmem = true) (hs : MemOk s → Memory.wf smem = true) :
    Keeps m l t r (State.mk s.pending clock clusters cmem qmem parts syncs groups fabric store smem ctxs ueps idles s.pmap pmapCtl faults counters dict s.lease binds boot nv s.trust ports colls host server torusTime clk power maunvo pins out free) := 
  ⟨h.pending, fun x => ⟨hc (h.mem x), hq (h.mem x), hs (h.mem x)⟩, h.right, h.fuses, h.map, h.lease, h.life⟩

/-- A state whose memories are in the canonical form whenever those of s are. -/
theorem Keeps.memOf {u : State} (h : Keeps m l t r s) (hm : MemOk s → MemOk u) (hp : u.pending = s.pending := by rfl)
    (hx : u.pmap = s.pmap := by rfl) (hl : u.lease = s.lease := by rfl) (ht : u.trust = s.trust := by rfl) : Keeps m l t r u :=
  ⟨hp.trans h.pending, fun x => hm (h.mem x), by rw [ht]; exact h.right, by rw [ht]; exact h.fuses, fun x => hx.trans (h.map x),
    by rw [hl]; exact h.lease, by rw [ht]; exact h.life⟩

theorem Keeps.mapOf {u : State} (h : Keeps false l t r s) (hp : u.pending = s.pending := by rfl) (hm : MemOk s → MemOk u := by exact id)
    (hl : u.lease = s.lease := by rfl) (ht : u.trust = s.trust := by rfl) : Keeps false l t r u :=
  ⟨hp.trans h.pending, fun x => hm (h.mem x), by rw [ht]; exact h.right, by rw [ht]; exact h.fuses, (fun x => by cases x),
    by rw [hl]; exact h.lease, by rw [ht]; exact h.life⟩

theorem Keeps.leaseOf {u : State} (h : Keeps m false t r s) (hp : u.pending = s.pending := by rfl) (hm : MemOk s → MemOk u := by exact id)
    (hx : u.pmap = s.pmap := by rfl) (ht : u.trust = s.trust := by rfl) : Keeps m false t r u :=
  ⟨hp.trans h.pending, fun x => hm (h.mem x), by rw [ht]; exact h.right, by rw [ht]; exact h.fuses, fun x => hx.trans (h.map x),
    (fun x => by cases x), by rw [ht]; exact h.life⟩

/-- A step of the lifecycle and the fuses. -/
theorem Keeps.trustOf {u : State} (h : Keeps m l false r s) (hr : s.trust.RetiredRight → u.trust.RetiredRight)
    (hf : (s.trust.retiredFuse = true → u.trust.retiredFuse = true) ∧ (s.trust.provisionedFuse = true → u.trust.provisionedFuse = true)
      ∧ s.trust.debugCount ≤ u.trust.debugCount ∧ s.trust.fwSvn ≤ u.trust.fwSvn)
    (hp : u.pending = s.pending := by rfl) (hm : MemOk s → MemOk u := by exact id)
    (hx : u.pmap = s.pmap := by rfl) (hl : u.lease = s.lease := by rfl) : Keeps m l false r u :=
  ⟨hp.trans h.pending, fun x => hm (h.mem x), fun x => hr (h.right x),
    ⟨fun x => hf.1 (h.fuses.1 x), fun x => hf.2.1 (h.fuses.2.1 x), Nat.le_trans h.fuses.2.2.1 hf.2.2.1, Nat.le_trans h.fuses.2.2.2 hf.2.2.2⟩,
    fun x => hx.trans (h.map x), by rw [hl]; exact h.lease, (fun x => by cases x)⟩

theorem keeps_mk_map {clock clusters parts syncs groups fabric store ctxs ueps idles pmap pmapCtl faults counters dict binds boot nv ports colls host server torusTime clk power maunvo pins out free} :
    Keeps false l t r (State.mk s.pending clock clusters s.cmem s.qmem parts syncs groups fabric store s.smem ctxs ueps idles pmap pmapCtl faults counters dict s.lease binds boot nv s.trust ports colls host server torusTime clk power maunvo pins out free) ↔ Keeps false l t r s :=
  ⟨fun h => h.mapOf, fun h => h.mapOf⟩

theorem keeps_mk_lease0 {clock clusters parts syncs groups fabric store ctxs ueps idles pmapCtl faults counters dict lease binds boot nv ports colls host server torusTime clk power maunvo pins out free} :
    Keeps m false t r (State.mk s.pending clock clusters s.cmem s.qmem parts syncs groups fabric store s.smem ctxs ueps idles s.pmap pmapCtl faults counters dict lease binds boot nv s.trust ports colls host server torusTime clk power maunvo pins out free) ↔ Keeps m false t r s :=
  ⟨fun h => h.leaseOf, fun h => h.leaseOf⟩

theorem keeps_mk_smem {clock clusters parts syncs groups fabric store ctxs ueps idles pmapCtl faults counters dict binds boot nv ports colls host server torusTime clk power maunvo pins out free} {goes : Nat → Bool} (h : Keeps m l t r s) :
    Keeps m l t r (State.mk s.pending clock clusters s.cmem s.qmem parts syncs groups fabric store (mapClear s.smem goes) ctxs ueps idles s.pmap pmapCtl faults counters dict s.lease binds boot nv s.trust ports colls host server torusTime clk power maunvo pins out free) :=
  h.memOf fun x => ⟨x.1, x.2.1, mapClear_wf _ _ _ x.2.2⟩

theorem keeps_ite {c : Prop} [Decidable c] {a b : State} (ha : c → Keeps m l t r a) (hb : ¬c → Keeps m l t r b) :
    Keeps m l t r (if c then a else b) := by split <;> simp_all

theorem keeps_foldl {α : Type} {f : State → α → State} {xs : List α} (h : Keeps m l t r s)
    (hf : ∀ u x, Keeps m l t r u → Keeps m l t r (f u x)) : Keeps m l t r (xs.foldl f s) := by
  induction xs generalizing s with
  | nil => exact h
  | cons x xs ih => exact ih (hf _ _ h)

theorem keeps_foldl_snd {α β : Type} {f : β × State → α → β × State} {b : β} {xs : List α} (h : Keeps m l t r s)
    (hf : ∀ a u x, Keeps m l t r u → Keeps m l t r (f (a, u) x).2) : Keeps m l t r (xs.foldl f (b, s)).2 := by
  induction xs generalizing b s with
  | nil => exact h
  | cons x xs ih => exact ih (hf _ _ _ h)

theorem keeps_foldl_of {α β : Type} (g : β → State) {f : β → α → β} {xs : List α} {b : β} (h : Keeps m l t r (g b))
    (hf : ∀ b x, Keeps m l t r (g b) → Keeps m l t r (g (f b x))) : Keeps m l t r (g (xs.foldl f b)) := by
  induction xs generalizing b with
  | nil => exact h
  | cons x xs ih => exact ih (hf _ _ h)

end Sys2Proof.Machine
end

