-- ==== Sys2Proof/Laws/KeepsCluster.lean ====
section
/-! SUPPORT. What an operation leaves alone (Keeps), lemma by lemma for the cluster: memory, register and sequencer operations, the engines, hold and stop. -/

namespace Sys2Proof.Machine

open Sys2Proof

set_option Elab.async false
set_option linter.unusedSimpArgs false
set_option linter.unusedVariables false

variable {m l t : Bool} {r s : State}

theorem State.emit_keeps {u0 : State} (o)
    (h0 : Keeps m l t r u0) :
    Keeps m l t r (State.emit u0 o) := by
  unfold State.emit
  try dsimp only
  repeat' first | with_reducible assumption | simp only [↓keeps_mk] | intro _ | dsimp only

theorem State.say_keeps {u0 : State} (kind) (value)
    (h0 : Keeps m l t r u0) :
    Keeps m l t r (State.say u0 kind value) := by
  unfold State.say
  try dsimp only
  repeat' first
      | with_reducible assumption | with_reducible apply State.emit_keeps | with_reducible apply keeps_ite | intro _ | split
      | dsimp only

theorem State.count_keeps {u0 : State} (k) (n)
    (h0 : Keeps m l t r u0) :
    Keeps m l t r (State.count u0 k n) := by
  unfold State.count
  try dsimp only
  repeat' first | with_reducible assumption | simp only [↓keeps_mk] | intro _ | dsimp only

theorem State.raiseEvent_keeps {u0 : State} (cls) (index) (sub) (detail)
    (h0 : Keeps m l t r u0) :
    Keeps m l t r (State.raiseEvent u0 cls index sub detail) := by
  unfold State.raiseEvent
  try dsimp only
  repeat' first
      | with_reducible assumption | with_reducible apply State.count_keeps | simp only [↓keeps_mk] | with_reducible apply keeps_ite
      | intro _ | split | dsimp only

theorem State.log_keeps {u0 : State} (cls) (count) (part) (cause) (action) (element) (detail)
    (h0 : Keeps m l t r u0) :
    Keeps m l t r (State.log u0 cls count part cause action element detail) := by
  unfold State.log
  try dsimp only
  repeat' first
      | with_reducible assumption | with_reducible apply State.say_keeps | with_reducible apply State.raiseEvent_keeps
      | simp only [↓keeps_mk] | with_reducible apply keeps_ite | intro _ | split | dsimp only

theorem State.nvPut_keeps {u0 : State} (ty) (a2) (v)
    (h0 : Keeps m l t r u0) :
    Keeps m l t r (State.nvPut u0 ty a2 v) := by
  unfold State.nvPut
  try dsimp only
  repeat' first | with_reducible assumption | simp only [↓keeps_mk] | intro _ | dsimp only

theorem State.advanceIn_keeps {u0 : State} (n)
    (h0 : Keeps m l t r u0) :
    Keeps m l t r (State.advanceIn u0 n) := by
  unfold State.advanceIn
  try dsimp only
  repeat' first | with_reducible assumption | simp only [↓keeps_mk] | with_reducible apply keeps_ite | intro _ | split | dsimp only

theorem State.advance_keeps {u0 : State} (n)
    (h0 : Keeps m l t r u0) :
    Keeps m l t r (State.advance u0 n) := by
  unfold State.advance
  try dsimp only
  repeat' first
      | with_reducible assumption | with_reducible apply State.advanceIn_keeps | simp only [↓keeps_mk] | with_reducible apply keeps_ite
      | intro _ | split | dsimp only

theorem State.atFab_keeps {u0 : State} (f)
    (h0 : Keeps m l t r u0) :
    Keeps m l t r (State.atFab u0 f) := by
  unfold State.atFab
  try dsimp only
  repeat' first
      | with_reducible assumption | with_reducible apply State.advance_keeps | with_reducible apply keeps_ite | intro _ | split
      | dsimp only

theorem State.modCluster_keeps {u0 : State} (c) (f)
    (h0 : Keeps m l t r u0) :
    Keeps m l t r (State.modCluster u0 c f) := by
  unfold State.modCluster
  try dsimp only
  repeat' first
      | with_reducible assumption | simp only [↓keeps_mk, ↓keeps_mk_trust, ↓keeps_mk_lease, ↓keeps_mk_map, ↓keeps_mk_lease0]
      | with_reducible apply keeps_ite | with_reducible apply keeps_foldl | intro _ | with_reducible apply keeps_foldl_snd | split
      | dsimp only

theorem State.zeroCluster_keeps {u0 : State} (c) (bank) (coded)
    (h0 : Keeps m l t r u0) :
    Keeps m l t r (State.zeroCluster u0 c bank coded) := by
  unfold State.zeroCluster
  refine State.modCluster_keeps _ _ (h0.memOf fun x => ⟨zeroCells_wf _ _ _ x.1, ?_, x.2.2⟩)
  dsimp only
  split
  · exact zeroCells_wf _ _ _ x.2.1
  · exact x.2.1

theorem State.zeroing_keeps {u0 : State} (c) (bank) (coded)
    (h0 : Keeps m l t r u0) :
    Keeps m l t r (State.zeroing u0 c bank coded) := by
  unfold State.zeroing
  try dsimp only
  repeat' first
      | with_reducible assumption | with_reducible apply State.modCluster_keeps | with_reducible apply State.zeroCluster_keeps
      | simp only [↓keeps_mk] | intro _ | dsimp only

theorem State.modDomain_keeps {u0 : State} (d) (f)
    (h0 : Keeps m l t r u0) :
    Keeps m l t r (State.modDomain u0 d f) := by
  unfold State.modDomain
  try dsimp only
  repeat' first
      | with_reducible assumption | simp only [↓keeps_mk, ↓keeps_mk_trust, ↓keeps_mk_lease, ↓keeps_mk_map, ↓keeps_mk_lease0]
      | with_reducible apply keeps_ite | with_reducible apply keeps_foldl | intro _ | with_reducible apply keeps_foldl_snd | split
      | dsimp only

theorem State.modStack_keeps {u0 : State} (n) (f)
    (h0 : Keeps m l t r u0) :
    Keeps m l t r (State.modStack u0 n f) := by
  unfold State.modStack
  try dsimp only
  repeat' first
      | with_reducible assumption | simp only [↓keeps_mk, ↓keeps_mk_trust, ↓keeps_mk_lease, ↓keeps_mk_map, ↓keeps_mk_lease0]
      | with_reducible apply keeps_ite | with_reducible apply keeps_foldl | intro _ | with_reducible apply keeps_foldl_snd | split
      | dsimp only

theorem State.modPage_keeps {u0 : State} (stack) (page) (f)
    (h0 : Keeps m l t r u0) :
    Keeps m l t r (State.modPage u0 stack page f) := by
  unfold State.modPage
  try dsimp only
  repeat' first
      | with_reducible assumption | simp only [↓keeps_mk, ↓keeps_mk_trust, ↓keeps_mk_lease, ↓keeps_mk_map, ↓keeps_mk_lease0]
      | with_reducible apply keeps_ite | with_reducible apply keeps_foldl | intro _ | with_reducible apply keeps_foldl_snd | split
      | dsimp only

theorem State.modPort_keeps {u0 : State} (n) (f)
    (h0 : Keeps m l t r u0) :
    Keeps m l t r (State.modPort u0 n f) := by
  unfold State.modPort
  try dsimp only
  repeat' first
      | with_reducible assumption | simp only [↓keeps_mk, ↓keeps_mk_trust, ↓keeps_mk_lease, ↓keeps_mk_map, ↓keeps_mk_lease0]
      | with_reducible apply keeps_ite | with_reducible apply keeps_foldl | intro _ | with_reducible apply keeps_foldl_snd | split
      | dsimp only

theorem State.modBind_keeps {u0 : State} (p) (f)
    (h0 : Keeps m l t r u0) :
    Keeps m l t r (State.modBind u0 p f) := by
  unfold State.modBind
  try dsimp only
  repeat' first
      | with_reducible assumption | simp only [↓keeps_mk, ↓keeps_mk_trust, ↓keeps_mk_lease, ↓keeps_mk_map, ↓keeps_mk_lease0]
      | with_reducible apply keeps_ite | with_reducible apply keeps_foldl | intro _ | with_reducible apply keeps_foldl_snd | split
      | dsimp only

theorem State.modPart_keeps {u0 : State} (p) (f)
    (h0 : Keeps m l t r u0) :
    Keeps m l t r (State.modPart u0 p f) := by
  unfold State.modPart
  try dsimp only
  repeat' first
      | with_reducible assumption | simp only [↓keeps_mk, ↓keeps_mk_trust, ↓keeps_mk_lease, ↓keeps_mk_map, ↓keeps_mk_lease0]
      | with_reducible apply keeps_ite | with_reducible apply keeps_foldl | intro _ | with_reducible apply keeps_foldl_snd | split
      | dsimp only

theorem State.modHostQ_keeps {u0 : State} (q) (f)
    (h0 : Keeps m l t r u0) :
    Keeps m l t r (State.modHostQ u0 q f) := by
  unfold State.modHostQ
  try dsimp only
  repeat' first
      | with_reducible assumption | simp only [↓keeps_mk, ↓keeps_mk_trust, ↓keeps_mk_lease, ↓keeps_mk_map, ↓keeps_mk_lease0]
      | with_reducible apply keeps_ite | with_reducible apply keeps_foldl | intro _ | with_reducible apply keeps_foldl_snd | split
      | dsimp only

theorem State.modCtx_keeps {u0 : State} (c) (k) (f)
    (h0 : Keeps m l t r u0) :
    Keeps m l t r (State.modCtx u0 c k f) := by
  unfold State.modCtx
  try dsimp only
  repeat' first
      | with_reducible assumption | simp only [↓keeps_mk, ↓keeps_mk_trust, ↓keeps_mk_lease, ↓keeps_mk_map, ↓keeps_mk_lease0]
      | with_reducible apply keeps_ite | with_reducible apply keeps_foldl | intro _ | with_reducible apply keeps_foldl_snd | split
      | dsimp only

theorem State.raiseStop_keeps {u0 : State} (p) (why)
    (h0 : Keeps m l t r u0) :
    Keeps m l t r (State.raiseStop u0 p why) := by
  unfold State.raiseStop
  try dsimp only
  repeat' first
      | with_reducible assumption | with_reducible apply State.modPart_keeps | simp only [↓keeps_mk] | with_reducible apply keeps_ite
      | intro _ | split | dsimp only

theorem State.clusterFault_keeps {u0 : State} (c) (cause) (desc)
    (h0 : Keeps m l t r u0) :
    Keeps m l t r (State.clusterFault u0 c cause desc) := by
  unfold State.clusterFault
  try dsimp only
  repeat' first
      | with_reducible assumption | with_reducible apply State.modCluster_keeps | with_reducible apply State.log_keeps
      | with_reducible apply State.raiseStop_keeps | simp only [↓keeps_mk] | with_reducible apply keeps_ite | intro _ | split
      | dsimp only

theorem State.stageWrite_keeps {u0 : State} (c) (g)
    (h0 : Keeps m l t r u0) :
    Keeps m l t r (State.stageWrite u0 c g) := by
  unfold State.stageWrite
  try dsimp only
  repeat' first
      | with_reducible assumption | with_reducible apply State.modCluster_keeps | with_reducible apply State.clusterFault_keeps
      | simp only [↓keeps_mk] | with_reducible apply keeps_ite | intro _ | split | dsimp only

theorem State.modSrv_keeps {u0 : State} (p) (peer) (f)
    (h0 : Keeps m l t r u0) :
    Keeps m l t r (State.modSrv u0 p peer f) := by
  unfold State.modSrv
  try dsimp only
  repeat' first
      | with_reducible assumption | simp only [↓keeps_mk, ↓keeps_mk_trust, ↓keeps_mk_lease, ↓keeps_mk_map, ↓keeps_mk_lease0]
      | with_reducible apply keeps_ite | with_reducible apply keeps_foldl | intro _ | with_reducible apply keeps_foldl_snd | split
      | dsimp only

theorem State.nvRequest_keeps {u0 : State} (ty) (a2) (v) (core) (reply)
    (h0 : Keeps m l t r u0) :
    Keeps m l t r (State.nvRequest u0 ty a2 v core reply) := by
  unfold State.nvRequest
  try dsimp only
  repeat' first | with_reducible assumption | simp only [↓keeps_mk] | intro _ | dsimp only

theorem State.atNs_keeps {u0 : State} (ns)
    (h0 : Keeps m l t r u0) :
    Keeps m l t r (State.atNs u0 ns) := by
  unfold State.atNs
  try dsimp only
  repeat' first
      | with_reducible assumption | with_reducible apply State.advance_keeps | with_reducible apply keeps_ite | intro _ | split
      | dsimp only

theorem State.markElement_keeps {u0 : State} (element) (part) (cause) (detail)
    (h0 : Keeps m l t r u0) :
    Keeps m l t r (State.markElement u0 element part cause detail) := by
  unfold State.markElement
  try dsimp only
  repeat' first | with_reducible assumption | with_reducible apply State.log_keeps | simp only [↓keeps_mk] | intro _ | dsimp only

theorem State.elementEvent_keeps {u0 : State} (element) (kind) (uncorr) (part) (cause) (action) (detail)
    (h0 : Keeps m l t r u0) :
    Keeps m l t r (State.elementEvent u0 element kind uncorr part cause action detail).1 := by
  unfold State.elementEvent
  try dsimp only
  repeat' first
      | with_reducible assumption | with_reducible apply State.count_keeps | with_reducible apply State.log_keeps
      | with_reducible apply State.markElement_keeps | simp only [↓keeps_mk] | with_reducible apply keeps_ite | intro _ | split
      | dsimp only

theorem State.lightPorts_keeps {u0 : State}
    (h0 : Keeps m l t r u0) :
    Keeps m l t r (State.lightPorts u0) := by
  unfold State.lightPorts
  try dsimp only
  repeat' first
      | with_reducible assumption | simp only [↓keeps_mk] | with_reducible apply keeps_ite | with_reducible apply keeps_foldl | intro _
      | with_reducible apply keeps_foldl_snd | split | dsimp only

theorem State.askWake_keeps {u0 : State}
    (h0 : Keeps m l t r u0) :
    Keeps m l t r (State.askWake u0) := by
  unfold State.askWake
  try dsimp only
  repeat' first
      | with_reducible assumption | with_reducible apply State.lightPorts_keeps | simp only [↓keeps_mk] | with_reducible apply keeps_ite
      | intro _ | split | dsimp only

theorem State.guarded_keeps {u0 : State} (w) {u2 : State}
    (h0 : Keeps m l t r u0) (h2 : Keeps m l t r u2) :
    Keeps m l t r (State.guarded u0 w u2) := by
  unfold State.guarded
  try dsimp only
  repeat' first
      | with_reducible assumption | simp only [↓keeps_mk, ↓keeps_mk_lease] | with_reducible apply keeps_ite | intro _ | split
      | dsimp only

theorem State.modPinGroup_keeps {u0 : State} (g) (f)
    (h0 : Keeps m l t r u0) :
    Keeps m l t r (State.modPinGroup u0 g f) := by
  unfold State.modPinGroup
  try dsimp only
  repeat' first
      | with_reducible assumption | simp only [↓keeps_mk, ↓keeps_mk_trust, ↓keeps_mk_lease, ↓keeps_mk_map, ↓keeps_mk_lease0]
      | with_reducible apply keeps_ite | with_reducible apply keeps_foldl | intro _ | with_reducible apply keeps_foldl_snd | split
      | dsimp only

theorem State.overClusters_keeps {u0 : State} (p) (f)
    (h0 : Keeps m l t r u0) (h2 : ∀ x0 x1, Keeps m l t r x0 → Keeps m l t r (f x0 x1)) :
    Keeps m l t r (State.overClusters u0 p f) := by
  unfold State.overClusters
  try dsimp only
  repeat' first
      | with_reducible assumption | with_reducible apply h2 | with_reducible apply keeps_foldl | intro _
      | with_reducible apply keeps_foldl_snd | dsimp only

theorem State.asOf_keeps {u0 : State} (fab) (f : State → State)
    (h0 : Keeps m l t r u0) (h2 : ∀ x0, Keeps m l t r x0 → Keeps m l t r (f x0)) :
    Keeps m l t r (State.asOf u0 fab f) := by
  exact (h2 _ (keeps_mk.2 h0)).upd

theorem foldOps_keeps (ops) (i) (f) {u3 : State}
    (h2 : ∀ x0 x1 x2, Keeps m l t r x0 → Keeps m l t r (f x0 x1 x2)) (h3 : Keeps m l t r u3) :
    Keeps m l t r (foldOps ops i f u3) := by
  induction ops generalizing i u3 with
  | nil => exact h3
  | cons o os ih => exact ih _ (h2 _ _ _ h3)

theorem State.noteRead_keeps {u0 : State} (c) (w)
    (h0 : Keeps m l t r u0) :
    Keeps m l t r (State.noteRead u0 c w) := by
  unfold State.noteRead
  try dsimp only
  repeat' first
      | with_reducible assumption | with_reducible apply State.modCluster_keeps | with_reducible apply State.count_keeps
      | with_reducible apply State.elementEvent_keeps | simp only [↓keeps_mk] | with_reducible apply keeps_ite | intro _ | split
      | dsimp only

theorem State.readWords_keeps {u0 : State} (c) (ws)
    (h0 : Keeps m l t r u0) :
    Keeps m l t r (State.readWords u0 c ws).2 := by
  unfold State.readWords
  try dsimp only
  repeat' first
      | with_reducible assumption | with_reducible apply State.noteRead_keeps | simp only [↓keeps_mk] | with_reducible apply keeps_foldl
      | intro _ | with_reducible apply keeps_foldl_snd | dsimp only

theorem State.takeBanks_keeps {u0 : State} (c) (ws)
    (h0 : Keeps m l t r u0) :
    Keeps m l t r (State.takeBanks u0 c ws) := by
  unfold State.takeBanks
  try dsimp only
  repeat' first
      | with_reducible assumption | with_reducible apply State.modCluster_keeps | simp only [↓keeps_mk] | with_reducible apply keeps_ite
      | intro _ | split | dsimp only

theorem State.modCirc_keeps {u0 : State} (c) (a2) (f)
    (h0 : Keeps m l t r u0) :
    Keeps m l t r (State.modCirc u0 c a2 f) := by
  unfold State.modCirc
  try dsimp only
  repeat' first | with_reducible assumption | with_reducible apply State.modCluster_keeps | simp only [↓keeps_mk] | intro _ | dsimp only

theorem State.circRead_keeps {u0 : State} (c) (a2) (n) (sel)
    (h0 : Keeps m l t r u0) :
    Keeps m l t r (State.circRead u0 c a2 n sel).2 := by
  unfold State.circRead
  try dsimp only
  repeat' first
      | with_reducible assumption | with_reducible apply State.readWords_keeps | with_reducible apply State.modCirc_keeps
      | simp only [↓keeps_mk] | intro _ | dsimp only

theorem State.testRead_keeps {u0 : State} (c) (a2) (n)
    (h0 : Keeps m l t r u0) :
    Keeps m l t r (State.testRead u0 c a2 n) := by
  unfold State.testRead
  try dsimp only
  repeat' first | with_reducible assumption | with_reducible apply State.modCirc_keeps | intro _ | dsimp only

theorem State.clusterFaultIn_keeps {u0 : State} (c) (cause) (desc) (delay)
    (h0 : Keeps m l t r u0) :
    Keeps m l t r (State.clusterFaultIn u0 c cause desc delay) := by
  unfold State.clusterFaultIn
  try dsimp only
  repeat' first
      | with_reducible assumption | with_reducible apply State.asOf_keeps | with_reducible apply State.clusterFault_keeps | intro _
      | dsimp only

theorem State.circFault_keeps {u0 : State} (c) (a2) (cause) (desc)
    (h0 : Keeps m l t r u0) :
    Keeps m l t r (State.circFault u0 c a2 cause desc) := by
  unfold State.circFault
  try dsimp only
  repeat' first
      | with_reducible assumption | with_reducible apply State.clusterFaultIn_keeps | with_reducible apply State.modCluster_keeps
      | simp only [↓keeps_mk] | intro _ | dsimp only

theorem State.bankConflict_keeps {u0 : State} (c) (desc) (delay)
    (h0 : Keeps m l t r u0) :
    Keeps m l t r (State.bankConflict u0 c desc delay) := by
  unfold State.bankConflict
  try dsimp only
  repeat' first
      | with_reducible assumption | with_reducible apply State.clusterFaultIn_keeps | with_reducible apply State.modCluster_keeps
      | simp only [↓keeps_mk] | intro _ | dsimp only

theorem State.xbarEvent_keeps {u0 : State} (c) (cause) (action)
    (h0 : Keeps m l t r u0) :
    Keeps m l t r (State.xbarEvent u0 c cause action) := by
  unfold State.xbarEvent
  try dsimp only
  repeat' first
      | with_reducible assumption | with_reducible apply State.count_keeps | with_reducible apply State.elementEvent_keeps | intro _
      | dsimp only

theorem State.befallRead_keeps {u0 : State} (c) (o) (slot) (off) (delay) (vs)
    (h0 : Keeps m l t r u0) :
    Keeps m l t r (State.befallRead u0 c o slot off delay vs).2 := by
  unfold State.befallRead
  try dsimp only
  repeat' first
      | with_reducible assumption | with_reducible apply State.bankConflict_keeps | with_reducible apply State.xbarEvent_keeps
      | simp only [↓keeps_mk] | with_reducible apply keeps_ite | intro _ | split | dsimp only

theorem State.modOpAt_keeps {u0 : State} (c) (i) (f)
    (h0 : Keeps m l t r u0) :
    Keeps m l t r (State.modOpAt u0 c i f) := by
  unfold State.modOpAt
  try dsimp only
  repeat' first | with_reducible assumption | with_reducible apply State.modCluster_keeps | simp only [↓keeps_mk] | intro _ | dsimp only

theorem State.doRead_keeps {u0 : State} (c) (i) (o) (b) (ok)
    (h0 : Keeps m l t r u0) :
    Keeps m l t r (State.doRead u0 c i o b ok) := by
  unfold State.doRead
  try dsimp only
  repeat' first
      | with_reducible assumption | with_reducible apply State.readWords_keeps | with_reducible apply State.takeBanks_keeps
      | with_reducible apply State.circRead_keeps | with_reducible apply State.testRead_keeps
      | with_reducible apply State.circFault_keeps | with_reducible apply State.befallRead_keeps
      | with_reducible apply State.modOpAt_keeps | simp only [↓keeps_mk] | with_reducible apply keeps_ite | intro _ | split | dsimp only

theorem State.takeFree_keeps {u0 : State} (n)
    (h0 : Keeps m l t r u0) :
    Keeps m l t r (State.takeFree u0 n) := by
  unfold State.takeFree
  try dsimp only
  repeat' first | with_reducible assumption | simp only [↓keeps_mk] | intro _ | dsimp only

theorem State.form_keeps {u0 : State} (c) (i) (o)
    (h0 : Keeps m l t r u0) :
    Keeps m l t r (State.form u0 c i o) := by
  unfold State.form
  try dsimp only
  repeat' first
      | with_reducible assumption | with_reducible apply State.takeFree_keeps | with_reducible apply State.modOpAt_keeps
      | with_reducible apply State.modCluster_keeps | simp only [↓keeps_mk] | with_reducible apply keeps_ite | intro _ | split
      | dsimp only

theorem State.engineError_keeps {u0 : State} (c) (o)
    (h0 : Keeps m l t r u0) :
    Keeps m l t r (State.engineError u0 c o) := by
  unfold State.engineError
  try dsimp only
  repeat' first
      | with_reducible assumption | with_reducible apply State.modCluster_keeps | with_reducible apply State.count_keeps
      | with_reducible apply State.elementEvent_keeps | with_reducible apply State.clusterFault_keeps | simp only [↓keeps_mk]
      | with_reducible apply keeps_ite | intro _ | split | dsimp only

theorem State.befallWrite_keeps {u0 : State} (c) (o) (b) (delay)
    (h0 : Keeps m l t r u0) :
    Keeps m l t r (State.befallWrite u0 c o b delay) := by
  unfold State.befallWrite
  try dsimp only
  repeat' first
      | with_reducible assumption | with_reducible apply State.bankConflict_keeps | with_reducible apply State.clusterFaultIn_keeps
      | with_reducible apply State.xbarEvent_keeps | simp only [↓keeps_mk] | with_reducible apply keeps_ite | intro _ | split
      | dsimp only

theorem State.headPast_keeps {u0 : State} (c) (a2) (n)
    (h0 : Keeps m l t r u0) :
    Keeps m l t r (State.headPast u0 c a2 n) := by
  unfold State.headPast
  try dsimp only
  repeat' first | with_reducible assumption | with_reducible apply State.modCirc_keeps | simp only [↓keeps_mk] | intro _ | dsimp only

theorem State.testWrite_keeps {u0 : State} (c) (a2) (n)
    (h0 : Keeps m l t r u0) :
    Keeps m l t r (State.testWrite u0 c a2 n) := by
  unfold State.testWrite
  try dsimp only
  repeat' first | with_reducible assumption | with_reducible apply State.modCirc_keeps | simp only [↓keeps_mk] | intro _ | dsimp only

theorem State.doWrite_keeps {u0 : State} (c) (o) (b) (ok) (acc)
    (h0 : Keeps m l t r u0) :
    Keeps m l t r (State.doWrite u0 c o b ok acc).1 := by
  unfold State.doWrite
  try dsimp only
  repeat' first
      | with_reducible assumption | with_reducible apply State.befallWrite_keeps | with_reducible apply State.takeFree_keeps
      | with_reducible apply State.headPast_keeps | with_reducible apply State.testWrite_keeps
      | with_reducible apply State.circFault_keeps | simp only [↓keeps_mk] | with_reducible apply keeps_ite | intro _ | split
      | dsimp only

theorem State.putRaw_keeps {u0 : State} (c) (w) (data) (check)
    (h0 : Keeps m l t r u0) :
    Keeps m l t r (State.putRaw u0 c w data check) := by
  exact h0.memOf fun x => ⟨Memory.writeList_wf _ _ _ x.1, x.2.1, x.2.2⟩

theorem State.writeWord_keeps {u0 : State} (c) (w) (v)
    (h0 : Keeps m l t r u0) :
    Keeps m l t r (State.writeWord u0 c w v) := by
  unfold State.writeWord
  try dsimp only
  repeat' first
      | with_reducible assumption | with_reducible apply State.putRaw_keeps | with_reducible apply State.modCluster_keeps
      | simp only [↓keeps_mk] | with_reducible apply keeps_ite | intro _ | split | dsimp only

theorem State.writeCycle_keeps {u0 : State} (c) (ws)
    (h0 : Keeps m l t r u0) :
    Keeps m l t r (State.writeCycle u0 c ws) := by
  unfold State.writeCycle
  try dsimp only
  repeat' first
      | with_reducible assumption | with_reducible apply State.writeWord_keeps | with_reducible apply keeps_ite
      | with_reducible apply keeps_foldl | intro _ | with_reducible apply keeps_foldl_snd | split | dsimp only

theorem State.doCycle_keeps {u0 : State} (c) (a2)
    (h0 : Keeps m l t r u0) :
    Keeps m l t r (State.doCycle u0 c a2) := by
  unfold State.doCycle
  lift_lets
  extract_lets ops fab okR s1 s2 ops2 okW s3 go w s4
  have h1 : Keeps m l t r s1 := foldOps_keeps _ _ _ (fun _ _ _ hu => keeps_foldl hu (fun _ _ h => State.doRead_keeps _ _ _ _ _ h)) h0
  have h2 : Keeps m l t r s2 := foldOps_keeps _ _ _ (fun _ _ _ hu => State.form_keeps _ _ _ hu) h1
  have h3 : Keeps m l t r s3 := foldOps_keeps _ _ _
    (fun _ _ _ hu => keeps_ite (fun _ => State.modOpAt_keeps _ _ _ (State.engineError_keeps _ _ hu)) (fun _ => hu)) h2
  have hw : Keeps m l t r w.1 := keeps_foldl_of (fun x : State × List (Nat × PWord) => x.1) h3
    (fun _ _ hb => keeps_foldl_of (fun x : State × List (Nat × PWord) => x.1) hb (fun _ _ hx => State.doWrite_keeps _ _ _ _ _ hx))
  have h4 : Keeps m l t r s4 := State.modCluster_keeps _ _ hw
  exact State.writeCycle_keeps _ _ (State.takeBanks_keeps _ _ h4)

theorem State.settleFuel_keeps (fuel) {u1 : State} (c) (lim)
    (h1 : Keeps m l t r u1) :
    Keeps m l t r (State.settleFuel fuel u1 c lim) := by
  induction fuel generalizing u1 with
  | zero => exact h1
  | succ k ih =>
    unfold State.settleFuel
    split
    · exact h1
    · exact keeps_ite (fun _ => ih (State.asOf_keeps _ _ h1 (fun _ h => State.doCycle_keeps _ _ h))) (fun _ => h1)

theorem State.settleBefore_keeps {u0 : State} (c) (lim)
    (h0 : Keeps m l t r u0) :
    Keeps m l t r (State.settleBefore u0 c lim) := by
  unfold State.settleBefore
  try dsimp only
  repeat' first
      | with_reducible assumption | with_reducible apply State.settleFuel_keeps | with_reducible apply keeps_ite | intro _ | split
      | dsimp only

theorem State.modIdle_keeps {u0 : State} (p) (f)
    (h0 : Keeps m l t r u0) :
    Keeps m l t r (State.modIdle u0 p f) := by
  unfold State.modIdle
  try dsimp only
  repeat' first
      | with_reducible assumption | simp only [↓keeps_mk, ↓keeps_mk_trust, ↓keeps_mk_lease, ↓keeps_mk_map, ↓keeps_mk_lease0]
      | with_reducible apply keeps_ite | with_reducible apply keeps_foldl | intro _ | with_reducible apply keeps_foldl_snd | split
      | dsimp only

theorem State.endWait_keeps {u0 : State} (c) (why)
    (h0 : Keeps m l t r u0) :
    Keeps m l t r (State.endWait u0 c why) := by
  unfold State.endWait
  try dsimp only
  repeat' first
      | with_reducible assumption | with_reducible apply State.modIdle_keeps | simp only [↓keeps_mk] | with_reducible apply keeps_ite
      | intro _ | split | dsimp only

theorem State.eachCluster_keeps {u0 : State} (p) (f)
    (h0 : Keeps m l t r u0) :
    Keeps m l t r (State.eachCluster u0 p f) := by
  unfold State.eachCluster
  try dsimp only
  repeat' first | with_reducible assumption | simp only [↓keeps_mk] | with_reducible apply keeps_ite | intro _ | split | dsimp only

theorem State.eachCtx_keeps {u0 : State} (p) (f)
    (h0 : Keeps m l t r u0) :
    Keeps m l t r (State.eachCtx u0 p f) := by
  unfold State.eachCtx
  try dsimp only
  repeat' first | with_reducible assumption | simp only [↓keeps_mk] | with_reducible apply keeps_ite | intro _ | split | dsimp only

theorem State.modOwner_keeps {u0 : State} (p) (f)
    (h0 : Keeps m l t r u0) :
    Keeps m l t r (State.modOwner u0 p f) := by
  unfold State.modOwner
  try dsimp only
  repeat' first
      | with_reducible assumption | simp only [↓keeps_mk, ↓keeps_mk_trust, ↓keeps_mk_lease, ↓keeps_mk_map, ↓keeps_mk_lease0]
      | with_reducible apply keeps_ite | with_reducible apply keeps_foldl | intro _ | with_reducible apply keeps_foldl_snd | split
      | dsimp only

theorem State.nvErase_keeps {u0 : State} (ty) (a2)
    (h0 : Keeps m l t r u0) :
    Keeps m l t r (State.nvErase u0 ty a2) := by
  unfold State.nvErase
  try dsimp only
  repeat' first | with_reducible assumption | simp only [↓keeps_mk] | intro _ | dsimp only

theorem State.modSync_keeps {u0 : State} (o) (f)
    (h0 : Keeps m l t r u0) :
    Keeps m l t r (State.modSync u0 o f) := by
  unfold State.modSync
  try dsimp only
  repeat' first
      | with_reducible assumption | simp only [↓keeps_mk, ↓keeps_mk_trust, ↓keeps_mk_lease, ↓keeps_mk_map, ↓keeps_mk_lease0]
      | with_reducible apply keeps_ite | with_reducible apply keeps_foldl | intro _ | with_reducible apply keeps_foldl_snd | split
      | dsimp only

theorem State.modColl_keeps {u0 : State} (g) (f)
    (h0 : Keeps m l t r u0) :
    Keeps m l t r (State.modColl u0 g f) := by
  unfold State.modColl
  try dsimp only
  repeat' first
      | with_reducible assumption | simp only [↓keeps_mk, ↓keeps_mk_trust, ↓keeps_mk_lease, ↓keeps_mk_map, ↓keeps_mk_lease0]
      | with_reducible apply keeps_ite | with_reducible apply keeps_foldl | intro _ | with_reducible apply keeps_foldl_snd | split
      | dsimp only

theorem State.modGroup_keeps {u0 : State} (g) (f)
    (h0 : Keeps m l t r u0) :
    Keeps m l t r (State.modGroup u0 g f) := by
  unfold State.modGroup
  try dsimp only
  repeat' first
      | with_reducible assumption | simp only [↓keeps_mk, ↓keeps_mk_trust, ↓keeps_mk_lease, ↓keeps_mk_map, ↓keeps_mk_lease0]
      | with_reducible apply keeps_ite | with_reducible apply keeps_foldl | intro _ | with_reducible apply keeps_foldl_snd | split
      | dsimp only

theorem State.cfgRefused_keeps {u0 : State} (c)
    (h0 : Keeps m l t r u0) :
    Keeps m l t r (State.cfgRefused u0 c) := by
  unfold State.cfgRefused
  try dsimp only
  repeat' first | with_reducible assumption | with_reducible apply State.modCluster_keeps | simp only [↓keeps_mk] | intro _ | dsimp only

theorem flipWriteEffect_keeps (c) (which) (v) (who) {u4 : State}
    (h4 : Keeps m l t r u4) :
    Keeps m l t r (flipWriteEffect c which v who u4) := by
  unfold flipWriteEffect
  try dsimp only
  repeat' first
      | with_reducible assumption | with_reducible apply State.cfgRefused_keeps | with_reducible apply State.modCluster_keeps
      | simp only [↓keeps_mk] | with_reducible apply keeps_ite | intro _ | split | dsimp only

theorem circWriteEffect_keeps (c) (a1) (which) (v) (who) {u5 : State}
    (h5 : Keeps m l t r u5) :
    Keeps m l t r (circWriteEffect c a1 which v who u5) := by
  unfold circWriteEffect
  try dsimp only
  repeat' first
      | with_reducible assumption | with_reducible apply State.cfgRefused_keeps | with_reducible apply State.modCirc_keeps
      | simp only [↓keeps_mk] | with_reducible apply keeps_ite | intro _ | split | dsimp only

theorem resWriteEffect_keeps (c) (n) (which) (v) (who) {u5 : State}
    (h5 : Keeps m l t r u5) :
    Keeps m l t r (resWriteEffect c n which v who u5) := by
  unfold resWriteEffect
  try dsimp only
  repeat' first
      | with_reducible assumption | with_reducible apply State.cfgRefused_keeps | with_reducible apply State.modCluster_keeps
      | simp only [↓keeps_mk] | with_reducible apply keeps_ite | intro _ | split | dsimp only

theorem State.settle_keeps {u0 : State} (c)
    (h0 : Keeps m l t r u0) :
    Keeps m l t r (State.settle u0 c) := by
  unfold State.settle
  try dsimp only
  repeat' first | with_reducible assumption | with_reducible apply State.settleBefore_keeps | intro _ | dsimp only

theorem State.setSetting_keeps {u0 : State} (index) (sub) (v)
    (h0 : Keeps m l t r u0) :
    Keeps m l t r (State.setSetting u0 index sub v) := by
  unfold State.setSetting
  try dsimp only
  repeat' first
      | with_reducible assumption | simp only [↓keeps_mk, ↓keeps_mk_trust, ↓keeps_mk_lease, ↓keeps_mk_map, ↓keeps_mk_lease0]
      | with_reducible apply keeps_ite | with_reducible apply keeps_foldl | intro _ | with_reducible apply keeps_foldl_snd | split
      | dsimp only

theorem State.modWake_keeps {u0 : State} (p) (f)
    (h0 : Keeps m l t r u0) :
    Keeps m l t r (State.modWake u0 p f) := by
  unfold State.modWake
  try dsimp only
  repeat' first
      | with_reducible assumption | simp only [↓keeps_mk, ↓keeps_mk_trust, ↓keeps_mk_lease, ↓keeps_mk_map, ↓keeps_mk_lease0]
      | with_reducible apply keeps_ite | with_reducible apply keeps_foldl | intro _ | with_reducible apply keeps_foldl_snd | split
      | dsimp only

theorem State.wakeUp_keeps {u0 : State} (p)
    (h0 : Keeps m l t r u0) :
    Keeps m l t r (State.wakeUp u0 p) := by
  unfold State.wakeUp
  try dsimp only
  repeat' first
      | with_reducible assumption | with_reducible apply State.modWake_keeps | simp only [↓keeps_mk] | with_reducible apply keeps_ite
      | intro _ | split | dsimp only

theorem State.modUep_keeps {u0 : State} (stack) (p) (f)
    (h0 : Keeps m l t r u0) :
    Keeps m l t r (State.modUep u0 stack p f) := by
  unfold State.modUep
  try dsimp only
  repeat' first
      | with_reducible assumption | simp only [↓keeps_mk, ↓keeps_mk_trust, ↓keeps_mk_lease, ↓keeps_mk_map, ↓keeps_mk_lease0]
      | with_reducible apply keeps_ite | with_reducible apply keeps_foldl | intro _ | with_reducible apply keeps_foldl_snd | split
      | dsimp only

theorem State.setUeFlags_keeps {u0 : State} (stack) (b)
    (h0 : Keeps m l t r u0) :
    Keeps m l t r (State.setUeFlags u0 stack b) := by
  unfold State.setUeFlags
  try dsimp only
  repeat' first | with_reducible assumption | with_reducible apply State.modStack_keeps | simp only [↓keeps_mk] | intro _ | dsimp only

theorem State.nvCut_keeps {u0 : State} (ty) (a2)
    (h0 : Keeps m l t r u0) :
    Keeps m l t r (State.nvCut u0 ty a2) := by
  unfold State.nvCut
  try dsimp only
  repeat' first | with_reducible assumption | simp only [↓keeps_mk] | intro _ | dsimp only

theorem State.raiseStopAll_keeps {u0 : State} (why)
    (h0 : Keeps m l t r u0) :
    Keeps m l t r (State.raiseStopAll u0 why) := by
  unfold State.raiseStopAll
  try dsimp only
  repeat' first
      | with_reducible assumption | with_reducible apply State.raiseStop_keeps | with_reducible apply keeps_foldl | intro _
      | with_reducible apply keeps_foldl_snd | dsimp only

theorem State.atPart_keeps {u0 : State} (p) (pc)
    (h0 : Keeps m l t r u0) :
    Keeps m l t r (State.atPart u0 p pc) := by
  unfold State.atPart
  try dsimp only
  repeat' first
      | with_reducible assumption | with_reducible apply State.advance_keeps | with_reducible apply keeps_ite | intro _ | split
      | dsimp only

theorem State.toCycle_keeps {u0 : State} (c) (pc)
    (h0 : Keeps m l t r u0) :
    Keeps m l t r (State.toCycle u0 c pc) := by
  unfold State.toCycle
  try dsimp only
  repeat' first
      | with_reducible assumption | with_reducible apply State.settle_keeps | with_reducible apply State.atPart_keeps
      | simp only [↓keeps_mk] | intro _ | dsimp only

theorem State.raiseHold_keeps {u0 : State} (c)
    (h0 : Keeps m l t r u0) :
    Keeps m l t r (State.raiseHold u0 c) := by
  unfold State.raiseHold
  try dsimp only
  repeat' first
      | with_reducible assumption | with_reducible apply State.modCluster_keeps | with_reducible apply State.modPart_keeps
      | simp only [↓keeps_mk] | with_reducible apply keeps_ite | intro _ | split | dsimp only

theorem State.modOp_keeps {u0 : State} (c) (p) (f)
    (h0 : Keeps m l t r u0) :
    Keeps m l t r (State.modOp u0 c p f) := by
  unfold State.modOp
  try dsimp only
  repeat' first | with_reducible assumption | with_reducible apply State.modCluster_keeps | simp only [↓keeps_mk] | intro _ | dsimp only

theorem State.mismatch_keeps {u0 : State} (c) (a2)
    (h0 : Keeps m l t r u0) :
    Keeps m l t r (State.mismatch u0 c a2) := by
  unfold State.mismatch
  try dsimp only
  repeat' first
      | with_reducible assumption | with_reducible apply State.modCluster_keeps | with_reducible apply State.count_keeps
      | with_reducible apply State.elementEvent_keeps | simp only [↓keeps_mk] | with_reducible apply keeps_ite | intro _ | split
      | dsimp only

theorem reductionVerdictEffect_keeps (c) (mm) {u2 : State}
    (h2 : Keeps m l t r u2) :
    Keeps m l t r (reductionVerdictEffect c mm u2) := by
  unfold reductionVerdictEffect
  try dsimp only
  repeat' first
      | with_reducible assumption | with_reducible apply State.toCycle_keeps | with_reducible apply State.raiseHold_keeps
      | with_reducible apply State.modOp_keeps | with_reducible apply State.mismatch_keeps | simp only [↓keeps_mk]
      | with_reducible apply keeps_ite | intro _ | split | dsimp only

theorem State.dropOp_keeps {u0 : State} (c) (p)
    (h0 : Keeps m l t r u0) :
    Keeps m l t r (State.dropOp u0 c p) := by
  unfold State.dropOp
  try dsimp only
  repeat' first | with_reducible assumption | with_reducible apply State.modCluster_keeps | simp only [↓keeps_mk] | intro _ | dsimp only

theorem State.putByte_keeps {u0 : State} (c) (w) (i) (b)
    (h0 : Keeps m l t r u0) :
    Keeps m l t r (State.putByte u0 c w i b) := by
  unfold State.putByte
  exact h0.memOf fun x => ⟨x.1, Memory.writeList_wf _ _ _ (Memory.writeList_wf _ _ _ x.2.1), x.2.2⟩

theorem State.putByteCoded_keeps {u0 : State} (c) (w) (v)
    (h0 : Keeps m l t r u0) :
    Keeps m l t r (State.putByteCoded u0 c w v) := by
  unfold State.putByteCoded
  exact keeps_foldl h0 (fun _ _ h => State.putByte_keeps _ _ _ _ h)

theorem State.tryPhase_keeps {u0 : State} (o) (why)
    (h0 : Keeps m l t r u0) :
    Keeps m l t r (State.tryPhase u0 o why) := by
  unfold State.tryPhase
  try dsimp only
  repeat' first
      | with_reducible assumption | with_reducible apply State.modSync_keeps | simp only [↓keeps_mk] | with_reducible apply keeps_ite
      | intro _ | split | dsimp only

theorem State.arrive_keeps {u0 : State} (o) (fromSeq) (why)
    (h0 : Keeps m l t r u0) :
    Keeps m l t r (State.arrive u0 o fromSeq why) := by
  unfold State.arrive
  try dsimp only
  repeat' first
      | with_reducible assumption | with_reducible apply State.clusterFault_keeps | with_reducible apply State.tryPhase_keeps
      | with_reducible apply State.modSync_keeps | simp only [↓keeps_mk] | with_reducible apply keeps_ite | intro _ | split | dsimp only

theorem State.advancePc_keeps {u0 : State} (c) (d)
    (h0 : Keeps m l t r u0) :
    Keeps m l t r (State.advancePc u0 c d) := by
  unfold State.advancePc
  try dsimp only
  repeat' first
      | with_reducible assumption | with_reducible apply State.modCluster_keeps | with_reducible apply State.clusterFaultIn_keeps
      | simp only [↓keeps_mk] | with_reducible apply keeps_ite | intro _ | split | dsimp only

theorem State.finishIssue_keeps {u0 : State} (c) (d)
    (h0 : Keeps m l t r u0) :
    Keeps m l t r (State.finishIssue u0 c d) := by
  unfold State.finishIssue
  try dsimp only
  repeat' first
      | with_reducible assumption | with_reducible apply State.arrive_keeps | with_reducible apply State.advancePc_keeps
      | with_reducible apply keeps_ite | intro _ | split | dsimp only

theorem State.beginIssue_keeps {u0 : State} (c)
    (h0 : Keeps m l t r u0) :
    Keeps m l t r (State.beginIssue u0 c) := by
  unfold State.beginIssue
  try dsimp only
  repeat' first | with_reducible assumption | with_reducible apply State.modCluster_keeps | simp only [↓keeps_mk] | intro _ | dsimp only

theorem State.issueNow_keeps {u0 : State} (c) (d) (effect)
    (h0 : Keeps m l t r u0) (h3 : ∀ x0 x1, Keeps m l t r x1 → Keeps m l t r (effect x0 x1)) :
    Keeps m l t r (State.issueNow u0 c d effect) := by
  unfold State.issueNow
  try dsimp only
  repeat' first
      | with_reducible assumption | with_reducible apply h3 | with_reducible apply State.clusterFault_keeps
      | with_reducible apply State.finishIssue_keeps | with_reducible apply State.beginIssue_keeps | with_reducible apply keeps_ite
      | intro _ | split | dsimp only

theorem State.issue_keeps {u0 : State} (c) (mine) (effect)
    (h0 : Keeps m l t r u0) (h3 : ∀ x0 x1, Keeps m l t r x1 → Keeps m l t r (effect x0 x1)) :
    Keeps m l t r (State.issue u0 c mine effect) := by
  unfold State.issue
  try dsimp only
  repeat' first
      | with_reducible assumption | with_reducible apply h3 | with_reducible apply State.settle_keeps
      | with_reducible apply State.clusterFault_keeps | with_reducible apply State.modCluster_keeps
      | with_reducible apply State.toCycle_keeps | with_reducible apply State.issueNow_keeps | simp only [↓keeps_mk]
      | with_reducible apply keeps_ite | intro _ | split | dsimp only

theorem State.checkEnd_keeps {u0 : State} (c)
    (h0 : Keeps m l t r u0) :
    Keeps m l t r (State.checkEnd u0 c) := by
  unfold State.checkEnd
  try dsimp only
  repeat' first
      | with_reducible assumption | with_reducible apply State.modCluster_keeps | simp only [↓keeps_mk] | with_reducible apply keeps_ite
      | intro _ | split | dsimp only

theorem State.haltCtx_keeps {u0 : State} (c) (k) (cause)
    (h0 : Keeps m l t r u0) :
    Keeps m l t r (State.haltCtx u0 c k cause) := by
  unfold State.haltCtx
  try dsimp only
  repeat' first
      | with_reducible assumption | with_reducible apply State.modCtx_keeps | with_reducible apply State.log_keeps
      | with_reducible apply State.clusterFault_keeps | simp only [↓keeps_mk] | with_reducible apply keeps_ite | intro _ | split
      | dsimp only

theorem State.addPend_keeps {u0 : State} (c) (k) (w)
    (h0 : Keeps m l t r u0) :
    Keeps m l t r (State.addPend u0 c k w) := by
  unfold State.addPend
  try dsimp only
  repeat' first
      | with_reducible assumption | with_reducible apply State.haltCtx_keeps | with_reducible apply State.modCtx_keeps
      | simp only [↓keeps_mk] | with_reducible apply keeps_ite | intro _ | split | dsimp only

theorem State.wake_keeps {u0 : State} (c) (why)
    (h0 : Keeps m l t r u0) :
    Keeps m l t r (State.wake u0 c why) := by
  unfold State.wake
  try dsimp only
  repeat' first
      | with_reducible assumption | with_reducible apply State.modCluster_keeps | with_reducible apply State.endWait_keeps
      | simp only [↓keeps_mk] | intro _ | dsimp only

theorem State.retest_keeps {u0 : State} (c) (obj) (ctx) (why)
    (h0 : Keeps m l t r u0) :
    Keeps m l t r (State.retest u0 c obj ctx why) := by
  unfold State.retest
  try dsimp only
  repeat' first
      | with_reducible assumption | with_reducible apply State.wake_keeps | simp only [↓keeps_mk] | with_reducible apply keeps_ite
      | intro _ | split | dsimp only

theorem State.deliverPhase_keeps {u0 : State} (c) (obj) (why)
    (h0 : Keeps m l t r u0) :
    Keeps m l t r (State.deliverPhase u0 c obj why) := by
  unfold State.deliverPhase
  try dsimp only
  repeat' first
      | with_reducible assumption | with_reducible apply State.modSync_keeps | with_reducible apply State.addPend_keeps
      | with_reducible apply State.retest_keeps | simp only [↓keeps_mk] | with_reducible apply keeps_ite
      | with_reducible apply keeps_foldl | intro _ | with_reducible apply keeps_foldl_snd | split | dsimp only

theorem zeroingCompleteEffect_keeps (c) {u1 : State}
    (h1 : Keeps m l t r u1) :
    Keeps m l t r (zeroingCompleteEffect c u1) := by
  unfold zeroingCompleteEffect
  try dsimp only
  repeat' first
      | with_reducible assumption | with_reducible apply State.atFab_keeps | with_reducible apply State.lightPorts_keeps
      | with_reducible apply State.modCluster_keeps | simp only [↓keeps_mk] | with_reducible apply keeps_ite | intro _ | split
      | dsimp only

theorem State.replayLimit_keeps {u0 : State} (c) (a2) (sel) (desc)
    (h0 : Keeps m l t r u0) :
    Keeps m l t r (State.replayLimit u0 c a2 sel desc) := by
  unfold State.replayLimit
  try dsimp only
  repeat' first
      | with_reducible assumption | with_reducible apply State.markElement_keeps | with_reducible apply State.clusterFault_keeps
      | with_reducible apply State.dropOp_keeps | with_reducible apply keeps_ite | intro _ | split | dsimp only

theorem State.submit_keeps {u0 : State} (c) (a2) (o)
    (h0 : Keeps m l t r u0) :
    Keeps m l t r (State.submit u0 c a2 o) := by
  unfold State.submit
  try dsimp only
  repeat' first
      | with_reducible assumption | with_reducible apply State.clusterFault_keeps | with_reducible apply State.modCluster_keeps
      | simp only [↓keeps_mk] | with_reducible apply keeps_ite | intro _ | split | dsimp only

theorem walkEffect_keeps (c) (a1) (d) {u3 : State}
    (h3 : Keeps m l t r u3) :
    Keeps m l t r (walkEffect c a1 d u3) := by
  unfold walkEffect
  try dsimp only
  repeat' first
      | with_reducible assumption | with_reducible apply State.modCluster_keeps | with_reducible apply State.submit_keeps
      | simp only [↓keeps_mk] | intro _ | dsimp only

theorem State.replayAgain_keeps {u0 : State} (c)
    (h0 : Keeps m l t r u0) :
    Keeps m l t r (State.replayAgain u0 c) := by
  unfold State.replayAgain
  try dsimp only
  repeat' first | with_reducible assumption | with_reducible apply State.modCluster_keeps | simp only [↓keeps_mk] | intro _ | dsimp only

theorem State.setGen_keeps {u0 : State} (c) (k) (v)
    (h0 : Keeps m l t r u0) :
    Keeps m l t r (State.setGen u0 c k v) := by
  unfold State.setGen
  try dsimp only
  repeat' first | with_reducible assumption | with_reducible apply State.modCtx_keeps | simp only [↓keeps_mk] | intro _ | dsimp only

theorem State.thawGens_keeps {u0 : State} (c)
    (h0 : Keeps m l t r u0) :
    Keeps m l t r (State.thawGens u0 c) := by
  unfold State.thawGens
  try dsimp only
  repeat' first
      | with_reducible assumption | with_reducible apply State.setGen_keeps | with_reducible apply State.modCluster_keeps
      | simp only [↓keeps_mk] | with_reducible apply keeps_foldl | intro _ | with_reducible apply keeps_foldl_snd | dsimp only

theorem State.setFlags_keeps {u0 : State} (c) (unit) (b)
    (h0 : Keeps m l t r u0) :
    Keeps m l t r (State.setFlags u0 c unit b) := by
  unfold State.setFlags
  try dsimp only
  repeat' first | with_reducible assumption | with_reducible apply State.modCluster_keeps | simp only [↓keeps_mk] | intro _ | dsimp only

theorem tileVerdictEffect_keeps (c) (a1) {u2 : State}
    (h2 : Keeps m l t r u2) :
    Keeps m l t r (tileVerdictEffect c a1 u2) := by
  unfold tileVerdictEffect
  try dsimp only
  repeat' first
      | with_reducible assumption | with_reducible apply State.toCycle_keeps | with_reducible apply State.clusterFault_keeps
      | with_reducible apply State.dropOp_keeps | with_reducible apply State.raiseHold_keeps | with_reducible apply State.modOp_keeps
      | with_reducible apply State.mismatch_keeps | with_reducible apply State.setFlags_keeps | simp only [↓keeps_mk]
      | with_reducible apply keeps_ite | intro _ | split | dsimp only

theorem State.tileGens_keeps {u0 : State} (c)
    (h0 : Keeps m l t r u0) :
    Keeps m l t r (State.tileGens u0 c) := by
  unfold State.tileGens
  try dsimp only
  repeat' first
      | with_reducible assumption | with_reducible apply State.modCluster_keeps | with_reducible apply State.setGen_keeps
      | simp only [↓keeps_mk] | with_reducible apply keeps_ite | with_reducible apply keeps_foldl | intro _
      | with_reducible apply keeps_foldl_snd | split | dsimp only

theorem holdDeliveredEffect_keeps (p) {u1 : State}
    (h1 : Keeps m l t r u1) :
    Keeps m l t r (holdDeliveredEffect p u1) := by
  unfold holdDeliveredEffect
  try dsimp only
  repeat' first
      | with_reducible assumption | with_reducible apply State.atFab_keeps | with_reducible apply State.overClusters_keeps
      | with_reducible apply State.settleBefore_keeps | with_reducible apply State.eachCluster_keeps
      | with_reducible apply State.tileGens_keeps | with_reducible apply State.modPart_keeps | with_reducible apply State.count_keeps
      | simp only [↓keeps_mk] | with_reducible apply keeps_ite | intro _ | split | dsimp only

theorem State.rewalk_keeps {u0 : State} (c) (x)
    (h0 : Keeps m l t r u0) :
    Keeps m l t r (State.rewalk u0 c x).2 := by
  unfold State.rewalk
  try dsimp only
  repeat' first
      | with_reducible assumption | with_reducible apply State.readWords_keeps | with_reducible apply keeps_ite | intro _ | split
      | dsimp only

theorem State.atTorus_keeps {u0 : State} (ns)
    (h0 : Keeps m l t r u0) :
    Keeps m l t r (State.atTorus u0 ns) := by
  unfold State.atTorus
  try dsimp only
  repeat' first
      | with_reducible assumption | with_reducible apply State.advance_keeps | with_reducible apply keeps_ite | intro _ | split
      | dsimp only

theorem streamEffect_keeps (c) (a1) (d) {u3 : State}
    (h3 : Keeps m l t r u3) :
    Keeps m l t r (streamEffect c a1 d u3) := by
  unfold streamEffect
  try dsimp only
  repeat' first | with_reducible assumption | with_reducible apply State.submit_keeps | intro _ | dsimp only

theorem State.asOfPair_keeps {α : Type} {u1 : State} (fab) (f : State → α × State)
    (h1 : Keeps m l t r u1) (h3 : ∀ x0, Keeps m l t r x0 → Keeps m l t r (f x0).2) :
    Keeps m l t r (State.asOfPair u1 fab f).2 := by
  exact (h3 _ (keeps_mk.2 h1)).upd

theorem State.replayTile_keeps {u0 : State} (c) (o) (kept) (poison)
    (h0 : Keeps m l t r u0) :
    Keeps m l t r (State.replayTile u0 c o kept poison).2 := by
  unfold State.replayTile
  try dsimp only
  repeat' first
      | with_reducible assumption | with_reducible apply State.readWords_keeps | simp only [↓keeps_mk] | with_reducible apply keeps_ite
      | with_reducible apply keeps_foldl | intro _ | with_reducible apply keeps_foldl_snd | split | dsimp only

theorem State.replayMatched_keeps {u0 : State} (c) (p)
    (h0 : Keeps m l t r u0) :
    Keeps m l t r (State.replayMatched u0 c p) := by
  unfold State.replayMatched
  try dsimp only
  repeat' first
      | with_reducible assumption | with_reducible apply State.modCluster_keeps | with_reducible apply State.tileGens_keeps
      | with_reducible apply State.modPart_keeps | simp only [↓keeps_mk] | with_reducible apply keeps_ite | intro _ | split | dsimp only

theorem replayTileEffect_keeps (c) (p) (a2) (o) {u4 : State}
    (h4 : Keeps m l t r u4) :
    Keeps m l t r (replayTileEffect c p a2 o u4) := by
  unfold replayTileEffect
  lift_lets
  extract_lets freeze x rewalked y s1
  have hx : Keeps m l t r x.2 := by
    dsimp only [x]
    split
    · exact h4
    · exact State.asOfPair_keeps _ _ h4 (fun _ h => State.rewalk_keeps _ _ h)
  have hy : Keeps m l t r y.2 := State.asOfPair_keeps _ _ hx (fun _ h => State.replayTile_keeps _ _ _ _ h)
  have h1 : Keeps m l t r s1 := State.count_keeps _ _ (State.atFab_keeps _ hy)
  refine keeps_ite (fun _ => State.clusterFault_keeps _ _ _ (State.dropOp_keeps _ _ hx)) (fun _ => ?_)
  split
  · exact keeps_ite (fun _ => State.replayLimit_keeps _ _ _ _ (State.mismatch_keeps _ _ h1))
      (fun _ => State.replayAgain_keeps _ (State.modOp_keeps _ _ _ (State.mismatch_keeps _ _ h1)))
  · exact State.replayMatched_keeps _ _ (State.modOp_keeps _ _ _ (State.setFlags_keeps _ _ _ h1))

theorem replayGroupEffect_keeps (c) (p) (a2) (o) (g) {u5 : State}
    (h5 : Keeps m l t r u5) :
    Keeps m l t r (replayGroupEffect c p a2 o g u5) := by
  unfold replayGroupEffect
  try dsimp only
  repeat' first
      | with_reducible assumption | with_reducible apply State.count_keeps | with_reducible apply State.atFab_keeps
      | with_reducible apply State.mismatch_keeps | with_reducible apply State.replayLimit_keeps
      | with_reducible apply State.replayAgain_keeps | with_reducible apply State.modOp_keeps
      | with_reducible apply State.replayMatched_keeps | simp only [↓keeps_mk] | with_reducible apply keeps_ite | intro _ | split
      | dsimp only

theorem replayVerdictEffect_keeps (c) (a1) {u2 : State}
    (h2 : Keeps m l t r u2) :
    Keeps m l t r (replayVerdictEffect c a1 u2) := by
  unfold replayVerdictEffect
  try dsimp only
  repeat' first
      | with_reducible assumption | with_reducible apply replayTileEffect_keeps | with_reducible apply replayGroupEffect_keeps
      | simp only [↓keeps_mk] | with_reducible apply keeps_ite | intro _ | split | dsimp only

theorem holdReleaseEffect_keeps (p) {u1 : State}
    (h1 : Keeps m l t r u1) :
    Keeps m l t r (holdReleaseEffect p u1) := by
  unfold holdReleaseEffect
  try dsimp only
  repeat' first
      | with_reducible assumption | with_reducible apply State.atFab_keeps | with_reducible apply State.eachCluster_keeps
      | with_reducible apply State.overClusters_keeps | with_reducible apply State.thawGens_keeps
      | with_reducible apply State.modPart_keeps | simp only [↓keeps_mk] | with_reducible apply keeps_ite | intro _ | split | dsimp only

theorem State.sendLast_keeps {u0 : State} (c) (o)
    (h0 : Keeps m l t r u0) :
    Keeps m l t r (State.sendLast u0 c o) := by
  unfold State.sendLast
  try dsimp only
  repeat' first
      | with_reducible assumption | with_reducible apply State.arrive_keeps | with_reducible apply State.atPart_keeps
      | simp only [↓keeps_mk] | with_reducible apply keeps_ite | intro _ | split | dsimp only

theorem tileWritebackEffect_keeps (c) {u1 : State}
    (h1 : Keeps m l t r u1) :
    Keeps m l t r (tileWritebackEffect c u1) := by
  unfold tileWritebackEffect
  try dsimp only
  repeat' first
      | with_reducible assumption | with_reducible apply State.toCycle_keeps | with_reducible apply State.checkEnd_keeps
      | with_reducible apply State.sendLast_keeps | with_reducible apply State.dropOp_keeps | simp only [↓keeps_mk]
      | with_reducible apply keeps_ite | intro _ | split | dsimp only

theorem State.finishOp_keeps {u0 : State} (c) (unit) (o)
    (h0 : Keeps m l t r u0) :
    Keeps m l t r (State.finishOp u0 c unit o) := by
  unfold State.finishOp
  try dsimp only
  repeat' first
      | with_reducible assumption | with_reducible apply State.checkEnd_keeps | with_reducible apply State.sendLast_keeps
      | with_reducible apply State.setFlags_keeps | with_reducible apply State.dropOp_keeps | intro _ | dsimp only

theorem State.groupArrive_keeps {u0 : State} (g) (at_) (payload)
    (h0 : Keeps m l t r u0) :
    Keeps m l t r (State.groupArrive u0 g at_ payload) := by
  unfold State.groupArrive
  try dsimp only
  repeat' first
      | with_reducible assumption | with_reducible apply State.modGroup_keeps | simp only [↓keeps_mk] | with_reducible apply keeps_ite
      | intro _ | split | dsimp only

theorem State.readIndex_keeps {u0 : State} (c) (w) (k)
    (h0 : Keeps m l t r u0) :
    Keeps m l t r (State.readIndex u0 c w k).2 := by
  unfold State.readIndex
  try dsimp only
  repeat' first | with_reducible assumption | with_reducible apply State.readWords_keeps | intro _ | dsimp only

theorem quantEffect_keeps (c) (a1) (d) {u3 : State}
    (h3 : Keeps m l t r u3) :
    Keeps m l t r (quantEffect c a1 d u3) := by
  unfold quantEffect
  try dsimp only
  repeat' first
      | with_reducible assumption | with_reducible apply State.setGen_keeps | with_reducible apply State.submit_keeps
      | simp only [↓keeps_mk] | intro _ | dsimp only

theorem State.modExp_keeps {u0 : State} (stack) (p) (f)
    (h0 : Keeps m l t r u0) :
    Keeps m l t r (State.modExp u0 stack p f) := by
  unfold State.modExp
  try dsimp only
  repeat' first
      | with_reducible assumption | simp only [↓keeps_mk, ↓keeps_mk_trust, ↓keeps_mk_lease, ↓keeps_mk_map, ↓keeps_mk_lease0]
      | with_reducible apply keeps_ite | with_reducible apply keeps_foldl | intro _ | with_reducible apply keeps_foldl_snd | split
      | dsimp only

theorem State.modSrvPort_keeps {u0 : State} (k) (f)
    (h0 : Keeps m l t r u0) :
    Keeps m l t r (State.modSrvPort u0 k f) := by
  unfold State.modSrvPort
  try dsimp only
  repeat' first
      | with_reducible assumption | simp only [↓keeps_mk, ↓keeps_mk_trust, ↓keeps_mk_lease, ↓keeps_mk_map, ↓keeps_mk_lease0]
      | with_reducible apply keeps_ite | with_reducible apply keeps_foldl | intro _ | with_reducible apply keeps_foldl_snd | split
      | dsimp only

theorem sparseEffect_keeps (c) (a1) (d) {u3 : State}
    (h3 : Keeps m l t r u3) :
    Keeps m l t r (sparseEffect c a1 d u3) := by
  unfold sparseEffect
  try dsimp only
  repeat' first
      | with_reducible assumption | with_reducible apply State.clusterFault_keeps | with_reducible apply State.readIndex_keeps
      | with_reducible apply State.submit_keeps | simp only [↓keeps_mk] | with_reducible apply keeps_ite | intro _ | split | dsimp only

theorem State.writeWords_keeps {u0 : State} (c) (w) (vs)
    (h0 : Keeps m l t r u0) :
    Keeps m l t r (State.writeWords u0 c w vs) := by
  induction vs generalizing w u0 with
  | nil => exact h0
  | cons v vs ih => exact ih _ (State.writeWord_keeps _ _ _ h0)

theorem State.circWrite_keeps {u0 : State} (c) (a2) (vs)
    (h0 : Keeps m l t r u0) :
    Keeps m l t r (State.circWrite u0 c a2 vs) := by
  unfold State.circWrite
  try dsimp only
  repeat' first
      | with_reducible assumption | with_reducible apply State.headPast_keeps | with_reducible apply State.writeCycle_keeps | intro _
      | dsimp only

theorem State.guardedBy_keeps {u0 : State} (w) {u2 : State}
    (h0 : Keeps m l t r u0) (h2 : Keeps m l t r u2) :
    Keeps m l t r (State.guardedBy u0 w u2) := by
  unfold State.guardedBy
  try dsimp only
  repeat' first
      | with_reducible assumption | with_reducible apply State.guarded_keeps | simp only [↓keeps_mk] | with_reducible apply keeps_ite
      | intro _ | split | dsimp only

theorem engineLastEffect_keeps (c) (unit) {u2 : State}
    (h2 : Keeps m l t r u2) :
    Keeps m l t r (engineLastEffect c unit u2) := by
  unfold engineLastEffect
  try dsimp only
  repeat' first
      | with_reducible assumption | with_reducible apply State.toCycle_keeps | with_reducible apply State.finishOp_keeps
      | simp only [↓keeps_mk] | with_reducible apply keeps_ite | intro _ | split | dsimp only

theorem denseEffect_keeps (c) (a1) (d) {u3 : State}
    (h3 : Keeps m l t r u3) :
    Keeps m l t r (denseEffect c a1 d u3) := by
  unfold denseEffect
  try dsimp only
  repeat' first | with_reducible assumption | with_reducible apply State.submit_keeps | intro _ | dsimp only

theorem execTileWriteback_keeps (a0) {u1 : State} (h0 : Keeps m l t r u1) {v : State} (h : execTileWriteback a0 u1 = .next v) : Keeps m l t r v := by
  unfold execTileWriteback at h
  try unfold onCluster at h
  try unfold onNumber at h
  try dsimp only at h
  repeat' split at h
  all_goals first | (simp only [Host.Outcome.next.injEq] at h; subst h) | cases h | skip
  all_goals repeat' first | with_reducible assumption | with_reducible apply tileWritebackEffect_keeps | intro _ | dsimp only

theorem execSqrt_keeps (a0) (a1) {u2 : State} (h0 : Keeps m l t r u2) {v : State} (h : execSqrt a0 a1 u2 = .next v) : Keeps m l t r v := by
  unfold execSqrt at h
  try unfold streamIssue at h
  try unfold onCluster at h
  try unfold onNumber at h
  try dsimp only at h
  repeat' split at h
  all_goals first | (simp only [Host.Outcome.next.injEq] at h; subst h) | cases h | skip
  all_goals repeat' first
      | with_reducible assumption | with_reducible apply State.issue_keeps | with_reducible apply streamEffect_keeps | intro _
      | dsimp only

theorem execQuant_keeps (a0) (a1) {u2 : State} (h0 : Keeps m l t r u2) {v : State} (h : execQuant a0 a1 u2 = .next v) : Keeps m l t r v := by
  unfold execQuant at h
  try unfold onCluster at h
  try unfold onNumber at h
  try dsimp only at h
  repeat' split at h
  all_goals first | (simp only [Host.Outcome.next.injEq] at h; subst h) | cases h | skip
  all_goals repeat' first
      | with_reducible assumption | with_reducible apply State.issue_keeps | with_reducible apply quantEffect_keeps | intro _
      | dsimp only

theorem execReductionVerdict_keeps (a0) (a1) {u2 : State} (h0 : Keeps m l t r u2) {v : State} (h : execReductionVerdict a0 a1 u2 = .next v) : Keeps m l t r v := by
  unfold execReductionVerdict at h
  try unfold onCluster at h
  try unfold onNumber at h
  try dsimp only at h
  repeat' split at h
  all_goals first | (simp only [Host.Outcome.next.injEq] at h; subst h) | cases h | skip
  all_goals repeat' first | with_reducible assumption | with_reducible apply reductionVerdictEffect_keeps | intro _ | dsimp only

theorem execHoldReleaseDelivered_keeps (a0) {u1 : State} (h0 : Keeps m l t r u1) {v : State} (h : execHoldReleaseDelivered a0 u1 = .next v) : Keeps m l t r v := by
  unfold execHoldReleaseDelivered at h
  try unfold onPartition at h
  try unfold onNumber at h
  try dsimp only at h
  repeat' split at h
  all_goals first | (simp only [Host.Outcome.next.injEq] at h; subst h) | cases h | skip
  all_goals repeat' first | with_reducible assumption | with_reducible apply holdReleaseEffect_keeps | intro _ | dsimp only

theorem execSub_keeps (a0) (a1) {u2 : State} (h0 : Keeps m l t r u2) {v : State} (h : execSub a0 a1 u2 = .next v) : Keeps m l t r v := by
  unfold execSub at h
  try unfold streamIssue at h
  try unfold onCluster at h
  try unfold onNumber at h
  try dsimp only at h
  repeat' split at h
  all_goals first | (simp only [Host.Outcome.next.injEq] at h; subst h) | cases h | skip
  all_goals repeat' first
      | with_reducible assumption | with_reducible apply State.issue_keeps | with_reducible apply streamEffect_keeps | intro _
      | dsimp only

theorem execRowmax_keeps (a0) (a1) {u2 : State} (h0 : Keeps m l t r u2) {v : State} (h : execRowmax a0 a1 u2 = .next v) : Keeps m l t r v := by
  unfold execRowmax at h
  try unfold streamIssue at h
  try unfold onCluster at h
  try unfold onNumber at h
  try dsimp only at h
  repeat' split at h
  all_goals first | (simp only [Host.Outcome.next.injEq] at h; subst h) | cases h | skip
  all_goals repeat' first
      | with_reducible assumption | with_reducible apply State.issue_keeps | with_reducible apply streamEffect_keeps | intro _
      | dsimp only

theorem execTileVerdict_keeps (a0) (a1) {u2 : State} (h0 : Keeps m l t r u2) {v : State} (h : execTileVerdict a0 a1 u2 = .next v) : Keeps m l t r v := by
  unfold execTileVerdict at h
  try unfold onCluster at h
  try unfold onNumber at h
  try dsimp only at h
  repeat' split at h
  all_goals first | (simp only [Host.Outcome.next.injEq] at h; subst h) | cases h | skip
  all_goals repeat' first | with_reducible assumption | with_reducible apply tileVerdictEffect_keeps | intro _ | dsimp only

theorem execCvt_keeps (a0) (a1) {u2 : State} (h0 : Keeps m l t r u2) {v : State} (h : execCvt a0 a1 u2 = .next v) : Keeps m l t r v := by
  unfold execCvt at h
  try unfold streamIssue at h
  try unfold onCluster at h
  try unfold onNumber at h
  try dsimp only at h
  repeat' split at h
  all_goals first | (simp only [Host.Outcome.next.injEq] at h; subst h) | cases h | skip
  all_goals repeat' first
      | with_reducible assumption | with_reducible apply State.issue_keeps | with_reducible apply streamEffect_keeps | intro _
      | dsimp only

theorem execSumsq_keeps (a0) (a1) {u2 : State} (h0 : Keeps m l t r u2) {v : State} (h : execSumsq a0 a1 u2 = .next v) : Keeps m l t r v := by
  unfold execSumsq at h
  try unfold streamIssue at h
  try unfold onCluster at h
  try unfold onNumber at h
  try dsimp only at h
  repeat' split at h
  all_goals first | (simp only [Host.Outcome.next.injEq] at h; subst h) | cases h | skip
  all_goals repeat' first
      | with_reducible assumption | with_reducible apply State.issue_keeps | with_reducible apply streamEffect_keeps | intro _
      | dsimp only

theorem execRedAcc_keeps (a0) (a1) {u2 : State} (h0 : Keeps m l t r u2) {v : State} (h : execRedAcc a0 a1 u2 = .next v) : Keeps m l t r v := by
  unfold execRedAcc at h
  try unfold streamIssue at h
  try unfold onCluster at h
  try unfold onNumber at h
  try dsimp only at h
  repeat' split at h
  all_goals first | (simp only [Host.Outcome.next.injEq] at h; subst h) | cases h | skip
  all_goals repeat' first
      | with_reducible assumption | with_reducible apply State.issue_keeps | with_reducible apply streamEffect_keeps | intro _
      | dsimp only

theorem execStepMark_keeps (a0) {u1 : State} (h0 : Keeps m l t r u1) {v : State} (h : execStepMark a0 u1 = .next v) : Keeps m l t r v := by
  unfold execStepMark at h
  try unfold onCluster at h
  try unfold onNumber at h
  try dsimp only at h
  repeat' split at h
  all_goals first | (simp only [Host.Outcome.next.injEq] at h; subst h) | cases h | skip
  all_goals repeat' first
      | with_reducible assumption | with_reducible apply State.modCluster_keeps | with_reducible apply State.issue_keeps
      | with_reducible apply State.setGen_keeps | simp only [↓keeps_mk] | with_reducible apply keeps_foldl | intro _
      | with_reducible apply keeps_foldl_snd | dsimp only

theorem execMul_keeps (a0) (a1) {u2 : State} (h0 : Keeps m l t r u2) {v : State} (h : execMul a0 a1 u2 = .next v) : Keeps m l t r v := by
  unfold execMul at h
  try unfold streamIssue at h
  try unfold onCluster at h
  try unfold onNumber at h
  try dsimp only at h
  repeat' split at h
  all_goals first | (simp only [Host.Outcome.next.injEq] at h; subst h) | cases h | skip
  all_goals repeat' first
      | with_reducible assumption | with_reducible apply State.issue_keeps | with_reducible apply streamEffect_keeps | intro _
      | dsimp only

theorem execMmz_keeps (a0) (a1) {u2 : State} (h0 : Keeps m l t r u2) {v : State} (h : execMmz a0 a1 u2 = .next v) : Keeps m l t r v := by
  unfold execMmz at h
  try unfold onCluster at h
  try unfold onNumber at h
  try dsimp only at h
  repeat' split at h
  all_goals first | (simp only [Host.Outcome.next.injEq] at h; subst h) | cases h | skip
  all_goals repeat' first
      | with_reducible assumption | with_reducible apply State.issue_keeps | with_reducible apply denseEffect_keeps | intro _
      | dsimp only

theorem execSwait_keeps (a0) {u1 : State} (h0 : Keeps m l t r u1) {v : State} (h : execSwait a0 u1 = .next v) : Keeps m l t r v := by
  unfold execSwait at h
  try unfold onCluster at h
  try unfold onNumber at h
  try dsimp only at h
  repeat' split at h
  all_goals first | (simp only [Host.Outcome.next.injEq] at h; subst h) | cases h | skip
  all_goals repeat' first | with_reducible assumption | with_reducible apply State.issue_keeps | intro _ | dsimp only

theorem execAmax_keeps (a0) (a1) {u2 : State} (h0 : Keeps m l t r u2) {v : State} (h : execAmax a0 a1 u2 = .next v) : Keeps m l t r v := by
  unfold execAmax at h
  try unfold streamIssue at h
  try unfold onCluster at h
  try unfold onNumber at h
  try dsimp only at h
  repeat' split at h
  all_goals first | (simp only [Host.Outcome.next.injEq] at h; subst h) | cases h | skip
  all_goals repeat' first
      | with_reducible assumption | with_reducible apply State.issue_keeps | with_reducible apply streamEffect_keeps | intro _
      | dsimp only

theorem execDiv_keeps (a0) (a1) {u2 : State} (h0 : Keeps m l t r u2) {v : State} (h : execDiv a0 a1 u2 = .next v) : Keeps m l t r v := by
  unfold execDiv at h
  try unfold streamIssue at h
  try unfold onCluster at h
  try unfold onNumber at h
  try dsimp only at h
  repeat' split at h
  all_goals first | (simp only [Host.Outcome.next.injEq] at h; subst h) | cases h | skip
  all_goals repeat' first
      | with_reducible assumption | with_reducible apply State.issue_keeps | with_reducible apply streamEffect_keeps | intro _
      | dsimp only

theorem execCmp_keeps (a0) (a1) {u2 : State} (h0 : Keeps m l t r u2) {v : State} (h : execCmp a0 a1 u2 = .next v) : Keeps m l t r v := by
  unfold execCmp at h
  try unfold streamIssue at h
  try unfold onCluster at h
  try unfold onNumber at h
  try dsimp only at h
  repeat' split at h
  all_goals first | (simp only [Host.Outcome.next.injEq] at h; subst h) | cases h | skip
  all_goals repeat' first
      | with_reducible assumption | with_reducible apply State.issue_keeps | with_reducible apply streamEffect_keeps | intro _
      | dsimp only

theorem execEndQuire_keeps (a0) {u1 : State} (h0 : Keeps m l t r u1) {v : State} (h : execEndQuire a0 u1 = .next v) : Keeps m l t r v := by
  unfold execEndQuire at h
  try unfold onCluster at h
  try unfold onNumber at h
  try dsimp only at h
  repeat' split at h
  all_goals first | (simp only [Host.Outcome.next.injEq] at h; subst h) | cases h | skip
  all_goals repeat' first
      | with_reducible assumption | with_reducible apply State.modCluster_keeps | with_reducible apply State.issue_keeps
      | with_reducible apply State.checkEnd_keeps | simp only [↓keeps_mk] | intro _ | dsimp only

theorem execFma_keeps (a0) (a1) {u2 : State} (h0 : Keeps m l t r u2) {v : State} (h : execFma a0 a1 u2 = .next v) : Keeps m l t r v := by
  unfold execFma at h
  try unfold streamIssue at h
  try unfold onCluster at h
  try unfold onNumber at h
  try dsimp only at h
  repeat' split at h
  all_goals first | (simp only [Host.Outcome.next.injEq] at h; subst h) | cases h | skip
  all_goals repeat' first
      | with_reducible assumption | with_reducible apply State.issue_keeps | with_reducible apply streamEffect_keeps | intro _
      | dsimp only

theorem execTanh_keeps (a0) (a1) {u2 : State} (h0 : Keeps m l t r u2) {v : State} (h : execTanh a0 a1 u2 = .next v) : Keeps m l t r v := by
  unfold execTanh at h
  try unfold streamIssue at h
  try unfold onCluster at h
  try unfold onNumber at h
  try dsimp only at h
  repeat' split at h
  all_goals first | (simp only [Host.Outcome.next.injEq] at h; subst h) | cases h | skip
  all_goals repeat' first
      | with_reducible assumption | with_reducible apply State.issue_keeps | with_reducible apply streamEffect_keeps | intro _
      | dsimp only

theorem execExp_keeps (a0) (a1) {u2 : State} (h0 : Keeps m l t r u2) {v : State} (h : execExp a0 a1 u2 = .next v) : Keeps m l t r v := by
  unfold execExp at h
  try unfold streamIssue at h
  try unfold onCluster at h
  try unfold onNumber at h
  try dsimp only at h
  repeat' split at h
  all_goals first | (simp only [Host.Outcome.next.injEq] at h; subst h) | cases h | skip
  all_goals repeat' first
      | with_reducible assumption | with_reducible apply State.issue_keeps | with_reducible apply streamEffect_keeps | intro _
      | dsimp only

theorem execSstart_keeps (a0) {u1 : State} (h0 : Keeps m l t r u1) {v : State} (h : execSstart a0 u1 = .next v) : Keeps m l t r v := by
  unfold execSstart at h
  try unfold onCluster at h
  try unfold onNumber at h
  try dsimp only at h
  repeat' split at h
  all_goals first | (simp only [Host.Outcome.next.injEq] at h; subst h) | cases h | skip
  all_goals repeat' first
      | with_reducible assumption | with_reducible apply State.issue_keeps | with_reducible apply State.addPend_keeps | intro _
      | dsimp only

theorem execFlipRegisterWrite_keeps (a0) (a1) (a2) (a3) {u4 : State} (h0 : Keeps m l t r u4) {v : State} (h : execFlipRegisterWrite a0 a1 a2 a3 u4 = .next v) : Keeps m l t r v := by
  unfold execFlipRegisterWrite at h
  try unfold onCluster at h
  try unfold onNumber at h
  try dsimp only at h
  repeat' split at h
  all_goals first | (simp only [Host.Outcome.next.injEq] at h; subst h) | cases h | skip
  all_goals repeat' first
      | with_reducible assumption | with_reducible apply flipWriteEffect_keeps | with_reducible apply State.guardedBy_keeps | intro _
      | dsimp only

theorem execCircRegisterWrite_keeps (a0) (a1) (a2) (a3) (a4) {u5 : State} (h0 : Keeps m l t r u5) {v : State} (h : execCircRegisterWrite a0 a1 a2 a3 a4 u5 = .next v) : Keeps m l t r v := by
  unfold execCircRegisterWrite at h
  try unfold onCluster at h
  try unfold onNumber at h
  try dsimp only at h
  repeat' split at h
  all_goals first | (simp only [Host.Outcome.next.injEq] at h; subst h) | cases h | skip
  all_goals repeat' first
      | with_reducible assumption | with_reducible apply circWriteEffect_keeps | with_reducible apply State.settle_keeps
      | with_reducible apply State.guardedBy_keeps | with_reducible apply keeps_ite | intro _ | split | dsimp only

theorem execMmaSp_keeps (a0) (a1) {u2 : State} (h0 : Keeps m l t r u2) {v : State} (h : execMmaSp a0 a1 u2 = .next v) : Keeps m l t r v := by
  unfold execMmaSp at h
  try unfold onCluster at h
  try unfold onNumber at h
  try dsimp only at h
  repeat' split at h
  all_goals first | (simp only [Host.Outcome.next.injEq] at h; subst h) | cases h | skip
  all_goals repeat' first
      | with_reducible assumption | with_reducible apply State.issue_keeps | with_reducible apply sparseEffect_keeps | intro _
      | dsimp only

theorem execNop_keeps (a0) {u1 : State} (h0 : Keeps m l t r u1) {v : State} (h : execNop a0 u1 = .next v) : Keeps m l t r v := by
  unfold execNop at h
  try unfold onCluster at h
  try unfold onNumber at h
  try dsimp only at h
  repeat' split at h
  all_goals first | (simp only [Host.Outcome.next.injEq] at h; subst h) | cases h | skip
  all_goals repeat' first | with_reducible assumption | with_reducible apply State.issue_keeps | intro _ | dsimp only

theorem execResRegisterWrite_keeps (a0) (a1) (a2) (a3) (a4) {u5 : State} (h0 : Keeps m l t r u5) {v : State} (h : execResRegisterWrite a0 a1 a2 a3 a4 u5 = .next v) : Keeps m l t r v := by
  unfold execResRegisterWrite at h
  try unfold onCluster at h
  try unfold onNumber at h
  try dsimp only at h
  repeat' split at h
  all_goals first | (simp only [Host.Outcome.next.injEq] at h; subst h) | cases h | skip
  all_goals repeat' first
      | with_reducible assumption | with_reducible apply resWriteEffect_keeps | with_reducible apply State.guardedBy_keeps
      | with_reducible apply keeps_ite | intro _ | split | dsimp only

theorem execHoldDelivered_keeps (a0) {u1 : State} (h0 : Keeps m l t r u1) {v : State} (h : execHoldDelivered a0 u1 = .next v) : Keeps m l t r v := by
  unfold execHoldDelivered at h
  try unfold onPartition at h
  try unfold onNumber at h
  try dsimp only at h
  repeat' split at h
  all_goals first | (simp only [Host.Outcome.next.injEq] at h; subst h) | cases h | skip
  all_goals repeat' first | with_reducible assumption | with_reducible apply holdDeliveredEffect_keeps | intro _ | dsimp only

theorem execSatcnt_keeps (a0) (a1) {u2 : State} (h0 : Keeps m l t r u2) {v : State} (h : execSatcnt a0 a1 u2 = .next v) : Keeps m l t r v := by
  unfold execSatcnt at h
  try unfold streamIssue at h
  try unfold onCluster at h
  try unfold onNumber at h
  try dsimp only at h
  repeat' split at h
  all_goals first | (simp only [Host.Outcome.next.injEq] at h; subst h) | cases h | skip
  all_goals repeat' first
      | with_reducible assumption | with_reducible apply State.issue_keeps | with_reducible apply streamEffect_keeps | intro _
      | dsimp only

theorem execRedAdd_keeps (a0) (a1) {u2 : State} (h0 : Keeps m l t r u2) {v : State} (h : execRedAdd a0 a1 u2 = .next v) : Keeps m l t r v := by
  unfold execRedAdd at h
  try unfold streamIssue at h
  try unfold onCluster at h
  try unfold onNumber at h
  try dsimp only at h
  repeat' split at h
  all_goals first | (simp only [Host.Outcome.next.injEq] at h; subst h) | cases h | skip
  all_goals repeat' first
      | with_reducible assumption | with_reducible apply State.issue_keeps | with_reducible apply streamEffect_keeps | intro _
      | dsimp only

theorem execLoopSet_keeps (a0) {u1 : State} (h0 : Keeps m l t r u1) {v : State} (h : execLoopSet a0 u1 = .next v) : Keeps m l t r v := by
  unfold execLoopSet at h
  try unfold onCluster at h
  try unfold onNumber at h
  try dsimp only at h
  repeat' split at h
  all_goals first | (simp only [Host.Outcome.next.injEq] at h; subst h) | cases h | skip
  all_goals repeat' first
      | with_reducible assumption | with_reducible apply State.modCluster_keeps | with_reducible apply State.issue_keeps
      | simp only [↓keeps_mk] | intro _ | dsimp only

theorem execLog_keeps (a0) (a1) {u2 : State} (h0 : Keeps m l t r u2) {v : State} (h : execLog a0 a1 u2 = .next v) : Keeps m l t r v := by
  unfold execLog at h
  try unfold streamIssue at h
  try unfold onCluster at h
  try unfold onNumber at h
  try dsimp only at h
  repeat' split at h
  all_goals first | (simp only [Host.Outcome.next.injEq] at h; subst h) | cases h | skip
  all_goals repeat' first
      | with_reducible assumption | with_reducible apply State.issue_keeps | with_reducible apply streamEffect_keeps | intro _
      | dsimp only

theorem execCoreMapWrite_keeps (a0) (a1) (a2) (a3) {u4 : State} (h0 : Keeps m l t r u4) {v : State} (h : execCoreMapWrite a0 a1 a2 a3 u4 = .next v) : Keeps m l t r v := by
  unfold execCoreMapWrite at h
  try unfold onCluster at h
  try unfold onNumber at h
  try dsimp only at h
  repeat' split at h
  all_goals first | (simp only [Host.Outcome.next.injEq] at h; subst h) | cases h | skip
  all_goals repeat' first
      | with_reducible assumption | with_reducible apply State.modCluster_keeps | with_reducible apply State.guardedBy_keeps
      | simp only [↓keeps_mk] | with_reducible apply keeps_ite | intro _ | split | dsimp only

theorem execArrive_keeps (a0) {u1 : State} (h0 : Keeps m l t r u1) {v : State} (h : execArrive a0 u1 = .next v) : Keeps m l t r v := by
  unfold execArrive at h
  try unfold onCluster at h
  try unfold onNumber at h
  try dsimp only at h
  repeat' split at h
  all_goals first | (simp only [Host.Outcome.next.injEq] at h; subst h) | cases h | skip
  all_goals repeat' first | with_reducible assumption | with_reducible apply State.issue_keeps | intro _ | dsimp only

theorem execRowsum_keeps (a0) (a1) {u2 : State} (h0 : Keeps m l t r u2) {v : State} (h : execRowsum a0 a1 u2 = .next v) : Keeps m l t r v := by
  unfold execRowsum at h
  try unfold streamIssue at h
  try unfold onCluster at h
  try unfold onNumber at h
  try dsimp only at h
  repeat' split at h
  all_goals first | (simp only [Host.Outcome.next.injEq] at h; subst h) | cases h | skip
  all_goals repeat' first
      | with_reducible assumption | with_reducible apply State.issue_keeps | with_reducible apply streamEffect_keeps | intro _
      | dsimp only

theorem execMin_keeps (a0) (a1) {u2 : State} (h0 : Keeps m l t r u2) {v : State} (h : execMin a0 a1 u2 = .next v) : Keeps m l t r v := by
  unfold execMin at h
  try unfold streamIssue at h
  try unfold onCluster at h
  try unfold onNumber at h
  try dsimp only at h
  repeat' split at h
  all_goals first | (simp only [Host.Outcome.next.injEq] at h; subst h) | cases h | skip
  all_goals repeat' first
      | with_reducible assumption | with_reducible apply State.issue_keeps | with_reducible apply streamEffect_keeps | intro _
      | dsimp only

theorem execMax_keeps (a0) (a1) {u2 : State} (h0 : Keeps m l t r u2) {v : State} (h : execMax a0 a1 u2 = .next v) : Keeps m l t r v := by
  unfold execMax at h
  try unfold streamIssue at h
  try unfold onCluster at h
  try unfold onNumber at h
  try dsimp only at h
  repeat' split at h
  all_goals first | (simp only [Host.Outcome.next.injEq] at h; subst h) | cases h | skip
  all_goals repeat' first
      | with_reducible assumption | with_reducible apply State.issue_keeps | with_reducible apply streamEffect_keeps | intro _
      | dsimp only

theorem execRecip_keeps (a0) (a1) {u2 : State} (h0 : Keeps m l t r u2) {v : State} (h : execRecip a0 a1 u2 = .next v) : Keeps m l t r v := by
  unfold execRecip at h
  try unfold streamIssue at h
  try unfold onCluster at h
  try unfold onNumber at h
  try dsimp only at h
  repeat' split at h
  all_goals first | (simp only [Host.Outcome.next.injEq] at h; subst h) | cases h | skip
  all_goals repeat' first
      | with_reducible assumption | with_reducible apply State.issue_keeps | with_reducible apply streamEffect_keeps | intro _
      | dsimp only

theorem execNeg_keeps (a0) (a1) {u2 : State} (h0 : Keeps m l t r u2) {v : State} (h : execNeg a0 a1 u2 = .next v) : Keeps m l t r v := by
  unfold execNeg at h
  try unfold streamIssue at h
  try unfold onCluster at h
  try unfold onNumber at h
  try dsimp only at h
  repeat' split at h
  all_goals first | (simp only [Host.Outcome.next.injEq] at h; subst h) | cases h | skip
  all_goals repeat' first
      | with_reducible assumption | with_reducible apply State.issue_keeps | with_reducible apply streamEffect_keeps | intro _
      | dsimp only

theorem execWalk_keeps (a0) (a1) {u2 : State} (h0 : Keeps m l t r u2) {v : State} (h : execWalk a0 a1 u2 = .next v) : Keeps m l t r v := by
  unfold execWalk at h
  try unfold onCluster at h
  try unfold onNumber at h
  try dsimp only at h
  repeat' split at h
  all_goals first | (simp only [Host.Outcome.next.injEq] at h; subst h) | cases h | skip
  all_goals repeat' first
      | with_reducible assumption | with_reducible apply State.issue_keeps | with_reducible apply walkEffect_keeps | intro _
      | dsimp only

theorem execAbs_keeps (a0) (a1) {u2 : State} (h0 : Keeps m l t r u2) {v : State} (h : execAbs a0 a1 u2 = .next v) : Keeps m l t r v := by
  unfold execAbs at h
  try unfold streamIssue at h
  try unfold onCluster at h
  try unfold onNumber at h
  try dsimp only at h
  repeat' split at h
  all_goals first | (simp only [Host.Outcome.next.injEq] at h; subst h) | cases h | skip
  all_goals repeat' first
      | with_reducible assumption | with_reducible apply State.issue_keeps | with_reducible apply streamEffect_keeps | intro _
      | dsimp only

theorem execReplayVerdict_keeps (a0) (a1) {u2 : State} (h0 : Keeps m l t r u2) {v : State} (h : execReplayVerdict a0 a1 u2 = .next v) : Keeps m l t r v := by
  unfold execReplayVerdict at h
  try unfold onCluster at h
  try unfold onNumber at h
  try dsimp only at h
  repeat' split at h
  all_goals first | (simp only [Host.Outcome.next.injEq] at h; subst h) | cases h | skip
  all_goals repeat' first | with_reducible assumption | with_reducible apply replayVerdictEffect_keeps | intro _ | dsimp only

theorem execEngineLastResult_keeps (a0) (a1) {u2 : State} (h0 : Keeps m l t r u2) {v : State} (h : execEngineLastResult a0 a1 u2 = .next v) : Keeps m l t r v := by
  unfold execEngineLastResult at h
  try unfold onCluster at h
  try unfold onNumber at h
  try dsimp only at h
  repeat' split at h
  all_goals first | (simp only [Host.Outcome.next.injEq] at h; subst h) | cases h | skip
  all_goals repeat' first | with_reducible assumption | with_reducible apply engineLastEffect_keeps | intro _ | dsimp only

theorem execSel_keeps (a0) (a1) {u2 : State} (h0 : Keeps m l t r u2) {v : State} (h : execSel a0 a1 u2 = .next v) : Keeps m l t r v := by
  unfold execSel at h
  try unfold streamIssue at h
  try unfold onCluster at h
  try unfold onNumber at h
  try dsimp only at h
  repeat' split at h
  all_goals first | (simp only [Host.Outcome.next.injEq] at h; subst h) | cases h | skip
  all_goals repeat' first
      | with_reducible assumption | with_reducible apply State.issue_keeps | with_reducible apply streamEffect_keeps | intro _
      | dsimp only

theorem execAdd_keeps (a0) (a1) {u2 : State} (h0 : Keeps m l t r u2) {v : State} (h : execAdd a0 a1 u2 = .next v) : Keeps m l t r v := by
  unfold execAdd at h
  try unfold streamIssue at h
  try unfold onCluster at h
  try unfold onNumber at h
  try dsimp only at h
  repeat' split at h
  all_goals first | (simp only [Host.Outcome.next.injEq] at h; subst h) | cases h | skip
  all_goals repeat' first
      | with_reducible assumption | with_reducible apply State.issue_keeps | with_reducible apply streamEffect_keeps | intro _
      | dsimp only

theorem execScale2_keeps (a0) (a1) {u2 : State} (h0 : Keeps m l t r u2) {v : State} (h : execScale2 a0 a1 u2 = .next v) : Keeps m l t r v := by
  unfold execScale2 at h
  try unfold streamIssue at h
  try unfold onCluster at h
  try unfold onNumber at h
  try dsimp only at h
  repeat' split at h
  all_goals first | (simp only [Host.Outcome.next.injEq] at h; subst h) | cases h | skip
  all_goals repeat' first
      | with_reducible assumption | with_reducible apply State.issue_keeps | with_reducible apply streamEffect_keeps | intro _
      | dsimp only

theorem execZeroingComplete_keeps (a0) {u1 : State} (h0 : Keeps m l t r u1) {v : State} (h : execZeroingComplete a0 u1 = .next v) : Keeps m l t r v := by
  unfold execZeroingComplete at h
  try unfold onCluster at h
  try unfold onNumber at h
  try dsimp only at h
  repeat' split at h
  all_goals first | (simp only [Host.Outcome.next.injEq] at h; subst h) | cases h | skip
  all_goals repeat' first | with_reducible assumption | with_reducible apply zeroingCompleteEffect_keeps | intro _ | dsimp only

theorem execRsqrt_keeps (a0) (a1) {u2 : State} (h0 : Keeps m l t r u2) {v : State} (h : execRsqrt a0 a1 u2 = .next v) : Keeps m l t r v := by
  unfold execRsqrt at h
  try unfold streamIssue at h
  try unfold onCluster at h
  try unfold onNumber at h
  try dsimp only at h
  repeat' split at h
  all_goals first | (simp only [Host.Outcome.next.injEq] at h; subst h) | cases h | skip
  all_goals repeat' first
      | with_reducible assumption | with_reducible apply State.issue_keeps | with_reducible apply streamEffect_keeps | intro _
      | dsimp only

theorem execHist_keeps (a0) (a1) {u2 : State} (h0 : Keeps m l t r u2) {v : State} (h : execHist a0 a1 u2 = .next v) : Keeps m l t r v := by
  unfold execHist at h
  try unfold streamIssue at h
  try unfold onCluster at h
  try unfold onNumber at h
  try dsimp only at h
  repeat' split at h
  all_goals first | (simp only [Host.Outcome.next.injEq] at h; subst h) | cases h | skip
  all_goals repeat' first
      | with_reducible assumption | with_reducible apply State.issue_keeps | with_reducible apply streamEffect_keeps | intro _
      | dsimp only

theorem execMma_keeps (a0) (a1) {u2 : State} (h0 : Keeps m l t r u2) {v : State} (h : execMma a0 a1 u2 = .next v) : Keeps m l t r v := by
  unfold execMma at h
  try unfold onCluster at h
  try unfold onNumber at h
  try dsimp only at h
  repeat' split at h
  all_goals first | (simp only [Host.Outcome.next.injEq] at h; subst h) | cases h | skip
  all_goals repeat' first
      | with_reducible assumption | with_reducible apply State.issue_keeps | with_reducible apply denseEffect_keeps | intro _
      | dsimp only

theorem execDequant_keeps (a0) (a1) {u2 : State} (h0 : Keeps m l t r u2) {v : State} (h : execDequant a0 a1 u2 = .next v) : Keeps m l t r v := by
  unfold execDequant at h
  try unfold streamIssue at h
  try unfold onCluster at h
  try unfold onNumber at h
  try dsimp only at h
  repeat' split at h
  all_goals first | (simp only [Host.Outcome.next.injEq] at h; subst h) | cases h | skip
  all_goals repeat' first
      | with_reducible assumption | with_reducible apply State.issue_keeps | with_reducible apply streamEffect_keeps | intro _
      | dsimp only

end Sys2Proof.Machine
end

