-- ==== Sys2Proof/Laws/KeepsStore.lean ====
section
/-! SUPPORT. What an operation leaves alone (Keeps), lemma by lemma for the mesh, the stores, streams, the update engines and the spine. -/

namespace Sys2Proof.Machine

open Sys2Proof

set_option Elab.async false
set_option linter.unusedSimpArgs false
set_option linter.unusedVariables false

variable {m l t : Bool} {r s : State}

theorem State.saveGuards_keeps {u0 : State}
    (h0 : Keeps m l t r u0) :
    Keeps m l t r (State.saveGuards u0) := by
  unfold State.saveGuards
  try dsimp only
  repeat' first
      | with_reducible assumption | with_reducible apply State.nvPut_keeps | with_reducible apply keeps_foldl | intro _
      | with_reducible apply keeps_foldl_snd | dsimp only

theorem State.closeRecord_keeps {u0 : State} (element) (state) (action)
    (h0 : Keeps m l t r u0) :
    Keeps m l t r (State.closeRecord u0 element state action) := by
  unfold State.closeRecord
  try dsimp only
  repeat' first
      | with_reducible assumption | with_reducible apply State.log_keeps | with_reducible apply State.saveGuards_keeps
      | simp only [↓keeps_mk] | with_reducible apply keeps_ite | intro _ | split | dsimp only

theorem State.modFabric_keeps {u0 : State} (f)
    (h0 : Keeps m l t r u0) :
    Keeps m l t r (State.modFabric u0 f) := by
  unfold State.modFabric
  try dsimp only
  repeat' first | with_reducible assumption | simp only [↓keeps_mk] | intro _ | dsimp only

theorem State.moveCores_keeps {u0 : State} (row) (old) (g)
    (h0 : Keeps m l t r u0) :
    Keeps m l t r (State.moveCores u0 row old g) := by
  unfold State.moveCores
  try dsimp only
  repeat' first
      | with_reducible assumption | with_reducible apply State.modCluster_keeps | simp only [↓keeps_mk] | with_reducible apply keeps_ite
      | with_reducible apply keeps_foldl | intro _ | with_reducible apply keeps_foldl_snd | split | dsimp only

theorem remapEffect_keeps (row) (a) (b) (ar) (br) {u5 : State}
    (h5 : Keeps m l t r u5) :
    Keeps m l t r (remapEffect row a b ar br u5) := by
  unfold remapEffect
  try dsimp only
  repeat' first
      | with_reducible assumption | with_reducible apply State.atFab_keeps | with_reducible apply State.modFabric_keeps
      | with_reducible apply State.zeroing_keeps | with_reducible apply State.moveCores_keeps | simp only [↓keeps_mk]
      | with_reducible apply keeps_ite | with_reducible apply keeps_foldl | intro _ | with_reducible apply keeps_foldl_snd | split
      | dsimp only

theorem State.putStoreWord_keeps {u0 : State} (stack) (phys) (w) (v) (check)
    (h0 : Keeps m l t r u0) :
    Keeps m l t r (State.putStoreWord u0 stack phys w v check) := by
  exact h0.memOf fun x => ⟨x.1, x.2.1, Memory.writeList_wf _ _ _ x.2.2⟩

theorem State.putBlock_keeps {u0 : State} (stack) (phys) (b) (ws)
    (h0 : Keeps m l t r u0) :
    Keeps m l t r (State.putBlock u0 stack phys b ws) := by
  unfold State.putBlock
  try dsimp only
  repeat' first
      | with_reducible assumption | with_reducible apply State.putStoreWord_keeps | with_reducible apply keeps_ite
      | with_reducible apply keeps_foldl | intro _ | with_reducible apply keeps_foldl_snd | split | dsimp only

theorem State.zeroPage_keeps {u0 : State} (stack) (phys)
    (h0 : Keeps m l t r u0) :
    Keeps m l t r (State.zeroPage u0 stack phys) := by
  unfold State.zeroPage
  refine h0.memOf fun x => ⟨x.1, x.2.1, ?_⟩
  dsimp only
  exact Memory.clear_wf _ _ x.2.2

theorem partitionStoppedEffect_keeps (p) {u1 : State}
    (h1 : Keeps m l t r u1) :
    Keeps m l t r (partitionStoppedEffect p u1) := by
  unfold partitionStoppedEffect
  try dsimp only
  repeat' first
      | with_reducible assumption | with_reducible apply State.modBind_keeps | with_reducible apply State.modPart_keeps
      | with_reducible apply State.raiseEvent_keeps | simp only [↓keeps_mk] | with_reducible apply keeps_ite | intro _ | split
      | dsimp only

theorem State.modStore_keeps {u0 : State} (f)
    (h0 : Keeps m l t r u0) :
    Keeps m l t r (State.modStore u0 f) := by
  unfold State.modStore
  try dsimp only
  repeat' first | with_reducible assumption | simp only [↓keeps_mk] | intro _ | dsimp only

theorem State.queueFrame_keeps {u0 : State} (n) (f)
    (h0 : Keeps m l t r u0) :
    Keeps m l t r (State.queueFrame u0 n f) := by
  unfold State.queueFrame
  try dsimp only
  repeat' first | with_reducible assumption | with_reducible apply State.modPort_keeps | simp only [↓keeps_mk] | intro _ | dsimp only

theorem State.enterPort_keeps {u0 : State} (n) (ctx) (idx) (ws) (frame)
    (h0 : Keeps m l t r u0) :
    Keeps m l t r (State.enterPort u0 n ctx idx ws frame) := by
  unfold State.enterPort
  try dsimp only
  repeat' first
      | with_reducible assumption | with_reducible apply State.modCtx_keeps | with_reducible apply State.queueFrame_keeps
      | simp only [↓keeps_mk] | with_reducible apply keeps_ite | intro _ | split | dsimp only

theorem State.freeRequest_keeps {u0 : State} (n) (f)
    (h0 : Keeps m l t r u0) :
    Keeps m l t r (State.freeRequest u0 n f) := by
  unfold State.freeRequest
  try dsimp only
  repeat' first | with_reducible assumption | with_reducible apply State.modPort_keeps | simp only [↓keeps_mk] | intro _ | dsimp only

theorem State.serveFrame_keeps {u0 : State} (n) (f)
    (h0 : Keeps m l t r u0) :
    Keeps m l t r (State.serveFrame u0 n f) := by
  unfold State.serveFrame
  try dsimp only
  repeat' first
      | with_reducible assumption | with_reducible apply State.freeRequest_keeps | with_reducible apply State.queueFrame_keeps
      | with_reducible apply State.stageWrite_keeps | with_reducible apply State.modStore_keeps | simp only [↓keeps_mk]
      | with_reducible apply keeps_ite | intro _ | split | dsimp only

theorem State.drainFuel_keeps (fuel) {u1 : State} (n)
    (h1 : Keeps m l t r u1) :
    Keeps m l t r (State.drainFuel fuel u1 n) := by
  induction fuel generalizing u1 with
  | zero => exact h1
  | succ k ih =>
    unfold State.drainFuel
    repeat' first | with_reducible assumption | with_reducible apply keeps_ite | intro _ | split
    exact ih (State.modPort_keeps _ _ (State.serveFrame_keeps _ _ h1))

theorem State.drainHeld_keeps {u0 : State} (n)
    (h0 : Keeps m l t r u0) :
    Keeps m l t r (State.drainHeld u0 n) := by
  unfold State.drainHeld
  try dsimp only
  repeat' first | with_reducible assumption | with_reducible apply State.drainFuel_keeps | intro _ | dsimp only

theorem State.acceptRequest_keeps {u0 : State} (n) (f)
    (h0 : Keeps m l t r u0) :
    Keeps m l t r (State.acceptRequest u0 n f) := by
  unfold State.acceptRequest
  try dsimp only
  repeat' first
      | with_reducible assumption | with_reducible apply State.drainHeld_keeps | with_reducible apply State.modPort_keeps
      | simp only [↓keeps_mk] | intro _ | dsimp only

theorem State.settleFlit_keeps {u0 : State} (p) (x)
    (h0 : Keeps m l t r u0) :
    Keeps m l t r (State.settleFlit u0 p x) := by
  unfold State.settleFlit
  try dsimp only
  repeat' first
      | with_reducible assumption | with_reducible apply State.modCtx_keeps | with_reducible apply State.modStore_keeps
      | with_reducible apply State.queueFrame_keeps | with_reducible apply State.stageWrite_keeps | simp only [↓keeps_mk]
      | with_reducible apply keeps_ite | intro _ | split | dsimp only

theorem State.settleElastic_keeps {u0 : State} (p)
    (h0 : Keeps m l t r u0) :
    Keeps m l t r (State.settleElastic u0 p) := by
  unfold State.settleElastic
  try dsimp only
  repeat' first
      | with_reducible assumption | with_reducible apply State.modFabric_keeps | with_reducible apply State.settleFlit_keeps
      | simp only [↓keeps_mk] | with_reducible apply keeps_foldl | intro _ | with_reducible apply keeps_foldl_snd | dsimp only

theorem stopDeliveredEffect_keeps (p) {u1 : State}
    (h1 : Keeps m l t r u1) :
    Keeps m l t r (stopDeliveredEffect p u1) := by
  unfold stopDeliveredEffect
  split
  · exact h1
  lift_lets
  extract_lets s0 s1 s2 s3 s4 s5 s6 t1 fab s7 doubt s8
  have k0 : Keeps m l t r s0 := State.atFab_keeps _ h1
  have k1 : Keeps m l t r s1 := State.overClusters_keeps _ _ k0 (fun _ _ h => State.settleBefore_keeps _ _ h)
  have k2 : Keeps m l t r s2 := keeps_foldl k1 (fun _ _ h => State.endWait_keeps _ _ h)
  have k3 : Keeps m l t r s3 := State.eachCluster_keeps _ _ k2
  have k4 : Keeps m l t r s4 := State.eachCtx_keeps _ _ (State.settleElastic_keeps _ k3)
  have k5 : Keeps m l t r s5 := keeps_mk.2 k4
  clear_value s5
  have k6 : Keeps m l t r s6 := State.modPart_keeps _ _ k5
  have kt : Keeps m l t r t1 := State.modBind_keeps _ _ k6
  clear_value t1
  have k7 : Keeps m l t r s7 := keeps_mk.2 kt
  clear_value s7 doubt
  have k8 : Keeps m l t r s8 := keeps_ite (fun _ => State.raiseEvent_keeps _ _ _ _ k7) (fun _ => k7)
  exact State.log_keeps _ _ _ _ _ _ _ (State.count_keeps _ _ k8)

theorem setEntry_keeps (c) (a1) (slot) (v) {u4 : State}
    (h4 : Keeps m l t r u4) :
    Keeps m l t r (setEntry c a1 slot v u4) := by
  unfold setEntry
  try dsimp only
  repeat' first | with_reducible assumption | with_reducible apply State.modFabric_keeps | simp only [↓keeps_mk] | intro _ | dsimp only

theorem fabricWriteEffect_keeps (addr) (v) (who) {u3 : State}
    (h3 : Keeps m l t r u3) :
    Keeps m l t r (fabricWriteEffect addr v who u3) := by
  unfold fabricWriteEffect
  try dsimp only
  repeat' first
      | with_reducible assumption | with_reducible apply setEntry_keeps | with_reducible apply State.modSync_keeps
      | with_reducible apply State.modGroup_keeps | simp only [↓keeps_mk] | with_reducible apply keeps_ite | intro _ | split
      | dsimp only

theorem unloadEffect_keeps (c) {u1 : State}
    (h1 : Keeps m l t r u1) :
    Keeps m l t r (unloadEffect c u1) := by
  unfold unloadEffect
  try dsimp only
  repeat' first
      | with_reducible assumption | with_reducible apply State.modCluster_keeps | with_reducible apply State.zeroing_keeps
      | simp only [↓keeps_mk] | with_reducible apply keeps_ite | intro _ | split | dsimp only

theorem State.setPrio_keeps {u0 : State} (p) (v)
    (h0 : Keeps m l t r u0) :
    Keeps m l t r (State.setPrio u0 p v) := by
  unfold State.setPrio
  try dsimp only
  repeat' first
      | with_reducible assumption | with_reducible apply State.modStore_keeps | with_reducible apply State.setSetting_keeps
      | simp only [↓keeps_mk] | with_reducible apply keeps_ite | with_reducible apply keeps_foldl | intro _
      | with_reducible apply keeps_foldl_snd | split | dsimp only

theorem State.eachUep_keeps {u0 : State} (p) (f)
    (h0 : Keeps m l t r u0) :
    Keeps m l t r (State.eachUep u0 p f) := by
  unfold State.eachUep
  try dsimp only
  repeat' first | with_reducible assumption | simp only [↓keeps_mk] | with_reducible apply keeps_ite | intro _ | split | dsimp only

theorem State.beginSteps_keeps {u0 : State} (p) (go)
    (h0 : Keeps m l t r u0) :
    Keeps m l t r (State.beginSteps u0 p go) := by
  unfold State.beginSteps
  try dsimp only
  repeat' first
      | with_reducible assumption | with_reducible apply State.modUep_keeps | with_reducible apply State.setUeFlags_keeps
      | with_reducible apply keeps_foldl | intro _ | with_reducible apply keeps_foldl_snd | dsimp only

theorem State.boundary_keeps {u0 : State} (p)
    (h0 : Keeps m l t r u0) :
    Keeps m l t r (State.boundary u0 p) := by
  unfold State.boundary
  try dsimp only
  repeat' first
      | with_reducible assumption | with_reducible apply State.raiseStop_keeps | with_reducible apply keeps_ite | intro _ | split
      | dsimp only

theorem State.sendNotice_keeps {u0 : State} (p) (n)
    (h0 : Keeps m l t r u0) :
    Keeps m l t r (State.sendNotice u0 p n) := by
  unfold State.sendNotice
  try dsimp only
  repeat' first | with_reducible assumption | with_reducible apply State.queueFrame_keeps | intro _ | dsimp only

theorem State.sendNotices_keeps {u0 : State} (p)
    (h0 : Keeps m l t r u0) :
    Keeps m l t r (State.sendNotices u0 p) := by
  unfold State.sendNotices
  try dsimp only
  repeat' first
      | with_reducible assumption | with_reducible apply State.sendNotice_keeps | with_reducible apply keeps_foldl | intro _
      | with_reducible apply keeps_foldl_snd | dsimp only

theorem State.afterCommit_keeps {u0 : State} (p) (doubt)
    (h0 : Keeps m l t r u0) :
    Keeps m l t r (State.afterCommit u0 p doubt) := by
  unfold State.afterCommit
  try dsimp only
  repeat' first
      | with_reducible assumption | with_reducible apply State.eachUep_keeps | with_reducible apply State.beginSteps_keeps
      | with_reducible apply State.boundary_keeps | with_reducible apply State.modBind_keeps
      | with_reducible apply State.sendNotices_keeps | simp only [↓keeps_mk] | with_reducible apply keeps_ite | intro _ | split
      | dsimp only

theorem State.writeRecords_keeps {u0 : State} (p) (doubt)
    (h0 : Keeps m l t r u0) :
    Keeps m l t r (State.writeRecords u0 p doubt) := by
  unfold State.writeRecords
  try dsimp only
  repeat' first | with_reducible assumption | simp only [↓keeps_mk] | with_reducible apply keeps_ite | intro _ | split | dsimp only

theorem State.rollForward_keeps {u0 : State} (p)
    (h0 : Keeps m l t r u0) :
    Keeps m l t r (State.rollForward u0 p) := by
  unfold State.rollForward
  try dsimp only
  repeat' first
      | with_reducible assumption | with_reducible apply State.afterCommit_keeps | with_reducible apply State.writeRecords_keeps
      | with_reducible apply keeps_ite | intro _ | split | dsimp only

theorem State.rollBack_keeps {u0 : State} (p)
    (h0 : Keeps m l t r u0) :
    Keeps m l t r (State.rollBack u0 p) := by
  unfold State.rollBack
  try dsimp only
  repeat' first
      | with_reducible assumption | with_reducible apply State.eachUep_keeps | with_reducible apply keeps_ite | intro _ | split
      | dsimp only

theorem State.clearBlocked_keeps {u0 : State} (p)
    (h0 : Keeps m l t r u0) :
    Keeps m l t r (State.clearBlocked u0 p) := by
  unfold State.clearBlocked
  try dsimp only
  repeat' first
      | with_reducible assumption | with_reducible apply State.eachUep_keeps | simp only [↓keeps_mk] | with_reducible apply keeps_ite
      | intro _ | split | dsimp only

theorem State.linkEvent_keeps {u0 : State} (c) (d)
    (h0 : Keeps m l t r u0) :
    Keeps m l t r (State.linkEvent u0 c d) := by
  unfold State.linkEvent
  try dsimp only
  repeat' first
      | with_reducible assumption | with_reducible apply State.count_keeps | with_reducible apply State.modFabric_keeps
      | simp only [↓keeps_mk] | intro _ | dsimp only

theorem State.fabricFault_keeps {u0 : State} (p) (cause) (at_) (element)
    (h0 : Keeps m l t r u0) :
    Keeps m l t r (State.fabricFault u0 p cause at_ element) := by
  unfold State.fabricFault
  try dsimp only
  repeat' first
      | with_reducible assumption | with_reducible apply State.clusterFault_keeps | with_reducible apply State.raiseStop_keeps
      | with_reducible apply State.log_keeps | simp only [↓keeps_mk] | with_reducible apply keeps_ite | intro _ | split | dsimp only

theorem State.loseLink_keeps {u0 : State} (c) (d) (out)
    (h0 : Keeps m l t r u0) :
    Keeps m l t r (State.loseLink u0 c d out) := by
  unfold State.loseLink
  try dsimp only
  repeat' first
      | with_reducible assumption | with_reducible apply State.modFabric_keeps | with_reducible apply State.log_keeps
      | with_reducible apply State.fabricFault_keeps | simp only [↓keeps_mk] | with_reducible apply keeps_ite
      | with_reducible apply keeps_foldl | intro _ | with_reducible apply keeps_foldl_snd | split | dsimp only

theorem State.landWord_keeps {u0 : State} (c) (d) (out) (i) (w) (err)
    (h0 : Keeps m l t r u0) :
    Keeps m l t r (State.landWord u0 c d out i w err).2 := by
  unfold State.landWord
  try dsimp only
  repeat' first
      | with_reducible assumption | with_reducible apply State.elementEvent_keeps | with_reducible apply State.linkEvent_keeps
      | with_reducible apply State.loseLink_keeps | simp only [↓keeps_mk] | with_reducible apply keeps_ite | intro _ | split
      | dsimp only

theorem State.landWords_keeps {u0 : State} (c) (d) (out) (i) (ws) (err)
    (h0 : Keeps m l t r u0) :
    Keeps m l t r (State.landWords u0 c d out i ws err).2 := by
  induction ws generalizing i u0 with
  | nil => exact h0
  | cons w ws ih => exact ih _ (State.landWord_keeps _ _ _ _ _ _ h0)

theorem State.pageEvent_keeps {u0 : State} (stack) (page) (blk) (uncorr) (retried)
    (h0 : Keeps m l t r u0) :
    Keeps m l t r (State.pageEvent u0 stack page blk uncorr retried) := by
  unfold State.pageEvent
  try dsimp only
  repeat' first
      | with_reducible assumption | with_reducible apply State.modStack_keeps | with_reducible apply State.count_keeps
      | with_reducible apply State.elementEvent_keeps | simp only [↓keeps_mk] | with_reducible apply keeps_ite | intro _ | split
      | dsimp only

theorem State.poisonRead_keeps {u0 : State} (stack)
    (h0 : Keeps m l t r u0) :
    Keeps m l t r (State.poisonRead u0 stack) := by
  unfold State.poisonRead
  try dsimp only
  repeat' first
      | with_reducible assumption | with_reducible apply State.count_keeps | with_reducible apply State.modStack_keeps
      | simp only [↓keeps_mk] | intro _ | dsimp only

theorem State.noteBlocks_keeps {u0 : State} (stack) (page) (phys) (b) (n) (retry)
    (h0 : Keeps m l t r u0) :
    Keeps m l t r (State.noteBlocks u0 stack page phys b n retry).2 := by
  unfold State.noteBlocks
  try dsimp only
  repeat' first
      | with_reducible assumption | with_reducible apply State.pageEvent_keeps | with_reducible apply State.poisonRead_keeps
      | with_reducible apply State.count_keeps | simp only [↓keeps_mk] | with_reducible apply keeps_ite
      | with_reducible apply keeps_foldl | intro _ | with_reducible apply keeps_foldl_snd | split | dsimp only

theorem touchedClearEffect_keeps (p) {u1 : State}
    (h1 : Keeps m l t r u1) :
    Keeps m l t r (touchedClearEffect p u1) := by
  unfold touchedClearEffect
  try dsimp only
  repeat' first | with_reducible assumption | simp only [↓keeps_mk] | with_reducible apply keeps_ite | intro _ | split | dsimp only

theorem State.tableParity_keeps {u0 : State} (c) (owner) (far)
    (h0 : Keeps m l t r u0) :
    Keeps m l t r (State.tableParity u0 c owner far) := by
  unfold State.tableParity
  try dsimp only
  repeat' first
      | with_reducible assumption | with_reducible apply State.fabricFault_keeps | with_reducible apply State.log_keeps
      | simp only [↓keeps_mk] | with_reducible apply keeps_ite | intro _ | split | dsimp only

theorem State.checkIdle_keeps {u0 : State} (k) (c) (a3) (far) (upset)
    (h0 : Keeps m l t r u0) :
    Keeps m l t r (State.checkIdle u0 k c a3 far upset) := by
  unfold State.checkIdle
  try dsimp only
  repeat' first
      | with_reducible assumption | with_reducible apply State.tableParity_keeps | simp only [↓keeps_mk]
      | with_reducible apply keeps_ite | intro _ | split | dsimp only

theorem State.popQueue_keeps {u0 : State} (c) (i) (p) (fab)
    (h0 : Keeps m l t r u0) :
    Keeps m l t r (State.popQueue u0 c i p fab) := by
  unfold State.popQueue
  try dsimp only
  repeat' first | with_reducible assumption | with_reducible apply State.modFabric_keeps | simp only [↓keeps_mk] | intro _ | dsimp only

theorem State.enterCtx_keeps {u0 : State} (ctx) (idx) (ws) (last)
    (h0 : Keeps m l t r u0) :
    Keeps m l t r (State.enterCtx u0 ctx idx ws last) := by
  unfold State.enterCtx
  try dsimp only
  repeat' first
      | with_reducible assumption | with_reducible apply State.modCtx_keeps | simp only [↓keeps_mk] | with_reducible apply keeps_ite
      | intro _ | split | dsimp only

theorem State.landElastic_keeps {u0 : State} (c) (circ) (x) (ws)
    (h0 : Keeps m l t r u0) :
    Keeps m l t r (State.landElastic u0 c circ x ws) := by
  unfold State.landElastic
  try dsimp only
  repeat' first
      | with_reducible assumption | with_reducible apply State.stageWrite_keeps | with_reducible apply State.enterPort_keeps
      | with_reducible apply State.enterCtx_keeps | simp only [↓keeps_mk] | with_reducible apply keeps_ite | intro _ | split
      | dsimp only

theorem elasticLandEffect_keeps (c) (d) (upset) (err) {u4 : State}
    (h4 : Keeps m l t r u4) :
    Keeps m l t r (elasticLandEffect c d upset err u4) := by
  unfold elasticLandEffect
  try dsimp only
  repeat' first
      | with_reducible assumption | with_reducible apply State.checkIdle_keeps | with_reducible apply State.tableParity_keeps
      | with_reducible apply State.advance_keeps | with_reducible apply State.popQueue_keeps
      | with_reducible apply State.landWords_keeps | with_reducible apply State.landElastic_keeps | simp only [↓keeps_mk]
      | with_reducible apply keeps_ite | intro _ | split | dsimp only

theorem State.hostDone_keeps {u0 : State} (q) (idx) (a3)
    (h0 : Keeps m l t r u0) :
    Keeps m l t r (State.hostDone u0 q idx a3) := by
  unfold State.hostDone
  try dsimp only
  repeat' first
      | with_reducible assumption | with_reducible apply State.modStore_keeps | with_reducible apply State.modHostQ_keeps
      | simp only [↓keeps_mk] | with_reducible apply keeps_ite | intro _ | split | dsimp only

theorem State.readPlane_keeps {u0 : State} (stack) (pl) (step) (copy) (n) (skip)
    (h0 : Keeps m l t r u0) :
    Keeps m l t r (State.readPlane u0 stack pl step copy n skip).2 := by
  unfold State.readPlane
  try dsimp only
  repeat' first
      | with_reducible assumption | with_reducible apply State.noteBlocks_keeps | simp only [↓keeps_mk] | with_reducible apply keeps_ite
      | with_reducible apply keeps_foldl | intro _ | with_reducible apply keeps_foldl_snd | split | dsimp only

theorem State.readAll_keeps {u0 : State} (stack) (pl) (step) (copy) (n)
    (h0 : Keeps m l t r u0) :
    Keeps m l t r (State.readAll u0 stack pl step copy n).2 := by
  unfold State.readAll
  try dsimp only
  repeat' first | with_reducible assumption | with_reducible apply State.readPlane_keeps | intro _ | dsimp only

theorem State.writePlane_keeps {u0 : State} (stack) (pl) (copy) (skip) (ws)
    (h0 : Keeps m l t r u0) :
    Keeps m l t r (State.writePlane u0 stack pl copy skip ws) := by
  unfold State.writePlane
  try dsimp only
  repeat' first
      | with_reducible assumption | with_reducible apply State.putBlock_keeps | with_reducible apply keeps_ite
      | with_reducible apply keeps_foldl | intro _ | with_reducible apply keeps_foldl_snd | split | dsimp only

theorem State.markSlot_keeps {u0 : State} (c) (a2) (fab)
    (h0 : Keeps m l t r u0) :
    Keeps m l t r (State.markSlot u0 c a2 fab) := by
  unfold State.markSlot
  try dsimp only
  repeat' first | with_reducible assumption | with_reducible apply State.modFabric_keeps | intro _ | dsimp only

theorem State.lineConflict_keeps {u0 : State} (c) (a2) (line)
    (h0 : Keeps m l t r u0) :
    Keeps m l t r (State.lineConflict u0 c a2 line) := by
  unfold State.lineConflict
  try dsimp only
  repeat' first
      | with_reducible assumption | with_reducible apply State.bankConflict_keeps | simp only [↓keeps_mk]
      | with_reducible apply keeps_ite | intro _ | split | dsimp only

theorem State.depart_keeps {u0 : State} (p) (c) (d) (a4) (e) (conflict)
    (h0 : Keeps m l t r u0) :
    Keeps m l t r (State.depart u0 p c d a4 e conflict) := by
  unfold State.depart
  try dsimp only
  repeat' first
      | with_reducible assumption | with_reducible apply State.clusterFault_keeps | with_reducible apply State.circRead_keeps
      | with_reducible apply State.testRead_keeps | with_reducible apply State.takeBanks_keeps
      | with_reducible apply State.markSlot_keeps | with_reducible apply State.lineConflict_keeps
      | with_reducible apply State.modFabric_keeps | simp only [↓keeps_mk] | with_reducible apply keeps_ite
      | with_reducible apply keeps_foldl | intro _ | with_reducible apply keeps_foldl_snd | split | dsimp only

theorem departureEffect_keeps (c) (d) (upset) (conflict) {u4 : State}
    (h4 : Keeps m l t r u4) :
    Keeps m l t r (departureEffect c d upset conflict u4) := by
  unfold departureEffect
  try dsimp only
  repeat' first
      | with_reducible assumption | with_reducible apply State.checkIdle_keeps | with_reducible apply State.markSlot_keeps
      | with_reducible apply State.settle_keeps | with_reducible apply State.atPart_keeps | with_reducible apply State.tableParity_keeps
      | with_reducible apply State.depart_keeps | simp only [↓keeps_mk] | with_reducible apply keeps_ite | intro _ | split | dsimp only

theorem State.deliverTotal_keeps {u0 : State} (stack) (p) (a3)
    (h0 : Keeps m l t r u0) :
    Keeps m l t r (State.deliverTotal u0 stack p a3) := by
  unfold State.deliverTotal
  try dsimp only
  repeat' first
      | with_reducible assumption | with_reducible apply State.modUep_keeps | with_reducible apply State.setUeFlags_keeps
      | simp only [↓keeps_mk] | with_reducible apply keeps_ite | intro _ | split | dsimp only

theorem State.releaseEngines_keeps {u0 : State} (p) (g) (a3) (fl)
    (h0 : Keeps m l t r u0) :
    Keeps m l t r (State.releaseEngines u0 p g a3 fl) := by
  unfold State.releaseEngines
  try dsimp only
  repeat' first
      | with_reducible assumption | with_reducible apply State.deliverTotal_keeps | with_reducible apply State.setUeFlags_keeps
      | with_reducible apply State.modUep_keeps | simp only [↓keeps_mk] | with_reducible apply keeps_ite
      | with_reducible apply keeps_foldl | intro _ | with_reducible apply keeps_foldl_snd | split | dsimp only

theorem spineReleaseEffect_keeps (g) {u1 : State}
    (h1 : Keeps m l t r u1) :
    Keeps m l t r (spineReleaseEffect g u1) := by
  unfold spineReleaseEffect
  try dsimp only
  repeat' first
      | with_reducible assumption | with_reducible apply State.atPart_keeps | with_reducible apply State.modGroup_keeps
      | with_reducible apply State.modColl_keeps | with_reducible apply State.deliverPhase_keeps
      | with_reducible apply State.tryPhase_keeps | with_reducible apply State.releaseEngines_keeps
      | simp only [↓keeps_mk, ↓keeps_mk_lease] | with_reducible apply keeps_ite | with_reducible apply keeps_foldl | intro _
      | with_reducible apply keeps_foldl_snd | split | dsimp only

theorem State.countPoison_keeps {u0 : State} (c) (k) (n)
    (h0 : Keeps m l t r u0) :
    Keeps m l t r (State.countPoison u0 c k n) := by
  unfold State.countPoison
  try dsimp only
  repeat' first
      | with_reducible assumption | with_reducible apply State.count_keeps | with_reducible apply State.modCtx_keeps
      | simp only [↓keeps_mk] | with_reducible apply keeps_ite | intro _ | split | dsimp only

theorem State.feedEdge_keeps {u0 : State} (k)
    (h0 : Keeps m l t r u0) :
    Keeps m l t r (State.feedEdge u0 k) := by
  unfold State.feedEdge
  try dsimp only
  repeat' first
      | with_reducible assumption | with_reducible apply State.modFabric_keeps | simp only [↓keeps_mk] | with_reducible apply keeps_ite
      | with_reducible apply keeps_foldl | intro _ | with_reducible apply keeps_foldl_snd | split | dsimp only

theorem State.bridgeSlot_keeps {u0 v : State} (p key) (h0 : Keeps m l t r u0) (hv : u0.bridgeSlot p key = some v) : Keeps m l t r v := by
  unfold State.bridgeSlot at hv
  simp only [Option.map_eq_some_iff] at hv
  obtain ⟨i, _, rfl⟩ := hv
  exact State.modStore_keeps _ h0

theorem State.cross_keeps {u0 v : State} (p a b) (h0 : Keeps m l t r u0) (hv : u0.cross p a b = some v) : Keeps m l t r v := by
  unfold State.cross at hv
  split at hv
  · cases hv; exact h0
  · split at hv
    · cases hv
    · rename_i w hw
      split at hv
      · cases hv; exact State.bridgeSlot_keeps _ _ h0 hw
      · exact State.bridgeSlot_keeps _ _ (State.bridgeSlot_keeps _ _ h0 hw) hv

theorem creditReturnEffect_keeps (c) (d) (p) {u3 : State}
    (h3 : Keeps m l t r u3) :
    Keeps m l t r (creditReturnEffect c d p u3) := by
  unfold creditReturnEffect
  try dsimp only
  repeat' first
      | with_reducible assumption | with_reducible apply State.feedEdge_keeps | with_reducible apply State.modFabric_keeps
      | with_reducible apply State.atFab_keeps | simp only [↓keeps_mk] | with_reducible apply keeps_ite | intro _ | split | dsimp only

theorem State.actOn_keeps {u0 : State} (x) (o)
    (h0 : Keeps m l t r u0) :
    Keeps m l t r (State.actOn u0 x o) := by
  unfold State.actOn
  try dsimp only
  repeat' first
      | with_reducible assumption | with_reducible apply State.clusterFault_keeps | with_reducible apply State.modFabric_keeps
      | simp only [↓keeps_mk] | with_reducible apply keeps_ite | intro _ | split | dsimp only

theorem flitArrivalEffect_keeps (c) (d) (upset) {u3 : State}
    (h3 : Keeps m l t r u3) :
    Keeps m l t r (flitArrivalEffect c d upset u3) := by
  unfold flitArrivalEffect
  try dsimp only
  repeat' first
      | with_reducible assumption | with_reducible apply State.modFabric_keeps | with_reducible apply State.atFab_keeps
      | with_reducible apply State.fabricFault_keeps | with_reducible apply State.actOn_keeps
      | with_reducible apply State.tableParity_keeps | simp only [↓keeps_mk] | with_reducible apply keeps_ite
      | with_reducible apply keeps_foldl | intro _ | with_reducible apply keeps_foldl_snd | split | dsimp only

theorem laneMapEffect_keeps (slot) (d) (i) (lane) {u4 : State}
    (h4 : Keeps m l t r u4) :
    Keeps m l t r (laneMapEffect slot d i lane u4) := by
  unfold laneMapEffect
  try dsimp only
  repeat' first
      | with_reducible assumption | with_reducible apply State.advance_keeps | with_reducible apply State.closeRecord_keeps
      | with_reducible apply State.modFabric_keeps | simp only [↓keeps_mk] | with_reducible apply keeps_ite | intro _ | split
      | dsimp only

theorem State.modReq_keeps {u0 : State} (i) (f)
    (h0 : Keeps m l t r u0) :
    Keeps m l t r (State.modReq u0 i f) := by
  unfold State.modReq
  try dsimp only
  repeat' first | with_reducible assumption | with_reducible apply State.modStore_keeps | simp only [↓keeps_mk] | intro _ | dsimp only

theorem State.ueFault_keeps {u0 : State} (stack) (p) (cause)
    (h0 : Keeps m l t r u0) :
    Keeps m l t r (State.ueFault u0 stack p cause) := by
  unfold State.ueFault
  try dsimp only
  repeat' first
      | with_reducible assumption | with_reducible apply State.modUep_keeps | with_reducible apply State.modStack_keeps
      | with_reducible apply State.raiseStop_keeps | with_reducible apply State.log_keeps | simp only [↓keeps_mk]
      | with_reducible apply keeps_ite | intro _ | split | dsimp only

theorem State.ageOthers_keeps {u0 : State} (stack) (pch) (p) (i)
    (h0 : Keeps m l t r u0) :
    Keeps m l t r (State.ageOthers u0 stack pch p i) := by
  unfold State.ageOthers
  try dsimp only
  repeat' first
      | with_reducible assumption | with_reducible apply State.modStore_keeps | simp only [↓keeps_mk] | with_reducible apply keeps_ite
      | intro _ | split | dsimp only

theorem State.setRound_keeps {u0 : State} (stack) (pch) (n)
    (h0 : Keeps m l t r u0) :
    Keeps m l t r (State.setRound u0 stack pch n) := by
  unfold State.setRound
  try dsimp only
  repeat' first | with_reducible assumption | with_reducible apply State.modStore_keeps | simp only [↓keeps_mk] | intro _ | dsimp only

theorem State.takeRound_keeps {u0 : State} (stack) (pch) (p) (i)
    (h0 : Keeps m l t r u0) :
    Keeps m l t r (State.takeRound u0 stack pch p i) := by
  unfold State.takeRound
  try dsimp only
  repeat' first
      | with_reducible assumption | with_reducible apply State.ageOthers_keeps | with_reducible apply State.setRound_keeps | intro _
      | dsimp only

theorem State.ueMismatches_keeps {u0 : State} (stack) (p) (n)
    (h0 : Keeps m l t r u0) :
    Keeps m l t r (State.ueMismatches u0 stack p n).2 := by
  unfold State.ueMismatches
  try dsimp only
  repeat' first
      | with_reducible assumption | with_reducible apply State.modStack_keeps | with_reducible apply State.elementEvent_keeps
      | with_reducible apply State.count_keeps | with_reducible apply State.ueFault_keeps | simp only [↓keeps_mk]
      | with_reducible apply keeps_ite | with_reducible apply keeps_foldl | intro _ | with_reducible apply keeps_foldl_snd | split
      | dsimp only

theorem contributionEffect_keeps (stack) (pch) (mismatches) {u3 : State}
    (h3 : Keeps m l t r u3) :
    Keeps m l t r (contributionEffect stack pch mismatches u3) := by
  unfold contributionEffect
  try dsimp only
  repeat' first
      | with_reducible assumption | with_reducible apply State.modReq_keeps | with_reducible apply State.ueFault_keeps
      | with_reducible apply State.modStack_keeps | with_reducible apply State.noteBlocks_keeps
      | with_reducible apply State.takeRound_keeps | with_reducible apply State.ueMismatches_keeps
      | with_reducible apply State.putBlock_keeps | with_reducible apply State.modUep_keeps
      | with_reducible apply State.setUeFlags_keeps | with_reducible apply (keeps_foldl_of (fun x : State × _ => x.1))
      | simp only [↓keeps_mk] | with_reducible apply keeps_ite | with_reducible apply keeps_foldl | intro _
      | with_reducible apply keeps_foldl_snd | split | dsimp only

theorem intervalEndEffect_keeps (p) {u1 : State}
    (h1 : Keeps m l t r u1) :
    Keeps m l t r (intervalEndEffect p u1) := by
  unfold intervalEndEffect
  try dsimp only
  repeat' first
      | with_reducible assumption | with_reducible apply State.atTorus_keeps | with_reducible apply State.modIdle_keeps
      | with_reducible apply keeps_ite | intro _ | split | dsimp only

theorem State.putBlocks_keeps {u0 : State} (stack) (phys) (b) (ws)
    (h0 : Keeps m l t r u0) :
    Keeps m l t r (State.putBlocks u0 stack phys b ws) := by
  unfold State.putBlocks
  try dsimp only
  repeat' first
      | with_reducible assumption | with_reducible apply State.putBlock_keeps | with_reducible apply keeps_foldl | intro _
      | with_reducible apply keeps_foldl_snd | dsimp only

theorem State.listPoison_keeps {u0 : State} (stack) (p) (page) (blk)
    (h0 : Keeps m l t r u0) :
    Keeps m l t r (State.listPoison u0 stack p page blk) := by
  unfold State.listPoison
  try dsimp only
  repeat' first
      | with_reducible assumption | with_reducible apply State.modUep_keeps | simp only [↓keeps_mk] | with_reducible apply keeps_ite
      | intro _ | split | dsimp only

theorem State.perform_keeps {u0 : State} (i) (a2) (retry)
    (h0 : Keeps m l t r u0) :
    Keeps m l t r (State.perform u0 i a2 retry) := by
  unfold State.perform
  try dsimp only
  repeat' first
      | with_reducible assumption | with_reducible apply State.modReq_keeps | with_reducible apply State.putBlocks_keeps
      | with_reducible apply State.noteBlocks_keeps | with_reducible apply State.listPoison_keeps | simp only [↓keeps_mk]
      | with_reducible apply keeps_ite | with_reducible apply keeps_foldl | intro _ | with_reducible apply keeps_foldl_snd | split
      | dsimp only

theorem State.noteCopySel_keeps {u0 : State} (a1)
    (h0 : Keeps m l t r u0) :
    Keeps m l t r (State.noteCopySel u0 a1) := by
  unfold State.noteCopySel
  try dsimp only
  repeat' first
      | with_reducible assumption | with_reducible apply State.modHostQ_keeps | simp only [↓keeps_mk] | with_reducible apply keeps_ite
      | intro _ | split | dsimp only

theorem State.refuseReq_keeps {u0 : State} (i) (a2)
    (h0 : Keeps m l t r u0) :
    Keeps m l t r (State.refuseReq u0 i a2) := by
  unfold State.refuseReq
  try dsimp only
  repeat' first
      | with_reducible assumption | with_reducible apply State.modReq_keeps | with_reducible apply State.count_keeps
      | with_reducible apply State.modStack_keeps | simp only [↓keeps_mk] | intro _ | dsimp only

theorem State.ownedRound_keeps {u0 : State} (stack) (pch) (p)
    (h0 : Keeps m l t r u0) :
    Keeps m l t r (State.ownedRound u0 stack pch p) := by
  unfold State.ownedRound
  try dsimp only
  repeat' first
      | with_reducible assumption | with_reducible apply State.perform_keeps | with_reducible apply State.ageOthers_keeps
      | with_reducible apply State.noteCopySel_keeps | with_reducible apply State.refuseReq_keeps | simp only [↓keeps_mk]
      | with_reducible apply keeps_ite | intro _ | split | dsimp only

theorem State.arriveMany_keeps {u0 : State} (o) (k)
    (h0 : Keeps m l t r u0) :
    Keeps m l t r (State.arriveMany u0 o k) := by
  unfold State.arriveMany
  try dsimp only
  repeat' first
      | with_reducible assumption | with_reducible apply State.arrive_keeps | with_reducible apply keeps_foldl | intro _
      | with_reducible apply keeps_foldl_snd | dsimp only

theorem State.addLanded_keeps {u0 : State} (a1) (n)
    (h0 : Keeps m l t r u0) :
    Keeps m l t r (State.addLanded u0 a1 n) := by
  unfold State.addLanded
  try dsimp only
  repeat' first
      | with_reducible assumption | with_reducible apply State.modPort_keeps | simp only [↓keeps_mk] | with_reducible apply keeps_ite
      | intro _ | split | dsimp only

theorem State.afterLanding_keeps {u0 : State} (c) (a2) (n) (last)
    (h0 : Keeps m l t r u0) :
    Keeps m l t r (State.afterLanding u0 c a2 n last) := by
  unfold State.afterLanding
  try dsimp only
  repeat' first
      | with_reducible assumption | with_reducible apply State.arriveMany_keeps | with_reducible apply State.addLanded_keeps
      | with_reducible apply State.modHostQ_keeps | with_reducible apply State.modPort_keeps
      | with_reducible apply State.queueFrame_keeps | simp only [↓keeps_mk] | with_reducible apply keeps_ite | intro _ | split
      | dsimp only

theorem exportWaitEffect_keeps (stack) (p) {u2 : State}
    (h2 : Keeps m l t r u2) :
    Keeps m l t r (exportWaitEffect stack p u2) := by
  unfold exportWaitEffect
  try dsimp only
  repeat' first
      | with_reducible assumption | with_reducible apply State.modUep_keeps | simp only [↓keeps_mk] | with_reducible apply keeps_ite
      | intro _ | split | dsimp only

theorem State.enterRing_keeps {u0 : State} (p) (ctx) (idx) (link) (ws) (last)
    (h0 : Keeps m l t r u0) :
    Keeps m l t r (State.enterRing u0 p ctx idx link ws last) := by
  unfold State.enterRing
  try dsimp only
  repeat' first
      | with_reducible assumption | with_reducible apply State.modCtx_keeps | with_reducible apply State.modStore_keeps
      | simp only [↓keeps_mk] | with_reducible apply keeps_ite | intro _ | split | dsimp only

theorem State.sendElastic_keeps {u0 : State} (c) (d) (p) (e) (x) (err)
    (h0 : Keeps m l t r u0) :
    Keeps m l t r (State.sendElastic u0 c d p e x err) := by
  unfold State.sendElastic
  try dsimp only
  repeat' first
      | with_reducible assumption | with_reducible apply State.modFabric_keeps | with_reducible apply State.popQueue_keeps
      | with_reducible apply State.landWords_keeps | with_reducible apply State.enterRing_keeps | simp only [↓keeps_mk]
      | with_reducible apply keeps_ite | intro _ | split | dsimp only

theorem elasticSendEffect_keeps (c) (d) (upset) (err) {u4 : State}
    (h4 : Keeps m l t r u4) :
    Keeps m l t r (elasticSendEffect c d upset err u4) := by
  unfold elasticSendEffect
  try dsimp only
  repeat' first
      | with_reducible assumption | with_reducible apply State.checkIdle_keeps | with_reducible apply State.markSlot_keeps
      | with_reducible apply State.advance_keeps | with_reducible apply State.tableParity_keeps
      | with_reducible apply State.sendElastic_keeps | simp only [↓keeps_mk] | with_reducible apply keeps_ite | intro _ | split
      | dsimp only

theorem timerExpiryEffect_keeps (c) (k) {u2 : State}
    (h2 : Keeps m l t r u2) :
    Keeps m l t r (timerExpiryEffect c k u2) := by
  unfold timerExpiryEffect
  try dsimp only
  repeat' first
      | with_reducible assumption | with_reducible apply State.haltCtx_keeps | with_reducible apply State.modCtx_keeps
      | with_reducible apply State.atPart_keeps | simp only [↓keeps_mk] | with_reducible apply keeps_ite | intro _ | split | dsimp only

theorem requestArrivalEffect_keeps (stack) (p) {u2 : State}
    (h2 : Keeps m l t r u2) :
    Keeps m l t r (requestArrivalEffect stack p u2) := by
  unfold requestArrivalEffect
  dsimp only
  split
  · exact h2
  split
  · exact h2
  rename_i hv
  exact State.modReq_keeps _ _ (State.cross_keeps _ _ _ h2 hv)

theorem State.passMismatches_keeps {u0 : State} (stack) (p) (ns)
    (h0 : Keeps m l t r u0) :
    Keeps m l t r (State.passMismatches u0 stack p ns).2 := by
  induction ns generalizing u0 with
  | nil => exact h0
  | cons n ns ih =>
    unfold State.passMismatches
    dsimp only
    split
    · exact State.ueMismatches_keeps _ _ _ h0
    · exact ih (State.ueMismatches_keeps _ _ _ h0)

theorem groupArrivalEffect_keeps (o) {u1 : State}
    (h1 : Keeps m l t r u1) :
    Keeps m l t r (groupArrivalEffect o u1) := by
  unfold groupArrivalEffect
  try dsimp only
  repeat' first
      | with_reducible assumption | with_reducible apply State.groupArrive_keeps | with_reducible apply State.modSync_keeps
      | simp only [↓keeps_mk] | with_reducible apply keeps_ite | intro _ | split | dsimp only

theorem State.prioArrives_keeps {u0 : State} (stack)
    (h0 : Keeps m l t r u0) :
    Keeps m l t r (State.prioArrives u0 stack) := by
  unfold State.prioArrives
  try dsimp only
  repeat' first
      | with_reducible assumption | with_reducible apply State.modStore_keeps | simp only [↓keeps_mk] | with_reducible apply keeps_ite
      | with_reducible apply keeps_foldl | intro _ | with_reducible apply keeps_foldl_snd | split | dsimp only

theorem readRetryEffect_keeps (stack) (pch) {u2 : State}
    (h2 : Keeps m l t r u2) :
    Keeps m l t r (readRetryEffect stack pch u2) := by
  unfold readRetryEffect
  try dsimp only
  repeat' first
      | with_reducible assumption | with_reducible apply State.prioArrives_keeps | with_reducible apply State.ownedRound_keeps
      | with_reducible apply State.setRound_keeps | simp only [↓keeps_mk] | with_reducible apply keeps_ite | intro _ | split
      | dsimp only

theorem drainCompleteEffect_keeps (c) (k) {u2 : State}
    (h2 : Keeps m l t r u2) :
    Keeps m l t r (drainCompleteEffect c k u2) := by
  unfold drainCompleteEffect
  try dsimp only
  repeat' first
      | with_reducible assumption | with_reducible apply State.modCtx_keeps | simp only [↓keeps_mk] | with_reducible apply keeps_ite
      | intro _ | split | dsimp only

theorem localReleaseEffect_keeps (o) {u1 : State}
    (h1 : Keeps m l t r u1) :
    Keeps m l t r (localReleaseEffect o u1) := by
  unfold localReleaseEffect
  try dsimp only
  repeat' first
      | with_reducible assumption | with_reducible apply State.modSync_keeps | with_reducible apply State.atPart_keeps
      | with_reducible apply State.deliverPhase_keeps | simp only [↓keeps_mk] | with_reducible apply keeps_ite | intro _ | split
      | dsimp only

theorem linkLostEffect_keeps (c) (d) {u2 : State}
    (h2 : Keeps m l t r u2) :
    Keeps m l t r (linkLostEffect c d u2) := by
  unfold linkLostEffect
  try dsimp only
  repeat' first
      | with_reducible assumption | with_reducible apply State.loseLink_keeps | simp only [↓keeps_mk] | with_reducible apply keeps_ite
      | intro _ | split | dsimp only

theorem State.checkCurrent_keeps {u0 : State} (c) (k)
    (h0 : Keeps m l t r u0) :
    Keeps m l t r (State.checkCurrent u0 c k) := by
  unfold State.checkCurrent
  try dsimp only
  repeat' first
      | with_reducible assumption | with_reducible apply State.haltCtx_keeps | simp only [↓keeps_mk] | with_reducible apply keeps_ite
      | intro _ | split | dsimp only

theorem roundGrantEffect_keeps (stack) (pch) {u2 : State}
    (h2 : Keeps m l t r u2) :
    Keeps m l t r (roundGrantEffect stack pch u2) := by
  unfold roundGrantEffect
  try dsimp only
  repeat' first
      | with_reducible assumption | with_reducible apply State.setRound_keeps | with_reducible apply State.prioArrives_keeps
      | with_reducible apply State.ownedRound_keeps | simp only [↓keeps_mk] | with_reducible apply keeps_ite | intro _ | split
      | dsimp only

theorem State.startContexts_keeps {u0 : State} (p)
    (h0 : Keeps m l t r u0) :
    Keeps m l t r (State.startContexts u0 p) := by
  unfold State.startContexts
  try dsimp only
  repeat' first
      | with_reducible assumption | with_reducible apply State.checkCurrent_keeps | with_reducible apply State.eachCtx_keeps
      | with_reducible apply keeps_foldl | intro _ | with_reducible apply keeps_foldl_snd | dsimp only

theorem State.departFlits_keeps {u0 : State} (c) (k) (p) (ws) (cargo)
    (h0 : Keeps m l t r u0) :
    Keeps m l t r (State.departFlits u0 c k p ws cargo) := by
  unfold State.departFlits
  try dsimp only
  repeat' first | with_reducible assumption | with_reducible apply State.modFabric_keeps | simp only [↓keeps_mk] | intro _ | dsimp only

theorem State.moveStaged_keeps {u0 : State} (c) (g) (i)
    (h0 : Keeps m l t r u0) :
    Keeps m l t r (State.moveStaged u0 c g i) := by
  unfold State.moveStaged
  try dsimp only
  repeat' first
      | with_reducible assumption | with_reducible apply State.takeBanks_keeps | with_reducible apply State.writeWords_keeps
      | with_reducible apply State.circWrite_keeps | with_reducible apply State.modCluster_keeps
      | with_reducible apply State.modCtx_keeps | with_reducible apply State.afterLanding_keeps
      | with_reducible apply State.drainHeld_keeps | with_reducible apply State.count_keeps | simp only [↓keeps_mk]
      | with_reducible apply keeps_ite | intro _ | split | dsimp only

theorem streamActivate_keeps (op) (c) (k) {u3 : State}
    (h3 : Keeps m l t r u3) :
    Keeps m l t r (streamActivate op c k u3) := by
  unfold streamActivate
  try dsimp only
  repeat' first
      | with_reducible assumption | with_reducible apply State.haltCtx_keeps | with_reducible apply State.modCtx_keeps
      | simp only [↓keeps_mk] | with_reducible apply keeps_ite | intro _ | split | dsimp only

theorem State.putExport_keeps {u0 : State} (stack) (p) (n) (bytes)
    (h0 : Keeps m l t r u0) :
    Keeps m l t r (State.putExport u0 stack p n bytes) := by
  unfold State.putExport
  try dsimp only
  repeat' first
      | with_reducible assumption | with_reducible apply State.putBlock_keeps | simp only [↓keeps_mk] | with_reducible apply keeps_ite
      | with_reducible apply keeps_foldl | intro _ | with_reducible apply keeps_foldl_snd | split | dsimp only

theorem applyShard_keeps {u0 : State} (stack x h lfsr) {gate} (h0 : Keeps m l t r u0) :
    Keeps m l t r (applyShard u0 stack x gate h lfsr).st := by
  unfold applyShard
  lift_lets
  extract_lets cur oth n useM sBytes mBytes w mm v g k mk byte32 byte8 fac other wOther mOther sOther es ws roots facFlags fl newW pm newM ps newS cc t1 t2 t3 c0 c1 xs
  have hv : Keeps m l t r v.2 := State.readAll_keeps _ _ _ _ _ (State.readAll_keeps _ _ _ _ _ (State.readAll_keeps _ _ _ _ _ h0))
  have hg : Keeps m l t r g.2 := State.readPlane_keeps _ _ _ _ _ _ hv
  have hcc : ∀ pl fmt u gen, Keeps m l t r u → Keeps m l t r (cc pl fmt u gen).1 := by
    intro pl fmt u gen hu
    dsimp only [cc]
    split
    · exact hu
    dsimp only
    exact State.writePlane_keeps _ _ _ _ _ hu
  have h1 : Keeps m l t r t1 := State.writePlane_keeps _ _ _ _ _ hg
  have h2 : Keeps m l t r t2 := keeps_ite (fun _ => State.writePlane_keeps _ _ _ _ _ h1) (fun _ => h1)
  have h3 : Keeps m l t r t3 := keeps_ite (fun _ => h2) (fun _ => State.writePlane_keeps _ _ _ _ _ h2)
  split
  · exact h0
  split
  · exact hv
  split
  · exact hg
  exact hcc _ _ _ _ (hcc _ _ _ _ h3)

theorem commitArrivalEffect_keeps (stack) (p) (mismatches) {u3 : State}
    (h3 : Keeps m l t r u3) :
    Keeps m l t r (commitArrivalEffect stack p mismatches u3) := by
  unfold commitArrivalEffect
  lift_lets
  extract_lets x n finish mm
  split
  · exact h3
  lift_lets
  extract_lets base out s1
  have hf : ∀ t0 gs, Keeps m l t r t0 → Keeps m l t r (finish t0 gs) := by
    intro t0 gs ht
    dsimp only [finish]
    exact State.groupArrive_keeps _ _ _ (State.putExport_keeps _ _ _ _ (State.modUep_keeps _ _ _ ht))
  have hm : Keeps m l t r mm.2 := State.passMismatches_keeps _ _ _ h3
  have ho : Keeps m l t r out.1.st := keeps_foldl_of (fun x : PassOut × List Segment => x.1.st) hm
    (fun _ _ hb => by
      dsimp only
      split
      · exact hb
      · exact applyShard_keeps _ _ _ _ hb)
  have h1 : Keeps m l t r s1 := State.setUeFlags_keeps _ _ ho
  refine keeps_ite (fun _ => h3) (fun _ => keeps_ite (fun _ => State.modUep_keeps _ _ _ h3) (fun _ => keeps_ite (fun _ => hf _ _ h3)
    (fun _ => keeps_ite (fun _ => hm) (fun _ => keeps_ite (fun _ => State.ueFault_keeps _ _ _ h1) (fun _ => hf _ _ (State.modUep_keeps _ _ _ h1))))))

theorem State.returnData_keeps {u0 : State} (c) (k) (idx) (a4)
    (h0 : Keeps m l t r u0) :
    Keeps m l t r (State.returnData u0 c k idx a4) := by
  unfold State.returnData
  dsimp only
  refine keeps_ite (fun _ => State.modCtx_keeps _ _ _ h0) (fun _ => State.feedEdge_keeps _ (State.modFabric_keeps _ ?_))
  cases hx : u0.cross a4.part (a4.stack / 6) (a4.link / 64) with
  | none => exact h0
  | some v => exact State.cross_keeps _ _ _ h0 hx

theorem descriptorCompleteEffect_keeps (c) (k) {u2 : State}
    (h2 : Keeps m l t r u2) :
    Keeps m l t r (descriptorCompleteEffect c k u2) := by
  unfold descriptorCompleteEffect
  try dsimp only
  repeat' first
      | with_reducible assumption | with_reducible apply State.haltCtx_keeps | with_reducible apply State.modCtx_keeps
      | with_reducible apply State.arrive_keeps | with_reducible apply State.addPend_keeps | with_reducible apply State.retest_keeps
      | simp only [↓keeps_mk] | with_reducible apply keeps_ite | with_reducible apply keeps_foldl | intro _
      | with_reducible apply keeps_foldl_snd | split | dsimp only

theorem streamResponseEffect_keeps (c) (k) {u2 : State}
    (h2 : Keeps m l t r u2) :
    Keeps m l t r (streamResponseEffect c k u2) := by
  unfold streamResponseEffect
  try dsimp only
  repeat' first
      | with_reducible assumption | with_reducible apply State.haltCtx_keeps | with_reducible apply State.modCtx_keeps
      | with_reducible apply State.countPoison_keeps | with_reducible apply State.stageWrite_keeps | simp only [↓keeps_mk]
      | with_reducible apply keeps_ite | intro _ | split | dsimp only

theorem burstCompleteEffect_keeps (stack) (pch) {u2 : State}
    (h2 : Keeps m l t r u2) :
    Keeps m l t r (burstCompleteEffect stack pch u2) := by
  unfold burstCompleteEffect
  try dsimp only
  repeat' first
      | with_reducible assumption | with_reducible apply State.modStore_keeps | with_reducible apply State.returnData_keeps
      | with_reducible apply State.modCtx_keeps | with_reducible apply State.modPort_keeps | with_reducible apply State.queueFrame_keeps
      | with_reducible apply State.hostDone_keeps | with_reducible apply State.emit_keeps | simp only [↓keeps_mk]
      | with_reducible apply keeps_ite | intro _ | split | dsimp only

theorem normPartialEffect_keeps (stack) (p) (mismatches) {u3 : State}
    (h3 : Keeps m l t r u3) :
    Keeps m l t r (normPartialEffect stack p mismatches u3) := by
  unfold normPartialEffect
  try dsimp only
  repeat' first
      | with_reducible assumption | with_reducible apply State.passMismatches_keeps | with_reducible apply State.readPlane_keeps
      | with_reducible apply State.ueFault_keeps | with_reducible apply State.setUeFlags_keeps | with_reducible apply State.count_keeps
      | with_reducible apply State.modUep_keeps | with_reducible apply State.modStack_keeps
      | with_reducible apply State.groupArrive_keeps | with_reducible apply (keeps_foldl_of (fun x : State × _ => x.1))
      | simp only [↓keeps_mk] | with_reducible apply keeps_ite | with_reducible apply keeps_foldl | intro _
      | with_reducible apply keeps_foldl_snd | split | dsimp only

theorem State.launch_keeps {u0 : State} (c) (k) (d) (ord) (i) (ws)
    (h0 : Keeps m l t r u0) :
    Keeps m l t r (State.launch u0 c k d ord i ws) := by
  unfold State.launch
  try dsimp only
  repeat' first
      | with_reducible assumption | with_reducible apply State.modCtx_keeps | with_reducible apply State.modPort_keeps
      | with_reducible apply State.queueFrame_keeps | with_reducible apply State.departFlits_keeps | simp only [↓keeps_mk]
      | with_reducible apply keeps_ite | intro _ | split | dsimp only

theorem State.sourceWords_keeps {u0 : State} (c k) (d) (n) {v} (h0 : Keeps m l t r u0) (hv : u0.sourceWords c k d n = some v) :
    Keeps m l t r v.2 := by
  unfold State.sourceWords at hv
  extract_lets x ws at hv
  by_cases hb : (x.banksBusy u0.clock.fab ws || u0.yields c k ws || u0.zeroBusy c) = true
  · rw [if_pos hb] at hv; cases hv
  rw [if_neg hb] at hv
  split at hv
  · cases hv; exact State.readWords_keeps _ _ (State.takeBanks_keeps _ _ h0)
  · split at hv
    · cases hv; exact State.circRead_keeps _ _ _ _ (State.takeBanks_keeps _ _ h0)
    · cases hv

theorem requestIssueEffect_keeps (c) (k) {u2 : State}
    (h2 : Keeps m l t r u2) :
    Keeps m l t r (requestIssueEffect c k u2) := by
  unfold requestIssueEffect
  try dsimp only
  repeat' first
      | with_reducible assumption | with_reducible apply State.haltCtx_keeps | with_reducible apply State.settle_keeps
      | with_reducible apply State.atPart_keeps | with_reducible apply State.checkCurrent_keeps
      | with_reducible apply State.modCtx_keeps | with_reducible apply State.launch_keeps | with_reducible apply State.countPoison_keeps
      | simp only [↓keeps_mk, ↓keeps_mk_trust, ↓keeps_mk_lease, ↓keeps_mk_map, ↓keeps_mk_lease0] | with_reducible apply keeps_ite
      | with_reducible apply keeps_foldl | intro _ | with_reducible apply keeps_foldl_snd | split | dsimp only
      | with_reducible refine State.sourceWords_keeps _ _ _ _ ?_ (by assumption)

theorem torusReleaseEffect_keeps (g) {u1 : State}
    (h1 : Keeps m l t r u1) :
    Keeps m l t r (torusReleaseEffect g u1) := by
  unfold torusReleaseEffect
  try dsimp only
  repeat' first
      | with_reducible assumption | with_reducible apply State.modGroup_keeps | simp only [↓keeps_mk] | with_reducible apply keeps_ite
      | intro _ | split | dsimp only

theorem stagedEffect_keeps (c) (circ) {u2 : State}
    (h2 : Keeps m l t r u2) :
    Keeps m l t r (stagedEffect c circ u2) := by
  unfold stagedEffect
  try dsimp only
  repeat' first
      | with_reducible assumption | with_reducible apply State.settle_keeps | with_reducible apply State.moveStaged_keeps
      | simp only [↓keeps_mk] | with_reducible apply keeps_ite | intro _ | split | dsimp only

theorem startDeliveredEffect_keeps (p) {u1 : State}
    (h1 : Keeps m l t r u1) :
    Keeps m l t r (startDeliveredEffect p u1) := by
  unfold startDeliveredEffect
  try dsimp only
  repeat' first
      | with_reducible assumption | with_reducible apply State.atFab_keeps | with_reducible apply State.eachCluster_keeps
      | with_reducible apply State.startContexts_keeps | with_reducible apply State.beginSteps_keeps
      | with_reducible apply State.modPart_keeps | with_reducible apply State.modIdle_keeps | with_reducible apply State.modBind_keeps
      | simp only [↓keeps_mk] | with_reducible apply keeps_ite | intro _ | split | dsimp only

theorem State.landLinesAt_keeps {u0 : State} (c) (a2) (vs) (conflict)
    (h0 : Keeps m l t r u0) :
    Keeps m l t r (State.landLinesAt u0 c a2 vs conflict) := by
  unfold State.landLinesAt
  try dsimp only
  repeat' first
      | with_reducible assumption | with_reducible apply State.lineConflict_keeps | with_reducible apply State.headPast_keeps
      | with_reducible apply State.writeCycle_keeps | with_reducible apply State.testWrite_keeps
      | with_reducible apply State.takeBanks_keeps | intro _ | dsimp only

theorem landingEffect_keeps (c) (d) (err) (conflict) {u4 : State}
    (h4 : Keeps m l t r u4) :
    Keeps m l t r (landingEffect c d err conflict u4) := by
  unfold landingEffect
  try dsimp only
  repeat' first
      | with_reducible assumption | with_reducible apply State.settle_keeps | with_reducible apply State.atFab_keeps
      | with_reducible apply State.modFabric_keeps | with_reducible apply State.landWords_keeps
      | with_reducible apply State.clusterFault_keeps | with_reducible apply State.landLinesAt_keeps
      | with_reducible apply State.circFault_keeps | with_reducible apply State.testWrite_keeps | simp only [↓keeps_mk]
      | with_reducible apply keeps_ite | intro _ | split | dsimp only

theorem execNormPartial_keeps (a0) (a1) (a2) {u3 : State} (h0 : Keeps m l t r u3) {v : State} (h : execNormPartial a0 a1 a2 u3 = .next v) : Keeps m l t r v := by
  unfold execNormPartial at h
  try unfold onStackPart at h
  try unfold onPartition at h
  try unfold onNumber at h
  try dsimp only at h
  repeat' split at h
  all_goals first | (simp only [Host.Outcome.next.injEq] at h; subst h) | cases h | skip
  all_goals repeat' first
      | with_reducible assumption | with_reducible apply normPartialEffect_keeps | with_reducible apply keeps_ite | intro _ | split
      | dsimp only

theorem execScheduledFlitArrival_keeps (a0) (a1) (a2) {u3 : State} (h0 : Keeps m l t r u3) {v : State} (h : execScheduledFlitArrival a0 a1 a2 u3 = .next v) : Keeps m l t r v := by
  unfold execScheduledFlitArrival at h
  try unfold onCluster at h
  try unfold onNumber at h
  try dsimp only at h
  repeat' split at h
  all_goals first | (simp only [Host.Outcome.next.injEq] at h; subst h) | cases h | skip
  all_goals repeat' first
      | with_reducible assumption | with_reducible apply flitArrivalEffect_keeps | with_reducible apply keeps_ite | intro _ | split
      | dsimp only

theorem execLocalStop_keeps (a0) (a1) {u2 : State} (h0 : Keeps m l t r u2) {v : State} (h : execLocalStop a0 a1 u2 = .next v) : Keeps m l t r v := by
  unfold execLocalStop at h
  try unfold onCluster at h
  try unfold onNumber at h
  try dsimp only at h
  repeat' split at h
  all_goals first | (simp only [Host.Outcome.next.injEq] at h; subst h) | cases h | skip
  all_goals repeat' first
      | with_reducible assumption | with_reducible apply State.raiseStop_keeps | with_reducible apply State.guardedBy_keeps
      | simp only [↓keeps_mk] | with_reducible apply keeps_ite | intro _ | split | dsimp only

theorem execStreamTimerExpiry_keeps (a0) (a1) {u2 : State} (h0 : Keeps m l t r u2) {v : State} (h : execStreamTimerExpiry a0 a1 u2 = .next v) : Keeps m l t r v := by
  unfold execStreamTimerExpiry at h
  try unfold onContext at h
  try unfold onCluster at h
  try unfold onNumber at h
  try dsimp only at h
  repeat' split at h
  all_goals first | (simp only [Host.Outcome.next.injEq] at h; subst h) | cases h | skip
  all_goals repeat' first
      | with_reducible assumption | with_reducible apply timerExpiryEffect_keeps | with_reducible apply keeps_ite | intro _ | split
      | dsimp only

theorem execCircWaitPass_keeps (a0) {u1 : State} (h0 : Keeps m l t r u1) {v : State} (h : execCircWaitPass a0 u1 = .next v) : Keeps m l t r v := by
  unfold execCircWaitPass at h
  try unfold onCluster at h
  try unfold onNumber at h
  try dsimp only at h
  repeat' split at h
  all_goals first | (simp only [Host.Outcome.next.injEq] at h; subst h) | cases h | skip
  all_goals repeat' first | with_reducible assumption | with_reducible apply stagedEffect_keeps | intro _ | dsimp only

theorem execScheduledLanding_keeps (a0) (a1) (a2) {u3 : State} (a4) (h0 : Keeps m l t r u3) {v : State} (h : execScheduledLanding a0 a1 a2 u3 a4 = .next v) : Keeps m l t r v := by
  unfold execScheduledLanding at h
  try unfold onCluster at h
  try unfold onNumber at h
  try dsimp only at h
  repeat' split at h
  all_goals first | (simp only [Host.Outcome.next.injEq] at h; subst h) | cases h | skip
  all_goals repeat' first
      | with_reducible assumption | with_reducible apply landingEffect_keeps | with_reducible apply keeps_ite | intro _ | split
      | dsimp only

theorem execStoreRoundGrant_keeps (a0) (a1) {u2 : State} (h0 : Keeps m l t r u2) {v : State} (h : execStoreRoundGrant a0 a1 u2 = .next v) : Keeps m l t r v := by
  unfold execStoreRoundGrant at h
  try unfold onPch at h
  try unfold onNumber at h
  try dsimp only at h
  repeat' split at h
  all_goals first | (simp only [Host.Outcome.next.injEq] at h; subst h) | cases h | skip
  all_goals repeat' first
      | with_reducible assumption | with_reducible apply roundGrantEffect_keeps | with_reducible apply keeps_ite | intro _ | split
      | dsimp only

theorem execRollForward_keeps (a0) (a1) {u2 : State} (h0 : Keeps m l t r u2) {v : State} (h : execRollForward a0 a1 u2 = .next v) : Keeps m l t r v := by
  unfold execRollForward at h
  try unfold onPartition at h
  try unfold onNumber at h
  try dsimp only at h
  repeat' split at h
  all_goals first | (simp only [Host.Outcome.next.injEq] at h; subst h) | cases h | skip
  all_goals repeat' first
      | with_reducible assumption | with_reducible apply State.guarded_keeps | with_reducible apply State.rollForward_keeps | intro _
      | dsimp only

theorem execStreamSend_keeps (a0) (a1) {u2 : State} (h0 : Keeps m l t r u2) {v : State} (h : execStreamSend a0 a1 u2 = .next v) : Keeps m l t r v := by
  unfold execStreamSend at h
  try unfold onContext at h
  try unfold onCluster at h
  try unfold onNumber at h
  try dsimp only at h
  repeat' split at h
  all_goals first | (simp only [Host.Outcome.next.injEq] at h; subst h) | cases h | skip
  all_goals repeat' first
      | with_reducible assumption | with_reducible apply streamActivate_keeps | with_reducible apply keeps_ite | intro _ | split
      | dsimp only

theorem execReduceContribution_keeps (a0) (a1) (a2) {u3 : State} (h0 : Keeps m l t r u3) {v : State} (h : execReduceContribution a0 a1 a2 u3 = .next v) : Keeps m l t r v := by
  unfold execReduceContribution at h
  try unfold onPch at h
  try unfold onNumber at h
  try dsimp only at h
  repeat' split at h
  all_goals first | (simp only [Host.Outcome.next.injEq] at h; subst h) | cases h | skip
  all_goals repeat' first
      | with_reducible assumption | with_reducible apply contributionEffect_keeps | with_reducible apply keeps_ite | intro _ | split
      | dsimp only

theorem execStreamStore_keeps (a0) (a1) {u2 : State} (h0 : Keeps m l t r u2) {v : State} (h : execStreamStore a0 a1 u2 = .next v) : Keeps m l t r v := by
  unfold execStreamStore at h
  try unfold onContext at h
  try unfold onCluster at h
  try unfold onNumber at h
  try dsimp only at h
  repeat' split at h
  all_goals first | (simp only [Host.Outcome.next.injEq] at h; subst h) | cases h | skip
  all_goals repeat' first
      | with_reducible assumption | with_reducible apply streamActivate_keeps | with_reducible apply keeps_ite | intro _ | split
      | dsimp only

theorem execStreamResponse_keeps (a0) (a1) {u2 : State} (h0 : Keeps m l t r u2) {v : State} (h : execStreamResponse a0 a1 u2 = .next v) : Keeps m l t r v := by
  unfold execStreamResponse at h
  try unfold onContext at h
  try unfold onCluster at h
  try unfold onNumber at h
  try dsimp only at h
  repeat' split at h
  all_goals first | (simp only [Host.Outcome.next.injEq] at h; subst h) | cases h | skip
  all_goals repeat' first
      | with_reducible assumption | with_reducible apply streamResponseEffect_keeps | with_reducible apply keeps_ite | intro _ | split
      | dsimp only

theorem execStreamLoad_keeps (a0) (a1) {u2 : State} (h0 : Keeps m l t r u2) {v : State} (h : execStreamLoad a0 a1 u2 = .next v) : Keeps m l t r v := by
  unfold execStreamLoad at h
  try unfold onContext at h
  try unfold onCluster at h
  try unfold onNumber at h
  try dsimp only at h
  repeat' split at h
  all_goals first | (simp only [Host.Outcome.next.injEq] at h; subst h) | cases h | skip
  all_goals repeat' first
      | with_reducible assumption | with_reducible apply streamActivate_keeps | with_reducible apply keeps_ite | intro _ | split
      | dsimp only

theorem execPartitionStopDelivered_keeps (a0) {u1 : State} (h0 : Keeps m l t r u1) {v : State} (h : execPartitionStopDelivered a0 u1 = .next v) : Keeps m l t r v := by
  unfold execPartitionStopDelivered at h
  try unfold onPartition at h
  try unfold onNumber at h
  try dsimp only at h
  repeat' split at h
  all_goals first | (simp only [Host.Outcome.next.injEq] at h; subst h) | cases h | skip
  all_goals repeat' first | with_reducible assumption | with_reducible apply stopDeliveredEffect_keeps | intro _ | dsimp only

theorem execExportWaitEnd_keeps (a0) (a1) {u2 : State} (h0 : Keeps m l t r u2) {v : State} (h : execExportWaitEnd a0 a1 u2 = .next v) : Keeps m l t r v := by
  unfold execExportWaitEnd at h
  try unfold onStackPart at h
  try unfold onPartition at h
  try unfold onNumber at h
  try dsimp only at h
  repeat' split at h
  all_goals first | (simp only [Host.Outcome.next.injEq] at h; subst h) | cases h | skip
  all_goals repeat' first
      | with_reducible assumption | with_reducible apply exportWaitEffect_keeps | with_reducible apply keeps_ite | intro _ | split
      | dsimp only

theorem execElasticCreditReturn_keeps (a0) (a1) (a2) {u3 : State} (h0 : Keeps m l t r u3) {v : State} (h : execElasticCreditReturn a0 a1 a2 u3 = .next v) : Keeps m l t r v := by
  unfold execElasticCreditReturn at h
  try unfold onCluster at h
  try unfold onNumber at h
  try dsimp only at h
  repeat' split at h
  all_goals first | (simp only [Host.Outcome.next.injEq] at h; subst h) | cases h | skip
  all_goals repeat' first
      | with_reducible assumption | with_reducible apply creditReturnEffect_keeps | with_reducible apply keeps_ite | intro _ | split
      | dsimp only

theorem execElasticFlitSend_keeps (a0) (a1) (a2) {u3 : State} (a4) (h0 : Keeps m l t r u3) {v : State} (h : execElasticFlitSend a0 a1 a2 u3 a4 = .next v) : Keeps m l t r v := by
  unfold execElasticFlitSend at h
  try unfold onCluster at h
  try unfold onNumber at h
  try dsimp only at h
  repeat' split at h
  all_goals first | (simp only [Host.Outcome.next.injEq] at h; subst h) | cases h | skip
  all_goals repeat' first
      | with_reducible assumption | with_reducible apply elasticSendEffect_keeps | with_reducible apply keeps_ite | intro _ | split
      | dsimp only

theorem execStreamReduce_keeps (a0) (a1) {u2 : State} (h0 : Keeps m l t r u2) {v : State} (h : execStreamReduce a0 a1 u2 = .next v) : Keeps m l t r v := by
  unfold execStreamReduce at h
  try unfold onContext at h
  try unfold onCluster at h
  try unfold onNumber at h
  try dsimp only at h
  repeat' split at h
  all_goals first | (simp only [Host.Outcome.next.injEq] at h; subst h) | cases h | skip
  all_goals repeat' first
      | with_reducible assumption | with_reducible apply streamActivate_keeps | with_reducible apply keeps_ite | intro _ | split
      | dsimp only

theorem execElasticLanding_keeps (a0) (a1) (a2) {u3 : State} (a4) (h0 : Keeps m l t r u3) {v : State} (h : execElasticLanding a0 a1 a2 u3 a4 = .next v) : Keeps m l t r v := by
  unfold execElasticLanding at h
  try unfold onCluster at h
  try unfold onNumber at h
  try dsimp only at h
  repeat' split at h
  all_goals first | (simp only [Host.Outcome.next.injEq] at h; subst h) | cases h | skip
  all_goals repeat' first
      | with_reducible assumption | with_reducible apply elasticLandEffect_keeps | with_reducible apply keeps_ite | intro _ | split
      | dsimp only

theorem execStretchChange_keeps {u0 : State} (h0 : Keeps m l t r u0) {v : State} (h : execStretchChange u0 = .next v) : Keeps m l t r v := by
  unfold execStretchChange at h
  try dsimp only at h
  repeat' split at h
  all_goals first | (simp only [Host.Outcome.next.injEq] at h; subst h) | cases h | skip
  all_goals repeat' first
      | with_reducible assumption | with_reducible apply State.advance_keeps | with_reducible apply keeps_ite | intro _ | split
      | dsimp only

theorem execUnload_keeps (a0) (a1) {u2 : State} (h0 : Keeps m l t r u2) {v : State} (h : execUnload a0 a1 u2 = .next v) : Keeps m l t r v := by
  unfold execUnload at h
  try unfold onCluster at h
  try unfold onNumber at h
  try dsimp only at h
  repeat' split at h
  all_goals first | (simp only [Host.Outcome.next.injEq] at h; subst h) | cases h | skip
  all_goals repeat' first
      | with_reducible assumption | with_reducible apply unloadEffect_keeps | with_reducible apply State.guardedBy_keeps | intro _
      | dsimp only

theorem execPartPrioWrite_keeps (a0) (a1) (a2) {u3 : State} (h0 : Keeps m l t r u3) {v : State} (h : execPartPrioWrite a0 a1 a2 u3 = .next v) : Keeps m l t r v := by
  unfold execPartPrioWrite at h
  try unfold onNumber at h
  try dsimp only at h
  repeat' split at h
  all_goals first | (simp only [Host.Outcome.next.injEq] at h; subst h) | cases h | skip
  all_goals repeat' first
      | with_reducible assumption | with_reducible apply State.setPrio_keeps | with_reducible apply State.guardedBy_keeps
      | with_reducible apply keeps_ite | intro _ | split | dsimp only

theorem execLaneMapUpdate_keeps (a0) (a1) (a2) (a3) {u4 : State} (h0 : Keeps m l t r u4) {v : State} (h : execLaneMapUpdate a0 a1 a2 a3 u4 = .next v) : Keeps m l t r v := by
  unfold execLaneMapUpdate at h
  try dsimp only at h
  repeat' split at h
  all_goals first | (simp only [Host.Outcome.next.injEq] at h; subst h) | cases h | skip
  all_goals repeat' first
      | with_reducible assumption | with_reducible apply laneMapEffect_keeps | with_reducible apply keeps_ite | intro _ | split
      | dsimp only

theorem execStreamDrainComplete_keeps (a0) (a1) {u2 : State} (h0 : Keeps m l t r u2) {v : State} (h : execStreamDrainComplete a0 a1 u2 = .next v) : Keeps m l t r v := by
  unfold execStreamDrainComplete at h
  try unfold onContext at h
  try unfold onCluster at h
  try unfold onNumber at h
  try dsimp only at h
  repeat' split at h
  all_goals first | (simp only [Host.Outcome.next.injEq] at h; subst h) | cases h | skip
  all_goals repeat' first
      | with_reducible assumption | with_reducible apply drainCompleteEffect_keeps | with_reducible apply keeps_ite | intro _ | split
      | dsimp only

theorem execFabricControlWrite_keeps (a0) (a1) (a2) {u3 : State} (h0 : Keeps m l t r u3) {v : State} (h : execFabricControlWrite a0 a1 a2 u3 = .next v) : Keeps m l t r v := by
  unfold execFabricControlWrite at h
  try dsimp only at h
  repeat' split at h
  all_goals first | (simp only [Host.Outcome.next.injEq] at h; subst h) | cases h | skip
  all_goals repeat' first
      | with_reducible assumption | with_reducible apply fabricWriteEffect_keeps | with_reducible apply State.guardedBy_keeps | intro _
      | dsimp only

theorem execStreamRequestIssue_keeps (a0) (a1) {u2 : State} (h0 : Keeps m l t r u2) {v : State} (h : execStreamRequestIssue a0 a1 u2 = .next v) : Keeps m l t r v := by
  unfold execStreamRequestIssue at h
  try unfold onContext at h
  try unfold onCluster at h
  try unfold onNumber at h
  try dsimp only at h
  repeat' split at h
  all_goals first | (simp only [Host.Outcome.next.injEq] at h; subst h) | cases h | skip
  all_goals repeat' first
      | with_reducible assumption | with_reducible apply requestIssueEffect_keeps | with_reducible apply keeps_ite | intro _ | split
      | dsimp only

theorem execRemapSwitch_keeps (a0) (a1) (a2) (a3) (a4) {u5 : State} (h0 : Keeps m l t r u5) {v : State} (h : execRemapSwitch a0 a1 a2 a3 a4 u5 = .next v) : Keeps m l t r v := by
  unfold execRemapSwitch at h
  try unfold onNumber at h
  try dsimp only at h
  repeat' split at h
  all_goals first | (simp only [Host.Outcome.next.injEq] at h; subst h) | cases h | skip
  all_goals repeat' first
      | with_reducible assumption | with_reducible apply State.saveGuards_keeps | with_reducible apply remapEffect_keeps
      | with_reducible apply keeps_ite | intro _ | split | dsimp only

theorem execCommitArrival_keeps (a0) (a1) (a2) {u3 : State} (h0 : Keeps m l t r u3) {v : State} (h : execCommitArrival a0 a1 a2 u3 = .next v) : Keeps m l t r v := by
  unfold execCommitArrival at h
  try unfold onStackPart at h
  try unfold onPartition at h
  try unfold onNumber at h
  try dsimp only at h
  repeat' split at h
  all_goals first | (simp only [Host.Outcome.next.injEq] at h; subst h) | cases h | skip
  all_goals repeat' first
      | with_reducible assumption | with_reducible apply commitArrivalEffect_keeps | with_reducible apply keeps_ite | intro _ | split
      | dsimp only

theorem execRollBack_keeps (a0) (a1) {u2 : State} (h0 : Keeps m l t r u2) {v : State} (h : execRollBack a0 a1 u2 = .next v) : Keeps m l t r v := by
  unfold execRollBack at h
  try unfold onPartition at h
  try unfold onNumber at h
  try dsimp only at h
  repeat' split at h
  all_goals first | (simp only [Host.Outcome.next.injEq] at h; subst h) | cases h | skip
  all_goals repeat' first
      | with_reducible assumption | with_reducible apply State.guarded_keeps | with_reducible apply State.rollBack_keeps | intro _
      | dsimp only

theorem execStreamDescriptorComplete_keeps (a0) (a1) {u2 : State} (h0 : Keeps m l t r u2) {v : State} (h : execStreamDescriptorComplete a0 a1 u2 = .next v) : Keeps m l t r v := by
  unfold execStreamDescriptorComplete at h
  try unfold onContext at h
  try unfold onCluster at h
  try unfold onNumber at h
  try dsimp only at h
  repeat' split at h
  all_goals first | (simp only [Host.Outcome.next.injEq] at h; subst h) | cases h | skip
  all_goals repeat' first
      | with_reducible assumption | with_reducible apply descriptorCompleteEffect_keeps | with_reducible apply keeps_ite | intro _
      | split | dsimp only

theorem execCommit_keeps (a0) {u1 : State} (h0 : Keeps m l t r u1) {v : State} (h : execCommit a0 u1 = .next v) : Keeps m l t r v := by
  unfold execCommit at h
  try unfold onPartition at h
  try unfold onNumber at h
  try dsimp only at h
  repeat' split at h
  all_goals first | (simp only [Host.Outcome.next.injEq] at h; subst h) | cases h | skip
  all_goals repeat' first
      | with_reducible assumption | with_reducible apply State.writeRecords_keeps | simp only [↓keeps_mk] | intro _ | dsimp only

theorem execLocalReleaseDelivered_keeps (a0) {u1 : State} (h0 : Keeps m l t r u1) {v : State} (h : execLocalReleaseDelivered a0 u1 = .next v) : Keeps m l t r v := by
  unfold execLocalReleaseDelivered at h
  try unfold onSync at h
  try unfold onNumber at h
  try dsimp only at h
  repeat' split at h
  all_goals first | (simp only [Host.Outcome.next.injEq] at h; subst h) | cases h | skip
  all_goals repeat' first | with_reducible assumption | with_reducible apply localReleaseEffect_keeps | intro _ | dsimp only

theorem execStoreBurstComplete_keeps (a0) (a1) {u2 : State} (h0 : Keeps m l t r u2) {v : State} (h : execStoreBurstComplete a0 a1 u2 = .next v) : Keeps m l t r v := by
  unfold execStoreBurstComplete at h
  try unfold onPch at h
  try unfold onNumber at h
  try dsimp only at h
  repeat' split at h
  all_goals first | (simp only [Host.Outcome.next.injEq] at h; subst h) | cases h | skip
  all_goals repeat' first
      | with_reducible assumption | with_reducible apply burstCompleteEffect_keeps | with_reducible apply keeps_ite | intro _ | split
      | dsimp only

theorem execCommitRecordWritten_keeps (a0) {u1 : State} (h0 : Keeps m l t r u1) {v : State} (h : execCommitRecordWritten a0 u1 = .next v) : Keeps m l t r v := by
  unfold execCommitRecordWritten at h
  try unfold onPartition at h
  try unfold onNumber at h
  try dsimp only at h
  repeat' split at h
  all_goals first | (simp only [Host.Outcome.next.injEq] at h; subst h) | cases h | skip
  all_goals repeat' first
      | with_reducible assumption | with_reducible apply State.afterCommit_keeps | with_reducible apply keeps_ite | intro _ | split
      | dsimp only

theorem execTouchedClearDone_keeps (a0) {u1 : State} (h0 : Keeps m l t r u1) {v : State} (h : execTouchedClearDone a0 u1 = .next v) : Keeps m l t r v := by
  unfold execTouchedClearDone at h
  try unfold onPartition at h
  try unfold onNumber at h
  try dsimp only at h
  repeat' split at h
  all_goals first | (simp only [Host.Outcome.next.injEq] at h; subst h) | cases h | skip
  all_goals repeat' first | with_reducible assumption | with_reducible apply touchedClearEffect_keeps | intro _ | dsimp only

theorem execSpineReleaseDelivered_keeps (a0) {u1 : State} (h0 : Keeps m l t r u1) {v : State} (h : execSpineReleaseDelivered a0 u1 = .next v) : Keeps m l t r v := by
  unfold execSpineReleaseDelivered at h
  try unfold onGroup at h
  try unfold onNumber at h
  try dsimp only at h
  repeat' split at h
  all_goals first | (simp only [Host.Outcome.next.injEq] at h; subst h) | cases h | skip
  all_goals repeat' first | with_reducible assumption | with_reducible apply spineReleaseEffect_keeps | intro _ | dsimp only

theorem execLinkLost_keeps (a0) (a1) {u2 : State} (h0 : Keeps m l t r u2) {v : State} (h : execLinkLost a0 a1 u2 = .next v) : Keeps m l t r v := by
  unfold execLinkLost at h
  try unfold onCluster at h
  try unfold onNumber at h
  try dsimp only at h
  repeat' split at h
  all_goals first | (simp only [Host.Outcome.next.injEq] at h; subst h) | cases h | skip
  all_goals repeat' first
      | with_reducible assumption | with_reducible apply linkLostEffect_keeps | with_reducible apply keeps_ite | intro _ | split
      | dsimp only

theorem execStoreReadRetry_keeps (a0) (a1) {u2 : State} (h0 : Keeps m l t r u2) {v : State} (h : execStoreReadRetry a0 a1 u2 = .next v) : Keeps m l t r v := by
  unfold execStoreReadRetry at h
  try unfold onPch at h
  try unfold onNumber at h
  try dsimp only at h
  repeat' split at h
  all_goals first | (simp only [Host.Outcome.next.injEq] at h; subst h) | cases h | skip
  all_goals repeat' first
      | with_reducible assumption | with_reducible apply readRetryEffect_keeps | with_reducible apply keeps_ite | intro _ | split
      | dsimp only

theorem execUnscheduledAccess_keeps (a0) {u1 : State} (h0 : Keeps m l t r u1) {v : State} (h : execUnscheduledAccess a0 u1 = .next v) : Keeps m l t r v := by
  unfold execUnscheduledAccess at h
  try unfold onCluster at h
  try unfold onNumber at h
  try dsimp only at h
  repeat' split at h
  all_goals first | (simp only [Host.Outcome.next.injEq] at h; subst h) | cases h | skip
  all_goals repeat' first | with_reducible assumption | with_reducible apply stagedEffect_keeps | intro _ | dsimp only

theorem execClearStartBlocked_keeps (a0) (a1) {u2 : State} (h0 : Keeps m l t r u2) {v : State} (h : execClearStartBlocked a0 a1 u2 = .next v) : Keeps m l t r v := by
  unfold execClearStartBlocked at h
  try unfold onPartition at h
  try unfold onNumber at h
  try dsimp only at h
  repeat' split at h
  all_goals first | (simp only [Host.Outcome.next.injEq] at h; subst h) | cases h | skip
  all_goals repeat' first
      | with_reducible assumption | with_reducible apply State.guarded_keeps | with_reducible apply State.clearBlocked_keeps | intro _
      | dsimp only

theorem execScheduledDeparture_keeps (a0) (a1) (a2) {u3 : State} (a4) (h0 : Keeps m l t r u3) {v : State} (h : execScheduledDeparture a0 a1 a2 u3 a4 = .next v) : Keeps m l t r v := by
  unfold execScheduledDeparture at h
  try unfold onCluster at h
  try unfold onNumber at h
  try dsimp only at h
  repeat' split at h
  all_goals first | (simp only [Host.Outcome.next.injEq] at h; subst h) | cases h | skip
  all_goals repeat' first
      | with_reducible assumption | with_reducible apply departureEffect_keeps | with_reducible apply keeps_ite | intro _ | split
      | dsimp only

theorem execIdleIntervalEnd_keeps (a0) {u1 : State} (h0 : Keeps m l t r u1) {v : State} (h : execIdleIntervalEnd a0 u1 = .next v) : Keeps m l t r v := by
  unfold execIdleIntervalEnd at h
  try unfold onPartition at h
  try unfold onNumber at h
  try dsimp only at h
  repeat' split at h
  all_goals first | (simp only [Host.Outcome.next.injEq] at h; subst h) | cases h | skip
  all_goals repeat' first | with_reducible assumption | with_reducible apply intervalEndEffect_keeps | intro _ | dsimp only

theorem execSpineGroupArrival_keeps (a0) {u1 : State} (h0 : Keeps m l t r u1) {v : State} (h : execSpineGroupArrival a0 u1 = .next v) : Keeps m l t r v := by
  unfold execSpineGroupArrival at h
  try unfold onSync at h
  try unfold onNumber at h
  try dsimp only at h
  repeat' split at h
  all_goals first | (simp only [Host.Outcome.next.injEq] at h; subst h) | cases h | skip
  all_goals repeat' first | with_reducible assumption | with_reducible apply groupArrivalEffect_keeps | intro _ | dsimp only

theorem execSyncArrival_keeps (a0) (a1) {u2 : State} (a3) (h0 : Keeps m l t r u2) {v : State} (h : execSyncArrival a0 a1 u2 a3 = .next v) : Keeps m l t r v := by
  unfold execSyncArrival at h
  try unfold onSync at h
  try unfold onNumber at h
  try dsimp only at h
  repeat' split at h
  all_goals first | (simp only [Host.Outcome.next.injEq] at h; subst h) | cases h | skip
  all_goals repeat' first
      | with_reducible assumption | with_reducible apply State.tableParity_keeps | with_reducible apply State.arrive_keeps
      | simp only [↓keeps_mk] | with_reducible apply keeps_ite | intro _ | split | dsimp only

theorem execTorusReleaseAtRoot_keeps (a0) {u1 : State} (h0 : Keeps m l t r u1) {v : State} (h : execTorusReleaseAtRoot a0 u1 = .next v) : Keeps m l t r v := by
  unfold execTorusReleaseAtRoot at h
  try unfold onGroup at h
  try unfold onNumber at h
  try dsimp only at h
  repeat' split at h
  all_goals first | (simp only [Host.Outcome.next.injEq] at h; subst h) | cases h | skip
  all_goals repeat' first | with_reducible assumption | with_reducible apply torusReleaseEffect_keeps | intro _ | dsimp only

theorem execPartitionStopped_keeps (a0) {u1 : State} (h0 : Keeps m l t r u1) {v : State} (h : execPartitionStopped a0 u1 = .next v) : Keeps m l t r v := by
  unfold execPartitionStopped at h
  try unfold onPartition at h
  try unfold onNumber at h
  try dsimp only at h
  repeat' split at h
  all_goals first | (simp only [Host.Outcome.next.injEq] at h; subst h) | cases h | skip
  all_goals repeat' first | with_reducible assumption | with_reducible apply partitionStoppedEffect_keeps | intro _ | dsimp only

theorem execPartitionStartDelivered_keeps (a0) {u1 : State} (h0 : Keeps m l t r u1) {v : State} (h : execPartitionStartDelivered a0 u1 = .next v) : Keeps m l t r v := by
  unfold execPartitionStartDelivered at h
  try unfold onPartition at h
  try unfold onNumber at h
  try dsimp only at h
  repeat' split at h
  all_goals first | (simp only [Host.Outcome.next.injEq] at h; subst h) | cases h | skip
  all_goals repeat' first | with_reducible assumption | with_reducible apply startDeliveredEffect_keeps | intro _ | dsimp only

theorem execStoreRequestArrival_keeps (a0) (a1) {u2 : State} (h0 : Keeps m l t r u2) {v : State} (h : execStoreRequestArrival a0 a1 u2 = .next v) : Keeps m l t r v := by
  unfold execStoreRequestArrival at h
  try unfold onNumber at h
  try dsimp only at h
  repeat' split at h
  all_goals first | (simp only [Host.Outcome.next.injEq] at h; subst h) | cases h | skip
  all_goals repeat' first
      | with_reducible assumption | with_reducible apply State.drainHeld_keeps | with_reducible apply requestArrivalEffect_keeps
      | with_reducible apply keeps_ite | with_reducible apply keeps_foldl | intro _ | with_reducible apply keeps_foldl_snd | split
      | dsimp only

end Sys2Proof.Machine
end

