-- ==== Sys2Proof/Laws/KeepsPorts.lean ====
section
/-! SUPPORT. What an operation leaves alone (Keeps), lemma by lemma for torus, optical ports, retirement, binding loads, the host and the servers. -/

namespace Sys2Proof.Machine

open Sys2Proof

set_option Elab.async false
set_option linter.unusedSimpArgs false
set_option linter.unusedVariables false

variable {m l t : Bool} {r s : State}

theorem State.exhaust_keeps {u0 : State} (ps) (element)
    (h0 : Keeps m l t r u0) :
    Keeps m l t r (State.exhaust u0 ps element) := by
  unfold State.exhaust
  try dsimp only
  repeat' first
      | with_reducible assumption | with_reducible apply State.closeRecord_keeps | with_reducible apply State.raiseEvent_keeps
      | simp only [↓keeps_mk] | with_reducible apply keeps_ite | intro _ | split | dsimp only

theorem State.retireSlot_keeps {u0 v : State} (slot) (h0 : Keeps m l t r u0) (hv : u0.retireSlot slot = some v) : Keeps m l t r v := by
  unfold State.retireSlot at hv
  dsimp only at hv
  repeat' split at hv
  all_goals simp only [Option.some.injEq, reduceCtorEq] at hv
  all_goals subst hv
  · exact State.modFabric_keeps _ h0
  · exact remapEffect_keeps _ _ _ _ _ h0

theorem State.retireSlots_keeps {u0 v : State} (slots) (h0 : Keeps m l t r u0) (hv : u0.retireSlots slots = some v) : Keeps m l t r v := by
  induction slots generalizing u0 with
  | nil => cases hv; exact h0
  | cons x xs ih =>
    unfold State.retireSlots at hv
    split at hv
    · simp at hv
    · rename_i w hw; exact ih (State.retireSlot_keeps _ h0 hw) hv

theorem State.applySlot_keeps {u0 : State} (element) (slots)
    (h0 : Keeps m l t r u0) :
    Keeps m l t r (State.applySlot u0 element slots) := by
  unfold State.applySlot
  split
  · rename_i v hv; exact State.closeRecord_keeps _ _ _ (State.retireSlots_keeps _ h0 hv)
  · exact State.exhaust_keeps _ _ h0

theorem State.retireStack_keeps {u0 : State} (k)
    (h0 : Keeps m l t r u0) :
    Keeps m l t r (State.retireStack u0 k) := by
  unfold State.retireStack
  try dsimp only
  repeat' first | with_reducible assumption | with_reducible apply State.modStack_keeps | simp only [↓keeps_mk] | intro _ | dsimp only

theorem State.applyStack_keeps {u0 : State} (element)
    (h0 : Keeps m l t r u0) :
    Keeps m l t r (State.applyStack u0 element) := by
  unfold State.applyStack
  try dsimp only
  repeat' first
      | with_reducible assumption | with_reducible apply State.closeRecord_keeps | with_reducible apply State.retireStack_keeps
      | with_reducible apply State.exhaust_keeps | simp only [↓keeps_mk] | with_reducible apply keeps_ite | intro _ | split | dsimp only

theorem State.copyPage_keeps {u0 : State} (stack) (src) (dst)
    (h0 : Keeps m l t r u0) :
    Keeps m l t r (State.copyPage u0 stack src dst) := by
  unfold State.copyPage
  try dsimp only
  repeat' first
      | with_reducible assumption | with_reducible apply State.putBlock_keeps | with_reducible apply State.zeroPage_keeps
      | with_reducible apply keeps_foldl | intro _ | with_reducible apply keeps_foldl_snd | dsimp only

theorem State.applyPage_keeps {u0 : State} (element)
    (h0 : Keeps m l t r u0) :
    Keeps m l t r (State.applyPage u0 element) := by
  unfold State.applyPage
  try dsimp only
  repeat' first
      | with_reducible assumption | with_reducible apply State.exhaust_keeps | with_reducible apply State.copyPage_keeps
      | with_reducible apply State.modStack_keeps | with_reducible apply State.closeRecord_keeps
      | with_reducible apply State.modPage_keeps | simp only [↓keeps_mk] | with_reducible apply keeps_ite | intro _ | split | dsimp only

theorem State.applyCore_keeps {u0 : State} (element)
    (h0 : Keeps m l t r u0) :
    Keeps m l t r (State.applyCore u0 element) := by
  unfold State.applyCore
  try dsimp only
  repeat' first
      | with_reducible assumption | with_reducible apply State.closeRecord_keeps | with_reducible apply State.modCluster_keeps
      | with_reducible apply State.applySlot_keeps | simp only [↓keeps_mk] | with_reducible apply keeps_ite | intro _ | split
      | dsimp only

theorem State.applyPort_keeps {u0 : State} (p) (element)
    (h0 : Keeps m l t r u0) :
    Keeps m l t r (State.applyPort u0 p element) := by
  unfold State.applyPort
  try dsimp only
  repeat' first
      | with_reducible assumption | with_reducible apply State.closeRecord_keeps | with_reducible apply State.modPort_keeps
      | with_reducible apply State.exhaust_keeps | simp only [↓keeps_mk] | with_reducible apply keeps_ite | intro _ | split | dsimp only

theorem State.applyRetirement_keeps {u0 : State} (p) (a2)
    (h0 : Keeps m l t r u0) :
    Keeps m l t r (State.applyRetirement u0 p a2) := by
  unfold State.applyRetirement
  try dsimp only
  repeat' first
      | with_reducible assumption | with_reducible apply State.exhaust_keeps | with_reducible apply State.applySlot_keeps
      | with_reducible apply State.modDomain_keeps | with_reducible apply State.applyStack_keeps
      | with_reducible apply State.applyPage_keeps | with_reducible apply State.applyCore_keeps
      | with_reducible apply State.applyPort_keeps | simp only [↓keeps_mk] | with_reducible apply keeps_ite | intro _ | split
      | dsimp only

theorem State.applyPending_keeps {u0 : State} (p) (test)
    (h0 : Keeps m l t r u0) :
    Keeps m l t r (State.applyPending u0 p test) := by
  unfold State.applyPending
  try dsimp only
  repeat' first
      | with_reducible assumption | with_reducible apply State.applyRetirement_keeps | with_reducible apply keeps_foldl | intro _
      | with_reducible apply keeps_foldl_snd | dsimp only

theorem State.useSeal_keeps {u0 : State} (q) (dir) (e)
    (h0 : Keeps m l t r u0) :
    Keeps m l t r (State.useSeal u0 q dir e) := by
  unfold State.useSeal
  try dsimp only
  repeat' first | with_reducible assumption | simp only [↓keeps_mk] | with_reducible apply keeps_ite | intro _ | split | dsimp only

theorem State.dropJob_keeps {u0 : State} (q)
    (h0 : Keeps m l t r u0) :
    Keeps m l t r (State.dropJob u0 q) := by
  unfold State.dropJob
  try dsimp only
  repeat' first
      | with_reducible assumption | with_reducible apply State.modStore_keeps | with_reducible apply State.modHostQ_keeps
      | with_reducible apply State.modFabric_keeps | simp only [↓keeps_mk] | with_reducible apply keeps_ite | intro _ | split
      | dsimp only

theorem State.disableQueue_keeps {u0 : State} (q) (cause)
    (h0 : Keeps m l t r u0) :
    Keeps m l t r (State.disableQueue u0 q cause) := by
  unfold State.disableQueue
  try dsimp only
  repeat' first
      | with_reducible assumption | with_reducible apply State.modHostQ_keeps | with_reducible apply State.dropJob_keeps
      | simp only [↓keeps_mk] | intro _ | dsimp only

theorem State.writeCompletion_keeps {u0 : State} (q) (status) (moved) (poison) (mixed) (e)
    (h0 : Keeps m l t r u0) :
    Keeps m l t r (State.writeCompletion u0 q status moved poison mixed e) := by
  unfold State.writeCompletion
  try dsimp only
  repeat' first
      | with_reducible assumption | with_reducible apply State.emit_keeps | with_reducible apply State.disableQueue_keeps
      | with_reducible apply State.modHostQ_keeps | simp only [↓keeps_mk] | with_reducible apply keeps_ite | intro _ | split
      | dsimp only

theorem State.disableOwnerQueues_keeps {u0 : State} (p)
    (h0 : Keeps m l t r u0) :
    Keeps m l t r (State.disableOwnerQueues u0 p) := by
  unfold State.disableOwnerQueues
  try dsimp only
  repeat' first
      | with_reducible assumption | with_reducible apply State.writeCompletion_keeps | with_reducible apply State.emit_keeps
      | with_reducible apply State.disableQueue_keeps | simp only [↓keeps_mk] | with_reducible apply keeps_ite
      | with_reducible apply keeps_foldl | intro _ | with_reducible apply keeps_foldl_snd | split | dsimp only

theorem handshakeEffect_keeps (p) (peer) (peerHash) (sigOk) {u4 : State}
    (h4 : Keeps m l t r u4) :
    Keeps m l t r (handshakeEffect p peer peerHash sigOk u4) := by
  unfold handshakeEffect
  try dsimp only
  repeat' first
      | with_reducible assumption | with_reducible apply State.modSrv_keeps | simp only [↓keeps_mk] | with_reducible apply keeps_ite
      | intro _ | split | dsimp only

theorem State.modServer_keeps {u0 : State} (f)
    (h0 : Keeps m l t r u0) :
    Keeps m l t r (State.modServer u0 f) := by
  unfold State.modServer
  try dsimp only
  repeat' first | with_reducible assumption | simp only [↓keeps_mk] | intro _ | dsimp only

theorem stallEffect_keeps (p) {u1 : State}
    (h1 : Keeps m l t r u1) :
    Keeps m l t r (stallEffect p u1) := by
  unfold stallEffect
  try dsimp only
  repeat' first
      | with_reducible assumption | with_reducible apply State.atNs_keeps | with_reducible apply State.raiseEvent_keeps
      | with_reducible apply State.modServer_keeps | simp only [↓keeps_mk] | with_reducible apply keeps_ite | intro _ | split
      | dsimp only

theorem State.modTime_keeps {u0 : State} (f)
    (h0 : Keeps m l t r u0) :
    Keeps m l t r (State.modTime u0 f) := by
  unfold State.modTime
  try dsimp only
  repeat' first | with_reducible assumption | simp only [↓keeps_mk] | intro _ | dsimp only

theorem State.timeEvent_keeps {u0 : State}
    (h0 : Keeps m l t r u0) :
    Keeps m l t r (State.timeEvent u0) := by
  unfold State.timeEvent
  try dsimp only
  repeat' first | with_reducible assumption | with_reducible apply State.raiseEvent_keeps | intro _ | dsimp only

theorem State.setHoldover_keeps {u0 : State} (v)
    (h0 : Keeps m l t r u0) :
    Keeps m l t r (State.setHoldover u0 v) := by
  unfold State.setHoldover
  try dsimp only
  repeat' first
      | with_reducible assumption | with_reducible apply State.modTime_keeps | with_reducible apply State.timeEvent_keeps
      | simp only [↓keeps_mk] | with_reducible apply keeps_ite | intro _ | split | dsimp only

theorem State.selectParent_keeps {u0 : State}
    (h0 : Keeps m l t r u0) :
    Keeps m l t r (State.selectParent u0) := by
  unfold State.selectParent
  try dsimp only
  repeat' first
      | with_reducible assumption | with_reducible apply State.modTime_keeps | with_reducible apply State.setHoldover_keeps
      | simp only [↓keeps_mk] | with_reducible apply keeps_ite | intro _ | split | dsimp only

theorem State.sessionLost_keeps {u0 : State} (n)
    (h0 : Keeps m l t r u0) :
    Keeps m l t r (State.sessionLost u0 n) := by
  unfold State.sessionLost
  try dsimp only
  repeat' first
      | with_reducible assumption | with_reducible apply State.modCtx_keeps | with_reducible apply State.modPort_keeps
      | with_reducible apply State.log_keeps | with_reducible apply State.selectParent_keeps | with_reducible apply State.modBind_keeps
      | simp only [↓keeps_mk] | with_reducible apply keeps_ite | with_reducible apply keeps_foldl | intro _
      | with_reducible apply keeps_foldl_snd | split | dsimp only

theorem State.dropSession_keeps {u0 : State} (n)
    (h0 : Keeps m l t r u0) :
    Keeps m l t r (State.dropSession u0 n) := by
  unfold State.dropSession
  try dsimp only
  repeat' first
      | with_reducible assumption | with_reducible apply State.sessionLost_keeps | with_reducible apply keeps_ite | intro _ | split
      | dsimp only

theorem State.portLost_keeps {u0 : State} (n)
    (h0 : Keeps m l t r u0) :
    Keeps m l t r (State.portLost u0 n) := by
  unfold State.portLost
  try dsimp only
  repeat' first
      | with_reducible assumption | with_reducible apply State.modPort_keeps | with_reducible apply State.dropSession_keeps
      | with_reducible apply State.elementEvent_keeps | simp only [↓keeps_mk] | intro _ | dsimp only

theorem State.releaseStacks_keeps {u0 : State}
    (h0 : Keeps m l t r u0) :
    Keeps m l t r (State.releaseStacks u0) := by
  unfold State.releaseStacks
  try dsimp only
  repeat' first
      | with_reducible assumption | with_reducible apply State.applyStack_keeps | with_reducible apply keeps_ite
      | with_reducible apply keeps_foldl | intro _ | with_reducible apply keeps_foldl_snd | split | dsimp only

theorem State.beginSession_keeps {u0 : State} (n)
    (h0 : Keeps m l t r u0) :
    Keeps m l t r (State.beginSession u0 n) := by
  unfold State.beginSession
  try dsimp only
  repeat' first
      | with_reducible assumption | with_reducible apply State.emit_keeps | with_reducible apply State.modPort_keeps
      | simp only [↓keeps_mk] | intro _ | dsimp only

theorem State.retrain_keeps {u0 : State} (n)
    (h0 : Keeps m l t r u0) :
    Keeps m l t r (State.retrain u0 n) := by
  unfold State.retrain
  try dsimp only
  repeat' first
      | with_reducible assumption | with_reducible apply State.count_keeps | with_reducible apply State.modPort_keeps
      | simp only [↓keeps_mk] | intro _ | dsimp only

theorem retirementClearEffect_keeps (element) {u1 : State}
    (h1 : Keeps m l t r u1) :
    Keeps m l t r (retirementClearEffect element u1) := by
  unfold retirementClearEffect
  try dsimp only
  repeat' first
      | with_reducible assumption | with_reducible apply State.nvErase_keeps | simp only [↓keeps_mk] | with_reducible apply keeps_ite
      | intro _ | split | dsimp only

theorem State.disableAll_keeps {u0 : State} (cause)
    (h0 : Keeps m l t r u0) :
    Keeps m l t r (State.disableAll u0 cause) := by
  unfold State.disableAll
  try dsimp only
  repeat' first
      | with_reducible assumption | with_reducible apply State.disableQueue_keeps | with_reducible apply keeps_foldl | intro _
      | with_reducible apply keeps_foldl_snd | dsimp only

theorem State.takeEntry_keeps {u0 : State} (q) (op) (e)
    (h0 : Keeps m l t r u0) :
    Keeps m l t r (State.takeEntry u0 q op e) := by
  unfold State.takeEntry
  try dsimp only
  repeat' first | with_reducible assumption | with_reducible apply State.modHostQ_keeps | simp only [↓keeps_mk] | intro _ | dsimp only

theorem State.refuseSession_keeps {u0 : State} (n) (code)
    (h0 : Keeps m l t r u0) :
    Keeps m l t r (State.refuseSession u0 n code) := by
  unfold State.refuseSession
  try dsimp only
  repeat' first | with_reducible assumption | with_reducible apply State.modPort_keeps | simp only [↓keeps_mk] | intro _ | dsimp only

theorem helloEffect_keeps (n) (a1) {u2 : State}
    (h2 : Keeps m l t r u2) :
    Keeps m l t r (helloEffect n a1 u2) := by
  unfold helloEffect
  try dsimp only
  repeat' first
      | with_reducible assumption | with_reducible apply State.sessionLost_keeps | with_reducible apply State.modPort_keeps
      | with_reducible apply State.refuseSession_keeps | with_reducible apply State.emit_keeps | simp only [↓keeps_mk]
      | with_reducible apply keeps_ite | intro _ | split | dsimp only

theorem State.zeroForLoad_keeps {u0 : State} (b) (c)
    (h0 : Keeps m l t r u0) :
    Keeps m l t r (State.zeroForLoad u0 b c) := by
  unfold State.zeroForLoad
  try dsimp only
  repeat' first | with_reducible assumption | with_reducible apply State.zeroing_keeps | simp only [↓keeps_mk] | intro _ | dsimp only

theorem State.loadCluster_keeps {u0 : State} (b) (c)
    (h0 : Keeps m l t r u0) :
    Keeps m l t r (State.loadCluster u0 b c) := by
  unfold State.loadCluster
  try dsimp only
  repeat' first
      | with_reducible assumption | with_reducible apply State.modCluster_keeps | with_reducible apply State.putByteCoded_keeps
      | with_reducible apply State.writeWord_keeps | with_reducible apply State.modCtx_keeps | with_reducible apply State.modSync_keeps
      | simp only [↓keeps_mk] | with_reducible apply keeps_ite | with_reducible apply keeps_foldl | intro _
      | with_reducible apply keeps_foldl_snd | split | dsimp only

theorem State.loadPages_keeps {u0 : State} (p) (b)
    (h0 : Keeps m l t r u0) :
    Keeps m l t r (State.loadPages u0 p b) := by
  unfold State.loadPages
  try dsimp only
  repeat' first
      | with_reducible assumption | with_reducible apply State.modStore_keeps | with_reducible apply State.modPage_keeps
      | with_reducible apply (keeps_mk_smem) | simp only [↓keeps_mk] | with_reducible apply keeps_ite | with_reducible apply keeps_foldl
      | intro _ | with_reducible apply keeps_foldl_snd | split | dsimp only

theorem State.loadFabric_keeps {u0 : State} (p) (b)
    (h0 : Keeps m l t r u0) :
    Keeps m l t r (State.loadFabric u0 p b) := by
  unfold State.loadFabric
  try dsimp only
  repeat' first
      | with_reducible assumption | with_reducible apply State.modFabric_keeps | with_reducible apply State.modColl_keeps
      | with_reducible apply State.modGroup_keeps | simp only [↓keeps_mk] | with_reducible apply keeps_ite
      | with_reducible apply keeps_foldl | intro _ | with_reducible apply keeps_foldl_snd | split | dsimp only

theorem State.loadFlows_keeps {u0 : State} (p) (b)
    (h0 : Keeps m l t r u0) :
    Keeps m l t r (State.loadFlows u0 p b) := by
  unfold State.loadFlows
  try dsimp only
  repeat' first
      | with_reducible assumption | with_reducible apply State.modPort_keeps | simp only [↓keeps_mk] | with_reducible apply keeps_ite
      | with_reducible apply keeps_foldl | intro _ | with_reducible apply keeps_foldl_snd | split | dsimp only

theorem State.mixPlane_keeps {u0 : State} (stack) (pl) (copy) (n) (sel) (src)
    (h0 : Keeps m l t r u0) :
    Keeps m l t r (State.mixPlane u0 stack pl copy n sel src) := by
  unfold State.mixPlane
  try dsimp only
  repeat' first
      | with_reducible assumption | with_reducible apply State.readAll_keeps | with_reducible apply State.writePlane_keeps
      | with_reducible apply keeps_ite | intro _ | split | dsimp only

theorem State.loadMarks_keeps {u0 : State} (stack) (marks) (cur) (a4)
    (h0 : Keeps m l t r u0) :
    Keeps m l t r (State.loadMarks u0 stack marks cur a4) := by
  unfold State.loadMarks
  try dsimp only
  repeat' first
      | with_reducible assumption | with_reducible apply State.mixPlane_keeps | with_reducible apply State.readAll_keeps
      | simp only [↓keeps_mk] | with_reducible apply keeps_ite | with_reducible apply keeps_foldl | intro _
      | with_reducible apply keeps_foldl_snd | split | dsimp only

theorem State.loadStack_keeps {u0 : State} (p) (rebind) (img)
    (h0 : Keeps m l t r u0) :
    Keeps m l t r (State.loadStack u0 p rebind img) := by
  unfold State.loadStack
  try dsimp only
  repeat' first
      | with_reducible assumption | with_reducible apply State.modStack_keeps | with_reducible apply State.modUep_keeps
      | with_reducible apply State.loadMarks_keeps | with_reducible apply keeps_foldl | intro _ | with_reducible apply keeps_foldl_snd
      | dsimp only

theorem State.applyBinding_keeps {u0 : State} (p) (b) (rebind)
    (h0 : Keeps m l t r u0) :
    Keeps m l t r (State.applyBinding u0 p b rebind) := by
  unfold State.applyBinding
  try dsimp only
  repeat' first
      | with_reducible assumption | with_reducible apply State.advance_keeps | with_reducible apply State.zeroForLoad_keeps
      | with_reducible apply State.loadCluster_keeps | with_reducible apply State.loadPages_keeps
      | with_reducible apply State.loadFabric_keeps | with_reducible apply State.loadFlows_keeps
      | with_reducible apply State.loadStack_keeps | with_reducible apply State.setPrio_keeps
      | with_reducible apply State.setSetting_keeps | with_reducible apply State.modBind_keeps
      | with_reducible apply State.modPart_keeps | simp only [↓keeps_mk] | with_reducible apply keeps_ite
      | with_reducible apply keeps_foldl | intro _ | with_reducible apply keeps_foldl_snd | split | dsimp only

theorem State.modJob_keeps {u0 : State} (q) (f)
    (h0 : Keeps m l t r u0) :
    Keeps m l t r (State.modJob u0 q f) := by
  unfold State.modJob
  try dsimp only
  repeat' first | with_reducible assumption | with_reducible apply State.modHostQ_keeps | simp only [↓keeps_mk] | intro _ | dsimp only

theorem State.hostRequests_keeps {u0 : State} (q) (num) (op) (a) (n) (ws) (first)
    (h0 : Keeps m l t r u0) :
    Keeps m l t r (State.hostRequests u0 q num op a n ws first) := by
  unfold State.hostRequests
  try dsimp only
  repeat' first
      | with_reducible assumption | with_reducible apply State.modJob_keeps | with_reducible apply State.modStore_keeps
      | simp only [↓keeps_mk] | intro _ | dsimp only

theorem State.sendDatagram_keeps {u0 : State} (port) (ty) (p) (peer) (stack) (id) (offset) (ackId) (last) (data)
    (h0 : Keeps m l t r u0) :
    Keeps m l t r (State.sendDatagram u0 port ty p peer stack id offset ackId last data) := by
  unfold State.sendDatagram
  try dsimp only
  repeat' first
      | with_reducible assumption | with_reducible apply State.emit_keeps | with_reducible apply State.modSrv_keeps
      | simp only [↓keeps_mk] | intro _ | dsimp only

theorem psDataEffect_keeps (d) {u1 : State}
    (h1 : Keeps m l t r u1) :
    Keeps m l t r (psDataEffect d u1) := by
  unfold psDataEffect
  try dsimp only
  repeat' first
      | with_reducible assumption | with_reducible apply State.modJob_keeps | with_reducible apply State.hostRequests_keeps
      | with_reducible apply State.sendDatagram_keeps | simp only [↓keeps_mk] | with_reducible apply keeps_ite | intro _ | split
      | dsimp only

theorem entryCompleteEffect_keeps (q) {u1 : State}
    (h1 : Keeps m l t r u1) :
    Keeps m l t r (entryCompleteEffect q u1) := by
  unfold entryCompleteEffect
  try dsimp only
  repeat' first
      | with_reducible assumption | with_reducible apply State.emit_keeps | with_reducible apply State.count_keeps
      | with_reducible apply State.writeCompletion_keeps | simp only [↓keeps_mk] | with_reducible apply keeps_ite | intro _ | split
      | dsimp only

theorem State.laneRetired_keeps {u0 : State} (n) (send)
    (h0 : Keeps m l t r u0) :
    Keeps m l t r (State.laneRetired u0 n send) := by
  unfold State.laneRetired
  try dsimp only
  repeat' first
      | with_reducible assumption | with_reducible apply State.portLost_keeps | with_reducible apply State.retrain_keeps
      | simp only [↓keeps_mk] | with_reducible apply keeps_ite | intro _ | split | dsimp only

theorem State.codewordBad_keeps {u0 : State} (n) (lane)
    (h0 : Keeps m l t r u0) :
    Keeps m l t r (State.codewordBad u0 n lane) := by
  unfold State.codewordBad
  try dsimp only
  repeat' first
      | with_reducible assumption | with_reducible apply State.count_keeps | with_reducible apply State.modPort_keeps
      | with_reducible apply State.elementEvent_keeps | with_reducible apply State.laneRetired_keeps | simp only [↓keeps_mk]
      | with_reducible apply keeps_ite | intro _ | split | dsimp only

theorem State.ingestFlits_keeps {u0 : State} (q) (f) (ws)
    (h0 : Keeps m l t r u0) :
    Keeps m l t r (State.ingestFlits u0 q f ws) := by
  unfold State.ingestFlits
  try dsimp only
  repeat' first
      | with_reducible assumption | with_reducible apply State.feedEdge_keeps | with_reducible apply State.modFabric_keeps
      | simp only [↓keeps_mk] | intro _ | dsimp only

theorem State.sendStage_keeps {u0 : State} (p) (d) (es)
    (h0 : Keeps m l t r u0) :
    Keeps m l t r (State.sendStage u0 p d es) := by
  unfold State.sendStage
  try dsimp only
  repeat' first
      | with_reducible assumption | with_reducible apply State.modPort_keeps | simp only [↓keeps_mk] | with_reducible apply keeps_ite
      | intro _ | split | dsimp only

theorem State.enterStage_keeps {u0 : State} (p) (g) (axis) (v)
    (h0 : Keeps m l t r u0) :
    Keeps m l t r (State.enterStage u0 p g axis v) := by
  unfold State.enterStage
  try dsimp only
  repeat' first
      | with_reducible assumption | with_reducible apply State.modColl_keeps | with_reducible apply State.sendStage_keeps
      | simp only [↓keeps_mk] | with_reducible apply keeps_ite | intro _ | split | dsimp only

theorem State.endColl_keeps {u0 : State} (g) (v)
    (h0 : Keeps m l t r u0) :
    Keeps m l t r (State.endColl u0 g v) := by
  unfold State.endColl
  try dsimp only
  repeat' first
      | with_reducible assumption | with_reducible apply State.modColl_keeps | simp only [↓keeps_mk, ↓keeps_mk_lease] | intro _
      | dsimp only

theorem State.nextStage_keeps {u0 : State} (p) (g) (axes) (v)
    (h0 : Keeps m l t r u0) :
    Keeps m l t r (State.nextStage u0 p g axes v) := by
  unfold State.nextStage
  try dsimp only
  repeat' first
      | with_reducible assumption | with_reducible apply State.enterStage_keeps | with_reducible apply State.endColl_keeps
      | simp only [↓keeps_mk] | with_reducible apply keeps_ite | intro _ | split | dsimp only

theorem State.closeStage_keeps {u0 : State} (p) (g)
    (h0 : Keeps m l t r u0) :
    Keeps m l t r (State.closeStage u0 p g) := by
  unfold State.closeStage
  try dsimp only
  repeat' first
      | with_reducible assumption | with_reducible apply State.modColl_keeps | with_reducible apply State.nextStage_keeps
      | simp only [↓keeps_mk] | with_reducible apply keeps_ite | intro _ | split | dsimp only

theorem State.closeStages_keeps {u0 : State} (p) (g)
    (h0 : Keeps m l t r u0) :
    Keeps m l t r (State.closeStages u0 p g) := by
  unfold State.closeStages
  try dsimp only
  repeat' first | with_reducible assumption | with_reducible apply State.closeStage_keeps | intro _ | dsimp only

theorem State.takeStage_keeps {u0 : State} (p) (d) (es)
    (h0 : Keeps m l t r u0) :
    Keeps m l t r (State.takeStage u0 p d es) := by
  unfold State.takeStage
  try dsimp only
  repeat' first
      | with_reducible assumption | with_reducible apply State.sendStage_keeps | with_reducible apply State.closeStages_keeps
      | with_reducible apply State.modColl_keeps | simp only [↓keeps_mk] | with_reducible apply keeps_ite
      | with_reducible apply keeps_foldl | intro _ | with_reducible apply keeps_foldl_snd | split | dsimp only

theorem State.discontinuity_keeps {u0 : State} (refNs)
    (h0 : Keeps m l t r u0) :
    Keeps m l t r (State.discontinuity u0 refNs) := by
  unfold State.discontinuity
  try dsimp only
  repeat' first
      | with_reducible assumption | with_reducible apply State.modTime_keeps | with_reducible apply State.timeEvent_keeps
      | simp only [↓keeps_mk] | with_reducible apply keeps_ite | intro _ | split | dsimp only

theorem State.fromHost_keeps {u0 v : State} (p edge n) (h0 : Keeps m l t r u0) (hv : u0.fromHost p edge n = some v) : Keeps m l t r v := by
  unfold State.fromHost at hv
  revert hv
  generalize List.range ((n + 511) / 512) = xs
  suffices h : ∀ (acc : Option State), (∀ w, acc = some w → Keeps m l t r w) → ∀ v, xs.foldl (fun acc _ => acc.bind (fun t =>
      if edge = 0 ∨ edge = 3 then (t.bridgeSlot p 4).bind (fun u => u.cross p 3 edge)
      else (t.bridgeSlot p 7).bind (fun u => u.cross p 2 edge))) acc = some v → Keeps m l t r v from
    fun hv => h (some u0) (fun _ hw => by cases hw; exact h0) v hv
  induction xs with
  | nil => exact fun acc ha v hv => ha v hv
  | cons x xs ih =>
    intro acc ha v hv
    refine ih _ (fun w hw => ?_) v hv
    simp only [Option.bind_eq_some_iff] at hw
    obtain ⟨t, ht, hw⟩ := hw
    split at hw
    all_goals
      simp only [Option.bind_eq_some_iff] at hw
      obtain ⟨y, hy, hw⟩ := hw
      exact State.cross_keeps _ _ _ (State.bridgeSlot_keeps _ _ (ha _ ht) hy) hw

theorem laneLossEffect_keeps (n) (send) (pos) {u3 : State}
    (h3 : Keeps m l t r u3) :
    Keeps m l t r (laneLossEffect n send pos u3) := by
  unfold laneLossEffect
  try dsimp only
  repeat' first
      | with_reducible assumption | with_reducible apply State.elementEvent_keeps | with_reducible apply State.laneRetired_keeps
      | with_reducible apply keeps_ite | intro _ | split | dsimp only

theorem State.endEntry_keeps {u0 : State} (q) (status)
    (h0 : Keeps m l t r u0) :
    Keeps m l t r (State.endEntry u0 q status) := by
  unfold State.endEntry
  try dsimp only
  repeat' first | with_reducible assumption | with_reducible apply State.modJob_keeps | simp only [↓keeps_mk] | intro _ | dsimp only

theorem ingestEffect_keeps (q) (e) (data) (tags) {u4 : State}
    (h4 : Keeps m l t r u4) :
    Keeps m l t r (ingestEffect q e data tags u4) := by
  unfold ingestEffect
  lift_lets
  extract_lets s1 f flow st n s2 s3
  have h1 : Keeps m l t r s1 := State.takeEntry_keeps _ _ _ h4
  have h2 : Keeps m l t r s2 := State.modJob_keeps _ _ (State.useSeal_keeps _ _ _ h1)
  have h3 : Keeps m l t r s3 := by
    dsimp only [s3]
    split
    · exact h2
    split
    · rename_i hv; exact State.ingestFlits_keeps _ _ _ (State.fromHost_keeps _ _ _ h2 hv)
    · exact h2
  exact keeps_ite (fun _ => h4) (fun _ => keeps_ite (fun _ => State.endEntry_keeps _ _ h1)
    (fun _ => keeps_ite (fun _ => State.endEntry_keeps _ _ h3) (fun _ => h3)))

theorem psAckEffect_keeps (d) {u1 : State}
    (h1 : Keeps m l t r u1) :
    Keeps m l t r (psAckEffect d u1) := by
  unfold psAckEffect
  try dsimp only
  repeat' first
      | with_reducible assumption | with_reducible apply State.modJob_keeps | simp only [↓keeps_mk] | with_reducible apply keeps_ite
      | intro _ | split | dsimp only

theorem sqWriteEffect_keeps (q) (e) (data) (tags) {u4 : State}
    (h4 : Keeps m l t r u4) :
    Keeps m l t r (sqWriteEffect q e data tags u4) := by
  unfold sqWriteEffect
  try dsimp only
  repeat' first
      | with_reducible assumption | with_reducible apply State.takeEntry_keeps | with_reducible apply State.endEntry_keeps
      | with_reducible apply State.hostRequests_keeps | with_reducible apply State.useSeal_keeps | with_reducible apply keeps_ite
      | intro _ | split | dsimp only

theorem finishEffect_keeps (n) (opens) (cipher) {u3 : State}
    (h3 : Keeps m l t r u3) :
    Keeps m l t r (finishEffect n opens cipher u3) := by
  unfold finishEffect
  try dsimp only
  repeat' first
      | with_reducible assumption | with_reducible apply State.refuseSession_keeps | with_reducible apply State.modPort_keeps
      | with_reducible apply State.emit_keeps | with_reducible apply State.sendNotice_keeps | simp only [↓keeps_mk]
      | with_reducible apply keeps_ite | intro _ | split | dsimp only

theorem recordCommitEffect_keeps {u0 : State}
    (h0 : Keeps m l t r u0) :
    Keeps m l t r (recordCommitEffect u0) := by
  unfold recordCommitEffect
  try dsimp only
  repeat' first
      | with_reducible assumption | with_reducible apply State.applyPending_keeps | simp only [↓keeps_mk]
      | with_reducible apply keeps_ite | intro _ | split | dsimp only

theorem State.seeTag_keeps {u0 : State} (tag) (depth)
    (h0 : Keeps m l t r u0) :
    Keeps m l t r (State.seeTag u0 tag depth) := by
  unfold State.seeTag
  try dsimp only
  repeat' first
      | with_reducible assumption | with_reducible apply State.modTime_keeps | simp only [↓keeps_mk] | with_reducible apply keeps_ite
      | intro _ | split | dsimp only

theorem psPushEffect_keeps (q) (e) {u2 : State}
    (h2 : Keeps m l t r u2) :
    Keeps m l t r (psPushEffect q e u2) := by
  unfold psPushEffect
  try dsimp only
  repeat' first
      | with_reducible assumption | with_reducible apply State.takeEntry_keeps | with_reducible apply State.endEntry_keeps
      | with_reducible apply State.hostRequests_keeps | with_reducible apply keeps_ite | intro _ | split | dsimp only

theorem refusedRetryEffect_keeps (n) {u1 : State}
    (h1 : Keeps m l t r u1) :
    Keeps m l t r (refusedRetryEffect n u1) := by
  unfold refusedRetryEffect
  try dsimp only
  repeat' first
      | with_reducible assumption | with_reducible apply State.atNs_keeps | with_reducible apply State.modPort_keeps
      | simp only [↓keeps_mk] | with_reducible apply keeps_ite | intro _ | split | dsimp only

theorem State.sendUnseq_keeps {u0 : State} (n) (ty) (len) (pl)
    (h0 : Keeps m l t r u0) :
    Keeps m l t r (State.sendUnseq u0 n ty len pl) := by
  unfold State.sendUnseq
  try dsimp only
  repeat' first
      | with_reducible assumption | with_reducible apply State.emit_keeps | with_reducible apply State.modPort_keeps
      | simp only [↓keeps_mk] | with_reducible apply keeps_ite | intro _ | split | dsimp only

theorem State.sendNak_keeps {u0 : State} (n)
    (h0 : Keeps m l t r u0) :
    Keeps m l t r (State.sendNak u0 n) := by
  unfold State.sendNak
  try dsimp only
  repeat' first
      | with_reducible assumption | with_reducible apply State.modPort_keeps | with_reducible apply State.sendUnseq_keeps
      | simp only [↓keeps_mk] | intro _ | dsimp only

theorem nakRepeatEffect_keeps (n) {u1 : State}
    (h1 : Keeps m l t r u1) :
    Keeps m l t r (nakRepeatEffect n u1) := by
  unfold nakRepeatEffect
  try dsimp only
  repeat' first
      | with_reducible assumption | with_reducible apply State.sendNak_keeps | with_reducible apply State.atNs_keeps
      | simp only [↓keeps_mk] | with_reducible apply keeps_ite | intro _ | split | dsimp only

theorem lossEffect_keeps (n) {u1 : State}
    (h1 : Keeps m l t r u1) :
    Keeps m l t r (lossEffect n u1) := by
  unfold lossEffect
  try dsimp only
  repeat' first
      | with_reducible assumption | with_reducible apply State.count_keeps | with_reducible apply State.modPort_keeps
      | simp only [↓keeps_mk] | with_reducible apply keeps_ite | intro _ | split | dsimp only

theorem stageEntryEffect_keeps (p) (g) {u2 : State}
    (h2 : Keeps m l t r u2) :
    Keeps m l t r (stageEntryEffect p g u2) := by
  unfold stageEntryEffect
  try dsimp only
  repeat' first
      | with_reducible assumption | with_reducible apply State.modColl_keeps | with_reducible apply State.modGroup_keeps
      | with_reducible apply State.closeStages_keeps | with_reducible apply State.nextStage_keeps
      | simp only [↓keeps_mk, ↓keeps_mk_lease] | with_reducible apply keeps_ite | intro _ | split | dsimp only

theorem losTimeoutEffect_keeps (n) {u1 : State}
    (h1 : Keeps m l t r u1) :
    Keeps m l t r (losTimeoutEffect n u1) := by
  unfold losTimeoutEffect
  try dsimp only
  repeat' first
      | with_reducible assumption | with_reducible apply State.sessionLost_keeps | with_reducible apply State.atNs_keeps
      | with_reducible apply keeps_ite | intro _ | split | dsimp only

theorem State.retainImage_keeps {u0 : State} (b) (bytes)
    (h0 : Keeps m l t r u0) :
    Keeps m l t r (State.retainImage u0 b bytes) := by
  unfold State.retainImage
  try dsimp only
  repeat' first
      | with_reducible assumption | with_reducible apply State.putBlock_keeps | with_reducible apply keeps_foldl | intro _
      | with_reducible apply keeps_foldl_snd | dsimp only

theorem retrainTimeoutEffect_keeps (n) {u1 : State}
    (h1 : Keeps m l t r u1) :
    Keeps m l t r (retrainTimeoutEffect n u1) := by
  unfold retrainTimeoutEffect
  try dsimp only
  repeat' first
      | with_reducible assumption | with_reducible apply State.portLost_keeps | with_reducible apply State.atNs_keeps
      | with_reducible apply keeps_ite | intro _ | split | dsimp only

theorem State.hostLinkOff_keeps {u0 : State}
    (h0 : Keeps m l t r u0) :
    Keeps m l t r (State.hostLinkOff u0) := by
  unfold State.hostLinkOff
  try dsimp only
  repeat' first | with_reducible assumption | with_reducible apply State.disableAll_keeps | simp only [↓keeps_mk] | intro _ | dsimp only

theorem State.goBack_keeps {u0 : State} (n)
    (h0 : Keeps m l t r u0) :
    Keeps m l t r (State.goBack u0 n) := by
  unfold State.goBack
  try dsimp only
  repeat' first
      | with_reducible assumption | with_reducible apply State.retrain_keeps | with_reducible apply State.count_keeps
      | with_reducible apply State.modPort_keeps | with_reducible apply State.emit_keeps | simp only [↓keeps_mk]
      | with_reducible apply keeps_ite | with_reducible apply keeps_foldl | intro _ | with_reducible apply keeps_foldl_snd | split
      | dsimp only

theorem State.takeHeader_keeps {u0 : State} (n) (f)
    (h0 : Keeps m l t r u0) :
    Keeps m l t r (State.takeHeader u0 n f) := by
  unfold State.takeHeader
  try dsimp only
  repeat' first
      | with_reducible assumption | with_reducible apply State.modPort_keeps | simp only [↓keeps_mk] | with_reducible apply keeps_ite
      | intro _ | split | dsimp only

theorem resumeEffect_keeps (n) (f) (rx) {u3 : State}
    (h3 : Keeps m l t r u3) :
    Keeps m l t r (resumeEffect n f rx u3) := by
  unfold resumeEffect
  try dsimp only
  repeat' first
      | with_reducible assumption | with_reducible apply State.modPort_keeps | with_reducible apply State.takeHeader_keeps
      | with_reducible apply State.goBack_keeps | with_reducible apply State.sessionLost_keeps | simp only [↓keeps_mk]
      | with_reducible apply keeps_ite | intro _ | split | dsimp only

theorem State.steer_keeps {u0 : State} (n) (send) (bad)
    (h0 : Keeps m l t r u0) :
    Keeps m l t r (State.steer u0 n send bad) := by
  unfold State.steer
  try dsimp only
  repeat' first
      | with_reducible assumption | with_reducible apply State.modPort_keeps | with_reducible apply State.closeRecord_keeps
      | simp only [↓keeps_mk] | with_reducible apply keeps_ite | intro _ | split | dsimp only

theorem peerTimeoutEffect_keeps (q) {u1 : State}
    (h1 : Keeps m l t r u1) :
    Keeps m l t r (peerTimeoutEffect q u1) := by
  unfold peerTimeoutEffect
  try dsimp only
  repeat' first
      | with_reducible assumption | with_reducible apply State.atNs_keeps | with_reducible apply State.endEntry_keeps
      | with_reducible apply State.modStore_keeps | simp only [↓keeps_mk] | with_reducible apply keeps_ite | intro _ | split
      | dsimp only

theorem State.recoverClock_keeps {u0 : State} (n)
    (h0 : Keeps m l t r u0) :
    Keeps m l t r (State.recoverClock u0 n) := by
  unfold State.recoverClock
  try dsimp only
  repeat' first | with_reducible assumption | simp only [↓keeps_mk] | intro _ | dsimp only

theorem State.sendPs_keeps {u0 : State} (port) (q) (off) (j)
    (h0 : Keeps m l t r u0) :
    Keeps m l t r (State.sendPs u0 port q off j) := by
  unfold State.sendPs
  try dsimp only
  repeat' first
      | with_reducible assumption | with_reducible apply State.modJob_keeps | with_reducible apply State.sendDatagram_keeps
      | simp only [↓keeps_mk] | with_reducible apply keeps_ite | intro _ | split | dsimp only

theorem State.becomeRoot_keeps {u0 : State}
    (h0 : Keeps m l t r u0) :
    Keeps m l t r (State.becomeRoot u0) := by
  unfold State.becomeRoot
  try dsimp only
  repeat' first | with_reducible assumption | with_reducible apply State.modTime_keeps | simp only [↓keeps_mk] | intro _ | dsimp only

theorem State.tagFailed_keeps {u0 : State} (n)
    (h0 : Keeps m l t r u0) :
    Keeps m l t r (State.tagFailed u0 n) := by
  unfold State.tagFailed
  try dsimp only
  repeat' first
      | with_reducible assumption | with_reducible apply State.count_keeps | with_reducible apply State.modPort_keeps
      | with_reducible apply State.elementEvent_keeps | with_reducible apply State.sessionLost_keeps | simp only [↓keeps_mk]
      | with_reducible apply keeps_ite | intro _ | split | dsimp only

theorem State.screen_keeps {u0 : State} (n) (f) (rx) (sequenced)
    (h0 : Keeps m l t r u0) :
    Keeps m l t r (State.screen u0 n f rx sequenced).2 := by
  unfold State.screen
  try dsimp only
  repeat' first
      | with_reducible assumption | with_reducible apply State.sendNak_keeps | with_reducible apply State.codewordBad_keeps
      | with_reducible apply State.tagFailed_keeps | with_reducible apply State.takeHeader_keeps
      | with_reducible apply State.modPort_keeps | simp only [↓keeps_mk] | with_reducible apply keeps_ite | intro _ | split | dsimp only

theorem trainingEffect_keeps (n) (a1) {u2 : State}
    (h2 : Keeps m l t r u2) :
    Keeps m l t r (trainingEffect n a1 u2) := by
  unfold trainingEffect
  try dsimp only
  repeat' first
      | with_reducible assumption | with_reducible apply State.portLost_keeps | with_reducible apply State.modPort_keeps
      | with_reducible apply State.steer_keeps | with_reducible apply State.recoverClock_keeps
      | with_reducible apply State.sendUnseq_keeps | with_reducible apply State.beginSession_keeps | simp only [↓keeps_mk]
      | with_reducible apply keeps_ite | intro _ | split | dsimp only

theorem State.sendExport_keeps {u0 : State} (port) (stack) (p) (g)
    (h0 : Keeps m l t r u0) :
    Keeps m l t r (State.sendExport u0 port stack p g) := by
  unfold State.sendExport
  try dsimp only
  repeat' first
      | with_reducible assumption | with_reducible apply State.modExp_keeps | with_reducible apply State.sendDatagram_keeps
      | simp only [↓keeps_mk] | with_reducible apply keeps_ite | intro _ | split | dsimp only

theorem datagramSendEffect_keeps (port) (slot) {u2 : State}
    (h2 : Keeps m l t r u2) :
    Keeps m l t r (datagramSendEffect port slot u2) := by
  unfold datagramSendEffect
  try dsimp only
  repeat' first
      | with_reducible assumption | with_reducible apply State.modServer_keeps | with_reducible apply State.sendExport_keeps
      | with_reducible apply State.sendPs_keeps | simp only [↓keeps_mk] | with_reducible apply keeps_ite | intro _ | split | dsimp only

theorem timeSendEffect_keeps (n) {u1 : State}
    (h1 : Keeps m l t r u1) :
    Keeps m l t r (timeSendEffect n u1) := by
  unfold timeSendEffect
  try dsimp only
  repeat' first
      | with_reducible assumption | with_reducible apply State.atNs_keeps | with_reducible apply State.modPort_keeps
      | with_reducible apply State.sendUnseq_keeps | simp only [↓keeps_mk] | with_reducible apply keeps_ite | intro _ | split
      | dsimp only

theorem frameSendEffect_keeps (n) {u1 : State}
    (h1 : Keeps m l t r u1) :
    Keeps m l t r (frameSendEffect n u1) := by
  unfold frameSendEffect
  try dsimp only
  repeat' first
      | with_reducible assumption | with_reducible apply State.sendUnseq_keeps | with_reducible apply State.emit_keeps
      | with_reducible apply State.modPort_keeps | simp only [↓keeps_mk] | with_reducible apply keeps_ite | intro _ | split | dsimp only

theorem sqReadEffect_keeps (q) (e) {u2 : State}
    (h2 : Keeps m l t r u2) :
    Keeps m l t r (sqReadEffect q e u2) := by
  unfold sqReadEffect
  try dsimp only
  repeat' first
      | with_reducible assumption | with_reducible apply State.takeEntry_keeps | with_reducible apply State.endEntry_keeps
      | with_reducible apply State.hostRequests_keeps | with_reducible apply State.useSeal_keeps | with_reducible apply keeps_ite
      | intro _ | split | dsimp only

theorem psPullEffect_keeps (q) (e) {u2 : State}
    (h2 : Keeps m l t r u2) :
    Keeps m l t r (psPullEffect q e u2) := by
  unfold psPullEffect
  try dsimp only
  repeat' first
      | with_reducible assumption | with_reducible apply State.takeEntry_keeps | with_reducible apply State.endEntry_keeps
      | with_reducible apply keeps_ite | intro _ | split | dsimp only

theorem State.correct_keeps {u0 : State} (off)
    (h0 : Keeps m l t r u0) :
    Keeps m l t r (State.correct u0 off) := by
  unfold State.correct
  try dsimp only
  repeat' first
      | with_reducible assumption | with_reducible apply State.modTime_keeps | with_reducible apply State.setHoldover_keeps
      | with_reducible apply State.discontinuity_keeps | simp only [↓keeps_mk] | with_reducible apply keeps_ite | intro _ | split
      | dsimp only

theorem State.loadImage_keeps {u0 : State} (p) (image) (bytes)
    (h0 : Keeps m l t r u0) :
    Keeps m l t r (State.loadImage u0 p image bytes).2 := by
  unfold State.loadImage
  try dsimp only
  repeat' first
      | with_reducible assumption | with_reducible apply State.modBind_keeps | with_reducible apply State.retainImage_keeps
      | with_reducible apply State.applyBinding_keeps | with_reducible apply State.modOwner_keeps
      | with_reducible apply State.sendNotices_keeps | with_reducible apply State.releaseStacks_keeps | simp only [↓keeps_mk]
      | with_reducible apply keeps_ite | intro _ | split | dsimp only

theorem retransmitEffect_keeps (stack) (p) {u2 : State}
    (h2 : Keeps m l t r u2) :
    Keeps m l t r (retransmitEffect stack p u2) := by
  unfold retransmitEffect
  try dsimp only
  repeat' first
      | with_reducible assumption | with_reducible apply State.atNs_keeps | with_reducible apply State.modExp_keeps
      | simp only [↓keeps_mk] | with_reducible apply keeps_ite | intro _ | split | dsimp only

theorem State.freeResponse_keeps {u0 : State} (n) (f)
    (h0 : Keeps m l t r u0) :
    Keeps m l t r (State.freeResponse u0 n f) := by
  unfold State.freeResponse
  try dsimp only
  repeat' first | with_reducible assumption | with_reducible apply State.modPort_keeps | simp only [↓keeps_mk] | intro _ | dsimp only

theorem hqCfgEffect_keeps (q) (v) {u2 : State}
    (h2 : Keeps m l t r u2) :
    Keeps m l t r (hqCfgEffect q v u2) := by
  unfold hqCfgEffect
  try dsimp only
  repeat' first
      | with_reducible assumption | with_reducible apply State.modHostQ_keeps | simp only [↓keeps_mk] | with_reducible apply keeps_ite
      | intro _ | split | dsimp only

theorem bindLoadEffect_keeps (q) (e) (data) (tags) (image) {u5 : State}
    (h5 : Keeps m l t r u5) :
    Keeps m l t r (bindLoadEffect q e data tags image u5) := by
  unfold bindLoadEffect
  try dsimp only
  repeat' first
      | with_reducible assumption | with_reducible apply State.wakeUp_keeps | with_reducible apply State.takeEntry_keeps
      | with_reducible apply State.endEntry_keeps | with_reducible apply State.modBind_keeps | with_reducible apply State.modOwner_keeps
      | with_reducible apply State.useSeal_keeps | with_reducible apply State.modJob_keeps | with_reducible apply State.loadImage_keeps
      | simp only [↓keeps_mk] | with_reducible apply keeps_ite | intro _ | split | dsimp only

theorem expAckEffect_keeps (d) {u1 : State}
    (h1 : Keeps m l t r u1) :
    Keeps m l t r (expAckEffect d u1) := by
  unfold expAckEffect
  try dsimp only
  repeat' first
      | with_reducible assumption | with_reducible apply State.modExp_keeps | with_reducible apply State.modUep_keeps
      | with_reducible apply State.count_keeps | with_reducible apply State.raiseEvent_keeps
      | with_reducible apply State.modServer_keeps | simp only [↓keeps_mk] | with_reducible apply keeps_ite
      | with_reducible apply keeps_foldl | intro _ | with_reducible apply keeps_foldl_snd | split | dsimp only

theorem State.takeTime_keeps {u0 : State} (n) (t4) (q)
    (h0 : Keeps m l t r u0) :
    Keeps m l t r (State.takeTime u0 n t4 q) := by
  unfold State.takeTime
  try dsimp only
  repeat' first
      | with_reducible assumption | with_reducible apply State.modPort_keeps | with_reducible apply State.selectParent_keeps
      | with_reducible apply State.seeTag_keeps | with_reducible apply State.correct_keeps | with_reducible apply State.modTime_keeps
      | simp only [↓keeps_mk] | with_reducible apply keeps_ite | intro _ | split | dsimp only

theorem lightReturnEffect_keeps (n) {u1 : State}
    (h1 : Keeps m l t r u1) :
    Keeps m l t r (lightReturnEffect n u1) := by
  unfold lightReturnEffect
  try dsimp only
  repeat' first
      | with_reducible assumption | with_reducible apply State.modPort_keeps | with_reducible apply State.retrain_keeps
      | simp only [↓keeps_mk] | with_reducible apply keeps_ite | intro _ | split | dsimp only

theorem replayTimeoutEffect_keeps (n) {u1 : State}
    (h1 : Keeps m l t r u1) :
    Keeps m l t r (replayTimeoutEffect n u1) := by
  unfold replayTimeoutEffect
  try dsimp only
  repeat' first
      | with_reducible assumption | with_reducible apply State.goBack_keeps | with_reducible apply State.atNs_keeps
      | with_reducible apply keeps_ite | intro _ | split | dsimp only

theorem State.takeResponse_keeps {u0 : State} (n) (f) (data)
    (h0 : Keeps m l t r u0) :
    Keeps m l t r (State.takeResponse u0 n f data) := by
  unfold State.takeResponse
  try dsimp only
  repeat' first
      | with_reducible assumption | with_reducible apply State.modPort_keeps | with_reducible apply State.modCtx_keeps
      | with_reducible apply State.departFlits_keeps | simp only [↓keeps_mk] | with_reducible apply keeps_ite | intro _ | split
      | dsimp only

theorem execRdData_keeps (a0) (a1) (a2) {u3 : State} (h0 : Keeps m l t r u3) {v : State} (h : execRdData a0 a1 a2 u3 = .next v) : Keeps m l t r v := by
  unfold execRdData at h
  try unfold onFrame at h
  try unfold onPort at h
  try unfold onNumber at h
  try dsimp only at h
  repeat' split at h
  all_goals first | (simp only [Host.Outcome.next.injEq] at h; subst h) | cases h | skip
  all_goals repeat' first
      | with_reducible assumption | with_reducible apply State.count_keeps | with_reducible apply State.screen_keeps
      | with_reducible apply State.freeResponse_keeps | with_reducible apply State.takeResponse_keeps | with_reducible apply keeps_ite
      | intro _ | split | dsimp only

theorem execExpAck_keeps (a0) {u1 : State} (h0 : Keeps m l t r u1) {v : State} (h : execExpAck a0 u1 = .next v) : Keeps m l t r v := by
  unfold execExpAck at h
  try unfold onDatagram at h
  try dsimp only at h
  repeat' split at h
  all_goals first | (simp only [Host.Outcome.next.injEq] at h; subst h) | cases h | skip
  all_goals repeat' first
      | with_reducible assumption | with_reducible apply State.modSrv_keeps | with_reducible apply expAckEffect_keeps
      | with_reducible apply keeps_ite | intro _ | split | dsimp only

theorem execRetirementRecordCommit_keeps {u0 : State} (h0 : Keeps m l t r u0) {v : State} (h : execRetirementRecordCommit u0 = .next v) : Keeps m l t r v := by
  unfold execRetirementRecordCommit at h
  try dsimp only at h
  repeat' split at h
  all_goals first | (simp only [Host.Outcome.next.injEq] at h; subst h) | cases h | skip
  all_goals repeat' first | with_reducible assumption | with_reducible apply recordCommitEffect_keeps | intro _ | dsimp only

theorem execHostLinkDown_keeps {u0 : State} (h0 : Keeps m l t r u0) {v : State} (h : execHostLinkDown u0 = .next v) : Keeps m l t r v := by
  unfold execHostLinkDown at h
  try dsimp only at h
  repeat' split at h
  all_goals first | (simp only [Host.Outcome.next.injEq] at h; subst h) | cases h | skip
  all_goals repeat' first | with_reducible assumption | with_reducible apply State.hostLinkOff_keeps | intro _ | dsimp only

theorem execRootConflictEnd_keeps {u0 : State} (h0 : Keeps m l t r u0) {v : State} (h : execRootConflictEnd u0 = .next v) : Keeps m l t r v := by
  unfold execRootConflictEnd at h
  try dsimp only at h
  repeat' split at h
  all_goals first | (simp only [Host.Outcome.next.injEq] at h; subst h) | cases h | skip
  all_goals repeat' first
      | with_reducible assumption | with_reducible apply State.atNs_keeps | with_reducible apply State.becomeRoot_keeps
      | simp only [↓keeps_mk] | with_reducible apply keeps_ite | intro _ | split | dsimp only

theorem execServerHandshake_keeps (a0) (a1) (a2) (a3) {u4 : State} (h0 : Keeps m l t r u4) {v : State} (h : execServerHandshake a0 a1 a2 a3 u4 = .next v) : Keeps m l t r v := by
  unfold execServerHandshake at h
  try unfold onNumber at h
  try dsimp only at h
  repeat' split at h
  all_goals first | (simp only [Host.Outcome.next.injEq] at h; subst h) | cases h | skip
  all_goals repeat' first
      | with_reducible assumption | with_reducible apply handshakeEffect_keeps | with_reducible apply keeps_ite | intro _ | split
      | dsimp only

theorem execPortFlagClear_keeps (a0) (a1) (a2) {u3 : State} (h0 : Keeps m l t r u3) {v : State} (h : execPortFlagClear a0 a1 a2 u3 = .next v) : Keeps m l t r v := by
  unfold execPortFlagClear at h
  try dsimp only at h
  repeat' split at h
  all_goals first | (simp only [Host.Outcome.next.injEq] at h; subst h) | cases h | skip
  all_goals repeat' first
      | with_reducible assumption | with_reducible apply State.modPort_keeps | with_reducible apply State.guarded_keeps
      | with_reducible apply keeps_ite | intro _ | split | dsimp only

theorem execLosTimeout_keeps (a0) {u1 : State} (h0 : Keeps m l t r u1) {v : State} (h : execLosTimeout a0 u1 = .next v) : Keeps m l t r v := by
  unfold execLosTimeout at h
  try unfold onPort at h
  try unfold onNumber at h
  try dsimp only at h
  repeat' split at h
  all_goals first | (simp only [Host.Outcome.next.injEq] at h; subst h) | cases h | skip
  all_goals repeat' first | with_reducible assumption | with_reducible apply losTimeoutEffect_keeps | intro _ | dsimp only

theorem execLossOfLight_keeps (a0) {u1 : State} (h0 : Keeps m l t r u1) {v : State} (h : execLossOfLight a0 u1 = .next v) : Keeps m l t r v := by
  unfold execLossOfLight at h
  try unfold onPort at h
  try unfold onNumber at h
  try dsimp only at h
  repeat' split at h
  all_goals first | (simp only [Host.Outcome.next.injEq] at h; subst h) | cases h | skip
  all_goals repeat' first | with_reducible assumption | with_reducible apply lossEffect_keeps | intro _ | dsimp only

theorem execServerDatagramSend_keeps (a0) (a1) {u2 : State} (h0 : Keeps m l t r u2) {v : State} (h : execServerDatagramSend a0 a1 u2 = .next v) : Keeps m l t r v := by
  unfold execServerDatagramSend at h
  try unfold onServer at h
  try unfold onNumber at h
  try dsimp only at h
  repeat' split at h
  all_goals first | (simp only [Host.Outcome.next.injEq] at h; subst h) | cases h | skip
  all_goals repeat' first
      | with_reducible assumption | with_reducible apply datagramSendEffect_keeps | with_reducible apply keeps_ite | intro _ | split
      | dsimp only

theorem execRed_keeps (a0) (a1) (a2) {u3 : State} (h0 : Keeps m l t r u3) {v : State} (h : execRed a0 a1 a2 u3 = .next v) : Keeps m l t r v := by
  unfold execRed at h
  try unfold onFrame at h
  try unfold onPort at h
  try unfold onNumber at h
  try dsimp only at h
  repeat' split at h
  all_goals first | (simp only [Host.Outcome.next.injEq] at h; subst h) | cases h | skip
  all_goals repeat' first
      | with_reducible assumption | with_reducible apply State.acceptRequest_keeps | with_reducible apply State.screen_keeps
      | simp only [↓keeps_mk] | with_reducible apply keeps_ite | intro _ | split | dsimp only

theorem execResp_keeps (a0) (a1) (a2) {u3 : State} (h0 : Keeps m l t r u3) {v : State} (h : execResp a0 a1 a2 u3 = .next v) : Keeps m l t r v := by
  unfold execResp at h
  try unfold onFrame at h
  try unfold onPort at h
  try unfold onNumber at h
  try dsimp only at h
  repeat' split at h
  all_goals first | (simp only [Host.Outcome.next.injEq] at h; subst h) | cases h | skip
  all_goals repeat' first
      | with_reducible assumption | with_reducible apply State.screen_keeps | with_reducible apply State.freeResponse_keeps
      | with_reducible apply State.takeResponse_keeps | with_reducible apply keeps_ite | intro _ | split | dsimp only

theorem execPsPeerTimeout_keeps (a0) {u1 : State} (h0 : Keeps m l t r u1) {v : State} (h : execPsPeerTimeout a0 u1 = .next v) : Keeps m l t r v := by
  unfold execPsPeerTimeout at h
  try unfold onQueue at h
  try unfold onNumber at h
  try dsimp only at h
  repeat' split at h
  all_goals first | (simp only [Host.Outcome.next.injEq] at h; subst h) | cases h | skip
  all_goals repeat' first | with_reducible assumption | with_reducible apply peerTimeoutEffect_keeps | intro _ | dsimp only

theorem execStage_keeps (a0) (a1) (a2) {u3 : State} (h0 : Keeps m l t r u3) {v : State} (h : execStage a0 a1 a2 u3 = .next v) : Keeps m l t r v := by
  unfold execStage at h
  try unfold onFrame at h
  try unfold onPort at h
  try unfold onNumber at h
  try dsimp only at h
  repeat' split at h
  all_goals first | (simp only [Host.Outcome.next.injEq] at h; subst h) | cases h | skip
  all_goals repeat' first
      | with_reducible assumption | with_reducible apply State.takeStage_keeps | with_reducible apply State.screen_keeps
      | with_reducible apply State.freeResponse_keeps | simp only [↓keeps_mk] | with_reducible apply keeps_ite | intro _ | split
      | dsimp only

theorem execPsPull_keeps (a0) (a1) {u2 : State} (h0 : Keeps m l t r u2) {v : State} (h : execPsPull a0 a1 u2 = .next v) : Keeps m l t r v := by
  unfold execPsPull at h
  try unfold onQueue at h
  try unfold onNumber at h
  try dsimp only at h
  repeat' split at h
  all_goals first | (simp only [Host.Outcome.next.injEq] at h; subst h) | cases h | skip
  all_goals repeat' first | with_reducible assumption | with_reducible apply psPullEffect_keeps | intro _ | dsimp only

theorem execTimeSend_keeps (a0) {u1 : State} (h0 : Keeps m l t r u1) {v : State} (h : execTimeSend a0 u1 = .next v) : Keeps m l t r v := by
  unfold execTimeSend at h
  try unfold onPort at h
  try unfold onNumber at h
  try dsimp only at h
  repeat' split at h
  all_goals first | (simp only [Host.Outcome.next.injEq] at h; subst h) | cases h | skip
  all_goals repeat' first | with_reducible assumption | with_reducible apply timeSendEffect_keeps | intro _ | dsimp only

theorem execRetirementClear_keeps (a0) (a1) {u2 : State} (h0 : Keeps m l t r u2) {v : State} (h : execRetirementClear a0 a1 u2 = .next v) : Keeps m l t r v := by
  unfold execRetirementClear at h
  try dsimp only at h
  repeat' split at h
  all_goals first | (simp only [Host.Outcome.next.injEq] at h; subst h) | cases h | skip
  all_goals repeat' first
      | with_reducible assumption | with_reducible apply State.guarded_keeps | with_reducible apply retirementClearEffect_keeps
      | intro _ | dsimp only

theorem execSessionFinish_keeps (a0) (a1) {u2 : State} (h0 : Keeps m l t r u2) {v : State} (h : execSessionFinish a0 a1 u2 = .next v) : Keeps m l t r v := by
  unfold execSessionFinish at h
  try unfold onPort at h
  try unfold onNumber at h
  try dsimp only at h
  repeat' split at h
  all_goals first | (simp only [Host.Outcome.next.injEq] at h; subst h) | cases h | skip
  all_goals repeat' first
      | with_reducible assumption | with_reducible apply finishEffect_keeps | simp only [↓keeps_mk] | with_reducible apply keeps_ite
      | intro _ | split | dsimp only

theorem execBindLoad_keeps (a0) (a1) (a2) (a3) (a4) {u5 : State} (h0 : Keeps m l t r u5) {v : State} (h : execBindLoad a0 a1 a2 a3 a4 u5 = .next v) : Keeps m l t r v := by
  unfold execBindLoad at h
  try unfold onQueue at h
  try unfold onNumber at h
  try dsimp only at h
  repeat' split at h
  all_goals first | (simp only [Host.Outcome.next.injEq] at h; subst h) | cases h | skip
  all_goals repeat' first | with_reducible assumption | with_reducible apply bindLoadEffect_keeps | intro _ | dsimp only

theorem execTimeParentTimeout_keeps {u0 : State} (h0 : Keeps m l t r u0) {v : State} (h : execTimeParentTimeout u0 = .next v) : Keeps m l t r v := by
  unfold execTimeParentTimeout at h
  try dsimp only at h
  repeat' split at h
  all_goals first | (simp only [Host.Outcome.next.injEq] at h; subst h) | cases h | skip
  all_goals repeat' first
      | with_reducible assumption | with_reducible apply State.atNs_keeps | with_reducible apply State.modTime_keeps
      | with_reducible apply State.setHoldover_keeps | with_reducible apply State.selectParent_keeps | simp only [↓keeps_mk]
      | with_reducible apply keeps_ite | intro _ | split | dsimp only

theorem execSqRead_keeps (a0) (a1) {u2 : State} (h0 : Keeps m l t r u2) {v : State} (h : execSqRead a0 a1 u2 = .next v) : Keeps m l t r v := by
  unfold execSqRead at h
  try unfold onQueue at h
  try unfold onNumber at h
  try dsimp only at h
  repeat' split at h
  all_goals first | (simp only [Host.Outcome.next.injEq] at h; subst h) | cases h | skip
  all_goals repeat' first | with_reducible assumption | with_reducible apply sqReadEffect_keeps | intro _ | dsimp only

theorem execCommitFrame_keeps (a0) (a1) (a2) {u3 : State} (h0 : Keeps m l t r u3) {v : State} (h : execCommitFrame a0 a1 a2 u3 = .next v) : Keeps m l t r v := by
  unfold execCommitFrame at h
  try unfold onFrame at h
  try unfold onPort at h
  try unfold onNumber at h
  try dsimp only at h
  repeat' split at h
  all_goals first | (simp only [Host.Outcome.next.injEq] at h; subst h) | cases h | skip
  all_goals repeat' first
      | with_reducible assumption | with_reducible apply State.modPort_keeps | with_reducible apply State.screen_keeps
      | with_reducible apply State.freeResponse_keeps | simp only [↓keeps_mk] | with_reducible apply keeps_ite | intro _ | split
      | dsimp only

theorem execWr_keeps (a0) (a1) (a2) {u3 : State} (h0 : Keeps m l t r u3) {v : State} (h : execWr a0 a1 a2 u3 = .next v) : Keeps m l t r v := by
  unfold execWr at h
  try unfold onFrame at h
  try unfold onPort at h
  try unfold onNumber at h
  try dsimp only at h
  repeat' split at h
  all_goals first | (simp only [Host.Outcome.next.injEq] at h; subst h) | cases h | skip
  all_goals repeat' first
      | with_reducible assumption | with_reducible apply State.acceptRequest_keeps | with_reducible apply State.screen_keeps
      | simp only [↓keeps_mk] | with_reducible apply keeps_ite | intro _ | split | dsimp only

theorem execNakRepeat_keeps (a0) {u1 : State} (h0 : Keeps m l t r u1) {v : State} (h : execNakRepeat a0 u1 = .next v) : Keeps m l t r v := by
  unfold execNakRepeat at h
  try unfold onPort at h
  try unfold onNumber at h
  try dsimp only at h
  repeat' split at h
  all_goals first | (simp only [Host.Outcome.next.injEq] at h; subst h) | cases h | skip
  all_goals repeat' first | with_reducible assumption | with_reducible apply nakRepeatEffect_keeps | intro _ | dsimp only

theorem execPortTrainingDone_keeps (a0) (a1) {u2 : State} (h0 : Keeps m l t r u2) {v : State} (h : execPortTrainingDone a0 a1 u2 = .next v) : Keeps m l t r v := by
  unfold execPortTrainingDone at h
  try unfold onPort at h
  try unfold onNumber at h
  try dsimp only at h
  repeat' split at h
  all_goals first | (simp only [Host.Outcome.next.injEq] at h; subst h) | cases h | skip
  all_goals repeat' first | with_reducible assumption | with_reducible apply trainingEffect_keeps | intro _ | dsimp only

theorem execLightReturn_keeps (a0) {u1 : State} (h0 : Keeps m l t r u1) {v : State} (h : execLightReturn a0 u1 = .next v) : Keeps m l t r v := by
  unfold execLightReturn at h
  try unfold onPort at h
  try unfold onNumber at h
  try dsimp only at h
  repeat' split at h
  all_goals first | (simp only [Host.Outcome.next.injEq] at h; subst h) | cases h | skip
  all_goals repeat' first | with_reducible assumption | with_reducible apply lightReturnEffect_keeps | intro _ | dsimp only

theorem execServerLinkUp_keeps (a0) {u1 : State} (h0 : Keeps m l t r u1) {v : State} (h : execServerLinkUp a0 u1 = .next v) : Keeps m l t r v := by
  unfold execServerLinkUp at h
  try unfold onServer at h
  try unfold onNumber at h
  try dsimp only at h
  repeat' split at h
  all_goals first | (simp only [Host.Outcome.next.injEq] at h; subst h) | cases h | skip
  all_goals repeat' first
      | with_reducible assumption | with_reducible apply State.modServer_keeps | simp only [↓keeps_mk] | intro _ | dsimp only

theorem execExportStallTimeout_keeps (a0) {u1 : State} (h0 : Keeps m l t r u1) {v : State} (h : execExportStallTimeout a0 u1 = .next v) : Keeps m l t r v := by
  unfold execExportStallTimeout at h
  try unfold onPartition at h
  try unfold onNumber at h
  try dsimp only at h
  repeat' split at h
  all_goals first | (simp only [Host.Outcome.next.injEq] at h; subst h) | cases h | skip
  all_goals repeat' first | with_reducible assumption | with_reducible apply stallEffect_keeps | intro _ | dsimp only

theorem execRefusedRetry_keeps (a0) {u1 : State} (h0 : Keeps m l t r u1) {v : State} (h : execRefusedRetry a0 u1 = .next v) : Keeps m l t r v := by
  unfold execRefusedRetry at h
  try unfold onPort at h
  try unfold onNumber at h
  try dsimp only at h
  repeat' split at h
  all_goals first | (simp only [Host.Outcome.next.injEq] at h; subst h) | cases h | skip
  all_goals repeat' first | with_reducible assumption | with_reducible apply refusedRetryEffect_keeps | intro _ | dsimp only

theorem execSessionHello_keeps (a0) (a1) {u2 : State} (h0 : Keeps m l t r u2) {v : State} (h : execSessionHello a0 a1 u2 = .next v) : Keeps m l t r v := by
  unfold execSessionHello at h
  try unfold onPort at h
  try unfold onNumber at h
  try dsimp only at h
  repeat' split at h
  all_goals first | (simp only [Host.Outcome.next.injEq] at h; subst h) | cases h | skip
  all_goals repeat' first
      | with_reducible assumption | with_reducible apply helloEffect_keeps | simp only [↓keeps_mk] | with_reducible apply keeps_ite
      | intro _ | split | dsimp only

theorem execResume_keeps (a0) (a1) (a2) {u3 : State} (h0 : Keeps m l t r u3) {v : State} (h : execResume a0 a1 a2 u3 = .next v) : Keeps m l t r v := by
  unfold execResume at h
  try unfold onPort at h
  try unfold onNumber at h
  try dsimp only at h
  repeat' split at h
  all_goals first | (simp only [Host.Outcome.next.injEq] at h; subst h) | cases h | skip
  all_goals repeat' first | with_reducible assumption | with_reducible apply resumeEffect_keeps | intro _ | dsimp only

theorem execAck_keeps (a0) (a1) (a2) {u3 : State} (h0 : Keeps m l t r u3) {v : State} (h : execAck a0 a1 a2 u3 = .next v) : Keeps m l t r v := by
  unfold execAck onFrame onPort onNumber at h
  dsimp only at h
  split at h
  · simp only [Host.Outcome.next.injEq] at h
    subst h
    refine keeps_ite (fun _ => h0) (fun _ => keeps_ite (fun _ => ?_) (fun _ => ?_))
    · exact State.screen_keeps _ _ _ _ h0
    · exact State.screen_keeps _ _ _ _ h0
  · cases h

theorem execNoRootTimeout_keeps {u0 : State} (h0 : Keeps m l t r u0) {v : State} (h : execNoRootTimeout u0 = .next v) : Keeps m l t r v := by
  unfold execNoRootTimeout at h
  try dsimp only at h
  repeat' split at h
  all_goals first | (simp only [Host.Outcome.next.injEq] at h; subst h) | cases h | skip
  all_goals repeat' first
      | with_reducible assumption | with_reducible apply State.atNs_keeps | with_reducible apply State.modTime_keeps
      | with_reducible apply State.setHoldover_keeps | simp only [↓keeps_mk] | with_reducible apply keeps_ite | intro _ | split
      | dsimp only

theorem execHostLinkUp_keeps (a0) (a1) (a2) {u3 : State} (h0 : Keeps m l t r u3) {v : State} (h : execHostLinkUp a0 a1 a2 u3 = .next v) : Keeps m l t r v := by
  unfold execHostLinkUp at h
  try dsimp only at h
  repeat' split at h
  all_goals first | (simp only [Host.Outcome.next.injEq] at h; subst h) | cases h | skip
  all_goals repeat' first
      | with_reducible assumption | simp only [↓keeps_mk] | with_reducible apply keeps_ite | intro _ | split | dsimp only

theorem execIcmpv6Message_keeps (a0) (a1) {u2 : State} (h0 : Keeps m l t r u2) {v : State} (h : execIcmpv6Message a0 a1 u2 = .next v) : Keeps m l t r v := by
  unfold execIcmpv6Message at h
  try unfold onServer at h
  try unfold onNumber at h
  try dsimp only at h
  repeat' split at h
  all_goals first | (simp only [Host.Outcome.next.injEq] at h; subst h) | cases h | skip
  all_goals repeat' first
      | with_reducible assumption | with_reducible apply State.emit_keeps | with_reducible apply State.modServer_keeps
      | simp only [↓keeps_mk] | with_reducible apply keeps_ite | intro _ | split | dsimp only

theorem execPortRetrainRequest_keeps (a0) (a1) {u2 : State} (h0 : Keeps m l t r u2) {v : State} (h : execPortRetrainRequest a0 a1 u2 = .next v) : Keeps m l t r v := by
  unfold execPortRetrainRequest at h
  try unfold onPort at h
  try unfold onNumber at h
  try dsimp only at h
  repeat' split at h
  all_goals first | (simp only [Host.Outcome.next.injEq] at h; subst h) | cases h | skip
  all_goals repeat' first
      | with_reducible assumption | with_reducible apply State.guarded_keeps | with_reducible apply State.retrain_keeps
      | with_reducible apply keeps_ite | intro _ | split | dsimp only

theorem execServerLinkDown_keeps (a0) {u1 : State} (h0 : Keeps m l t r u1) {v : State} (h : execServerLinkDown a0 u1 = .next v) : Keeps m l t r v := by
  unfold execServerLinkDown at h
  try unfold onServer at h
  try unfold onNumber at h
  try dsimp only at h
  repeat' split at h
  all_goals first | (simp only [Host.Outcome.next.injEq] at h; subst h) | cases h | skip
  all_goals repeat' first
      | with_reducible assumption | with_reducible apply State.modServer_keeps | simp only [↓keeps_mk] | intro _ | dsimp only

theorem execSqWrite_keeps (a0) (a1) (a2) (a3) {u4 : State} (h0 : Keeps m l t r u4) {v : State} (h : execSqWrite a0 a1 a2 a3 u4 = .next v) : Keeps m l t r v := by
  unfold execSqWrite at h
  try unfold onQueue at h
  try unfold onNumber at h
  try dsimp only at h
  repeat' split at h
  all_goals first | (simp only [Host.Outcome.next.injEq] at h; subst h) | cases h | skip
  all_goals repeat' first | with_reducible assumption | with_reducible apply sqWriteEffect_keeps | intro _ | dsimp only

theorem execSqTailWrite_keeps (a0) (a1) {u2 : State} (h0 : Keeps m l t r u2) {v : State} (h : execSqTailWrite a0 a1 u2 = .next v) : Keeps m l t r v := by
  unfold execSqTailWrite at h
  try unfold onQueue at h
  try unfold onNumber at h
  try dsimp only at h
  repeat' split at h
  all_goals first | (simp only [Host.Outcome.next.injEq] at h; subst h) | cases h | skip
  all_goals repeat' first
      | with_reducible assumption | with_reducible apply State.modHostQ_keeps | with_reducible apply State.askWake_keeps
      | simp only [↓keeps_mk] | with_reducible apply keeps_ite | intro _ | split | dsimp only

theorem execFrameSend_keeps (a0) {u1 : State} (h0 : Keeps m l t r u1) {v : State} (h : execFrameSend a0 u1 = .next v) : Keeps m l t r v := by
  unfold execFrameSend at h
  try unfold onPort at h
  try unfold onNumber at h
  try dsimp only at h
  repeat' split at h
  all_goals first | (simp only [Host.Outcome.next.injEq] at h; subst h) | cases h | skip
  all_goals repeat' first | with_reducible assumption | with_reducible apply frameSendEffect_keeps | intro _ | dsimp only

theorem execPortRetrainTimeout_keeps (a0) {u1 : State} (h0 : Keeps m l t r u1) {v : State} (h : execPortRetrainTimeout a0 u1 = .next v) : Keeps m l t r v := by
  unfold execPortRetrainTimeout at h
  try unfold onPort at h
  try unfold onNumber at h
  try dsimp only at h
  repeat' split at h
  all_goals first | (simp only [Host.Outcome.next.injEq] at h; subst h) | cases h | skip
  all_goals repeat' first | with_reducible assumption | with_reducible apply retrainTimeoutEffect_keeps | intro _ | dsimp only

theorem execPsPush_keeps (a0) (a1) {u2 : State} (h0 : Keeps m l t r u2) {v : State} (h : execPsPush a0 a1 u2 = .next v) : Keeps m l t r v := by
  unfold execPsPush at h
  try unfold onQueue at h
  try unfold onNumber at h
  try dsimp only at h
  repeat' split at h
  all_goals first | (simp only [Host.Outcome.next.injEq] at h; subst h) | cases h | skip
  all_goals repeat' first | with_reducible assumption | with_reducible apply psPushEffect_keeps | intro _ | dsimp only

theorem execStageEntrySend_keeps (a0) (a1) {u2 : State} (h0 : Keeps m l t r u2) {v : State} (h : execStageEntrySend a0 a1 u2 = .next v) : Keeps m l t r v := by
  unfold execStageEntrySend at h
  try unfold onGroup at h
  try unfold onNumber at h
  try dsimp only at h
  repeat' split at h
  all_goals first | (simp only [Host.Outcome.next.injEq] at h; subst h) | cases h | skip
  all_goals repeat' first
      | with_reducible assumption | with_reducible apply stageEntryEffect_keeps | with_reducible apply keeps_ite | intro _ | split
      | dsimp only

theorem execHqCfgWrite_keeps (a0) (a1) {u2 : State} (h0 : Keeps m l t r u2) {v : State} (h : execHqCfgWrite a0 a1 u2 = .next v) : Keeps m l t r v := by
  unfold execHqCfgWrite at h
  try unfold onQueue at h
  try unfold onNumber at h
  try dsimp only at h
  repeat' split at h
  all_goals first | (simp only [Host.Outcome.next.injEq] at h; subst h) | cases h | skip
  all_goals repeat' first | with_reducible assumption | with_reducible apply hqCfgEffect_keeps | intro _ | dsimp only

theorem execPsData_keeps (a0) {u1 : State} (h0 : Keeps m l t r u1) {v : State} (h : execPsData a0 u1 = .next v) : Keeps m l t r v := by
  unfold execPsData at h
  try unfold onDatagram at h
  try dsimp only at h
  repeat' split at h
  all_goals first | (simp only [Host.Outcome.next.injEq] at h; subst h) | cases h | skip
  all_goals repeat' first
      | with_reducible assumption | with_reducible apply State.modSrv_keeps | with_reducible apply psDataEffect_keeps
      | with_reducible apply keeps_ite | intro _ | split | dsimp only

theorem execKeepalive_keeps (a0) {u1 : State} (h0 : Keeps m l t r u1) {v : State} (h : execKeepalive a0 u1 = .next v) : Keeps m l t r v := by
  unfold execKeepalive onDatagram at h
  simp only [Host.Outcome.next.injEq] at h
  subst h
  exact keeps_ite (fun _ => State.modSrv_keeps _ _ _ h0) (fun _ => h0)

theorem execTimeFrame_keeps (a0) (a1) (a2) (a3) {u4 : State} (h0 : Keeps m l t r u4) {v : State} (h : execTimeFrame a0 a1 a2 a3 u4 = .next v) : Keeps m l t r v := by
  unfold execTimeFrame at h
  try unfold onFrame at h
  try unfold onPort at h
  try unfold onNumber at h
  try dsimp only at h
  repeat' split at h
  all_goals first | (simp only [Host.Outcome.next.injEq] at h; subst h) | cases h | skip
  all_goals repeat' first
      | with_reducible assumption | with_reducible apply State.screen_keeps | with_reducible apply State.takeTime_keeps
      | simp only [↓keeps_mk] | with_reducible apply keeps_ite | intro _ | split | dsimp only

theorem execReplayTimeout_keeps (a0) {u1 : State} (h0 : Keeps m l t r u1) {v : State} (h : execReplayTimeout a0 u1 = .next v) : Keeps m l t r v := by
  unfold execReplayTimeout at h
  try unfold onPort at h
  try unfold onNumber at h
  try dsimp only at h
  repeat' split at h
  all_goals first | (simp only [Host.Outcome.next.injEq] at h; subst h) | cases h | skip
  all_goals repeat' first | with_reducible assumption | with_reducible apply replayTimeoutEffect_keeps | intro _ | dsimp only

theorem execCqHeadWrite_keeps (a0) (a1) {u2 : State} (h0 : Keeps m l t r u2) {v : State} (h : execCqHeadWrite a0 a1 u2 = .next v) : Keeps m l t r v := by
  unfold execCqHeadWrite at h
  try unfold onQueue at h
  try unfold onNumber at h
  try dsimp only at h
  repeat' split at h
  all_goals first | (simp only [Host.Outcome.next.injEq] at h; subst h) | cases h | skip
  all_goals repeat' first
      | with_reducible assumption | with_reducible apply State.modHostQ_keeps | simp only [↓keeps_mk] | with_reducible apply keeps_ite
      | intro _ | split | dsimp only

theorem execRdReq_keeps (a0) (a1) (a2) {u3 : State} (h0 : Keeps m l t r u3) {v : State} (h : execRdReq a0 a1 a2 u3 = .next v) : Keeps m l t r v := by
  unfold execRdReq at h
  try unfold onFrame at h
  try unfold onPort at h
  try unfold onNumber at h
  try dsimp only at h
  repeat' split at h
  all_goals first | (simp only [Host.Outcome.next.injEq] at h; subst h) | cases h | skip
  all_goals repeat' first
      | with_reducible assumption | with_reducible apply State.acceptRequest_keeps | with_reducible apply State.screen_keeps
      | simp only [↓keeps_mk] | with_reducible apply keeps_ite | intro _ | split | dsimp only

theorem execIngest_keeps (a0) (a1) (a2) (a3) {u4 : State} (h0 : Keeps m l t r u4) {v : State} (h : execIngest a0 a1 a2 a3 u4 = .next v) : Keeps m l t r v := by
  unfold execIngest at h
  try unfold onQueue at h
  try unfold onNumber at h
  try dsimp only at h
  repeat' split at h
  all_goals first | (simp only [Host.Outcome.next.injEq] at h; subst h) | cases h | skip
  all_goals repeat' first | with_reducible assumption | with_reducible apply ingestEffect_keeps | intro _ | dsimp only

theorem execSendFrame_keeps (a0) (a1) (a2) {u3 : State} (h0 : Keeps m l t r u3) {v : State} (h : execSendFrame a0 a1 a2 u3 = .next v) : Keeps m l t r v := by
  unfold execSendFrame at h
  try unfold onFrame at h
  try unfold onPort at h
  try unfold onNumber at h
  try dsimp only at h
  repeat' split at h
  all_goals first | (simp only [Host.Outcome.next.injEq] at h; subst h) | cases h | skip
  all_goals repeat' first
      | with_reducible assumption | with_reducible apply State.acceptRequest_keeps | with_reducible apply State.screen_keeps
      | simp only [↓keeps_mk] | with_reducible apply keeps_ite | intro _ | split | dsimp only

theorem execLaneLossOfLight_keeps (a0) (a1) (a2) {u3 : State} (h0 : Keeps m l t r u3) {v : State} (h : execLaneLossOfLight a0 a1 a2 u3 = .next v) : Keeps m l t r v := by
  unfold execLaneLossOfLight at h
  try unfold onPort at h
  try unfold onNumber at h
  try dsimp only at h
  repeat' split at h
  all_goals first | (simp only [Host.Outcome.next.injEq] at h; subst h) | cases h | skip
  all_goals repeat' first
      | with_reducible assumption | with_reducible apply laneLossEffect_keeps | with_reducible apply keeps_ite | intro _ | split
      | dsimp only

theorem execNak_keeps (a0) (a1) (a2) {u3 : State} (h0 : Keeps m l t r u3) {v : State} (h : execNak a0 a1 a2 u3 = .next v) : Keeps m l t r v := by
  unfold execNak at h
  try unfold onFrame at h
  try unfold onPort at h
  try unfold onNumber at h
  try dsimp only at h
  repeat' split at h
  all_goals first | (simp only [Host.Outcome.next.injEq] at h; subst h) | cases h | skip
  all_goals repeat' first
      | with_reducible assumption | with_reducible apply State.goBack_keeps | with_reducible apply State.screen_keeps
      | with_reducible apply keeps_ite | intro _ | split | dsimp only

theorem execPsAck_keeps (a0) {u1 : State} (h0 : Keeps m l t r u1) {v : State} (h : execPsAck a0 u1 = .next v) : Keeps m l t r v := by
  unfold execPsAck at h
  try unfold onDatagram at h
  try dsimp only at h
  repeat' split at h
  all_goals first | (simp only [Host.Outcome.next.injEq] at h; subst h) | cases h | skip
  all_goals repeat' first
      | with_reducible assumption | with_reducible apply State.modSrv_keeps | with_reducible apply psAckEffect_keeps
      | with_reducible apply keeps_ite | intro _ | split | dsimp only

theorem execEntryComplete_keeps (a0) {u1 : State} (h0 : Keeps m l t r u1) {v : State} (h : execEntryComplete a0 u1 = .next v) : Keeps m l t r v := by
  unfold execEntryComplete at h
  try unfold onQueue at h
  try unfold onNumber at h
  try dsimp only at h
  repeat' split at h
  all_goals first | (simp only [Host.Outcome.next.injEq] at h; subst h) | cases h | skip
  all_goals repeat' first | with_reducible assumption | with_reducible apply entryCompleteEffect_keeps | intro _ | dsimp only

theorem execPerstDeassert_keeps {u0 : State} (h0 : Keeps m l t r u0) {v : State} (h : execPerstDeassert u0 = .next v) : Keeps m l t r v := by
  unfold execPerstDeassert at h
  try dsimp only at h
  repeat' split at h
  all_goals first | (simp only [Host.Outcome.next.injEq] at h; subst h) | cases h | skip
  all_goals repeat' first
      | with_reducible assumption | simp only [↓keeps_mk] | with_reducible apply keeps_ite | intro _ | split | dsimp only

theorem execExportRetransmit_keeps (a0) (a1) {u2 : State} (h0 : Keeps m l t r u2) {v : State} (h : execExportRetransmit a0 a1 u2 = .next v) : Keeps m l t r v := by
  unfold execExportRetransmit at h
  try unfold onStackPart at h
  try unfold onPartition at h
  try unfold onNumber at h
  try dsimp only at h
  repeat' split at h
  all_goals first | (simp only [Host.Outcome.next.injEq] at h; subst h) | cases h | skip
  all_goals repeat' first
      | with_reducible assumption | with_reducible apply retransmitEffect_keeps | with_reducible apply keeps_ite | intro _ | split
      | dsimp only

end Sys2Proof.Machine
end

