-- ==== Sys2Proof/Laws/KeepsManagement.lean ====
section
/-! SUPPORT. What an operation leaves alone (Keeps), lemma by lemma for trust, records, power, clocks, bring-up, re-binding, registers and pins. -/

namespace Sys2Proof.Machine

open Sys2Proof

set_option Elab.async false
set_option linter.unusedSimpArgs false
set_option linter.unusedVariables false

variable {m l t : Bool} {r s : State}

theorem State.powerEvent_keeps {u0 : State} (old)
    (h0 : Keeps m l t r u0) :
    Keeps m l t r (State.powerEvent u0 old) := by
  unfold State.powerEvent
  try dsimp only
  repeat' first
      | with_reducible assumption | with_reducible apply State.raiseEvent_keeps | with_reducible apply keeps_ite | intro _ | split
      | dsimp only

theorem State.mapOutSlot_keeps {u0 : State} (slot)
    (h0 : Keeps m l t r u0) :
    Keeps m l t r (State.mapOutSlot u0 slot) := by
  unfold State.mapOutSlot
  try dsimp only
  repeat' first
      | with_reducible assumption | with_reducible apply State.moveCores_keeps | with_reducible apply State.modFabric_keeps
      | simp only [↓keeps_mk] | with_reducible apply keeps_ite | intro _ | split | dsimp only

theorem State.mapOutLane_keeps {u0 : State} (e)
    (h0 : Keeps m l t r u0) :
    Keeps m l t r (State.mapOutLane u0 e) := by
  unfold State.mapOutLane
  try dsimp only
  repeat' first
      | with_reducible assumption | with_reducible apply State.modFabric_keeps | simp only [↓keeps_mk] | with_reducible apply keeps_ite
      | intro _ | split | dsimp only

theorem State.mapOut_keeps {u0 : State} (e)
    (h0 : Keeps m l t r u0) :
    Keeps m l t r (State.mapOut u0 e) := by
  unfold State.mapOut
  try dsimp only
  repeat' first
      | with_reducible assumption | with_reducible apply State.mapOutSlot_keeps | with_reducible apply State.modCluster_keeps
      | with_reducible apply State.mapOutLane_keeps | simp only [↓keeps_mk] | with_reducible apply keeps_ite
      | with_reducible apply keeps_foldl | intro _ | with_reducible apply keeps_foldl_snd | split | dsimp only

theorem State.buildGuards_keeps {u0 : State} (defects)
    (h0 : Keeps m l t r u0) :
    Keeps m l t r (State.buildGuards u0 defects) := by
  unfold State.buildGuards
  try dsimp only
  repeat' first
      | with_reducible assumption | with_reducible apply State.mapOut_keeps | with_reducible apply keeps_foldl | intro _
      | with_reducible apply keeps_foldl_snd | dsimp only

theorem State.logLost_keeps {u0 : State} (ty) (a2)
    (h0 : Keeps m l t r u0) :
    Keeps m l t r (State.logLost u0 ty a2) := by
  unfold State.logLost
  try dsimp only
  repeat' first | with_reducible assumption | with_reducible apply State.log_keeps | intro _ | dsimp only

theorem State.restoreGuards_keeps {u0 : State} (defects)
    (h0 : Keeps m l t r u0) :
    Keeps m l t r (State.restoreGuards u0 defects) := by
  unfold State.restoreGuards
  try dsimp only
  repeat' first
      | with_reducible assumption | with_reducible apply State.modFabric_keeps | with_reducible apply State.modCluster_keeps
      | with_reducible apply State.buildGuards_keeps | with_reducible apply State.logLost_keeps | simp only [↓keeps_mk]
      | with_reducible apply keeps_ite | with_reducible apply keeps_foldl | intro _ | with_reducible apply keeps_foldl_snd | split
      | dsimp only

theorem State.modClk_keeps {u0 : State} (f)
    (h0 : Keeps m l t r u0) :
    Keeps m l t r (State.modClk u0 f) := by
  unfold State.modClk
  try dsimp only
  repeat' first | with_reducible assumption | simp only [↓keeps_mk] | intro _ | dsimp only

theorem State.enterLifecycle_keeps {u0 : State} (v) (h0 : Keeps m l false r u0)
    (hv : u0.trust.RetiredRight → u0.trust.retiredFuse = true → v = 4) : Keeps m l false r (u0.enterLifecycle v) := by
  unfold State.enterLifecycle State.modTrust
  dsimp only
  have h1 : Keeps m l false r (if v = 0 ∨ v = 3 ∨ (u0.pinGroup 4).fn = 0 then u0
      else u0.modPinGroup 4 (fun g => { g with fn := 0, upto := none })) := keeps_ite (fun _ => h0) (fun _ => State.modPinGroup_keeps _ _ h0)
  have ht : (if v = 0 ∨ v = 3 ∨ (u0.pinGroup 4).fn = 0 then u0
      else u0.modPinGroup 4 (fun g => { g with fn := 0, upto := none })).trust = u0.trust := by split <;> rfl
  revert h1 ht
  generalize (if v = 0 ∨ v = 3 ∨ (u0.pinGroup 4).fn = 0 then u0 else u0.modPinGroup 4 (fun g => { g with fn := 0, upto := none })) = w
  intro h1 ht
  simp only [↓keeps_mk]
  rw [← ht] at hv
  exact State.raiseEvent_keeps _ _ _ _ (State.nvPut_keeps _ _ _ (h1.trustOf (fun x y => hv x y) ⟨id, id, Nat.le_refl _, Nat.le_refl _⟩))

theorem State.enterLifecycle_blown {u0 w : State} (v) (h0 : Keeps m l false r w) (hp : u0.pending = w.pending) (hm : MemOk w → MemOk u0)
    (hx : u0.pmap = w.pmap) (hl : u0.lease = w.lease)
    (hf : (w.trust.retiredFuse = true → u0.trust.retiredFuse = true) ∧ (w.trust.provisionedFuse = true → u0.trust.provisionedFuse = true)
      ∧ w.trust.debugCount ≤ u0.trust.debugCount ∧ w.trust.fwSvn ≤ u0.trust.fwSvn) (hv : v = 4) :
    Keeps m l false r (u0.enterLifecycle v) := by
  subst hv
  unfold State.enterLifecycle State.modTrust
  dsimp only
  simp only [↓keeps_mk]
  refine State.raiseEvent_keeps _ _ _ _ (State.nvPut_keeps _ _ _ ?_)
  split
  · exact h0.trustOf (fun _ _ => rfl) hf hp hm hx hl
  · exact h0.trustOf (fun _ _ => rfl) hf hp hm hx hl

theorem State.retired_keeps {x : State} (h2 : Keeps m l false r x) : Keeps m l false r
    ((({ x with power := { x.power with stages := [] } }).modTrust (fun t => { t with retiredFuse := true })).enterLifecycle 4) :=
  State.enterLifecycle_blown 4 h2 rfl (fun z => ⟨z.1, z.2.1, z.2.2⟩) rfl rfl ⟨fun _ => rfl, id, Nat.le_refl _, Nat.le_refl _⟩ rfl

theorem State.failed_keeps {u0 : State} (n) (h0 : Keeps m l t r u0) :
    Keeps m l t r (u0.modTrust (fun t => { t with cmdFail := n })) := keeps_mk_trust.2 h0

theorem State.taken_keeps {u0 : State} (h0 : Keeps m l t r u0) :
    Keeps m l t r (u0.modTrust (fun t => { t with cmdFail := 0, report := t.report.map (fun r => (r.1, r.2.1, true)) })) := keeps_mk_trust.2 h0

theorem cmdFail_zero {s : State} {x : LcCmd} {states : List Nat} {vendor : Bool} {more : Nat} (h : s.cmdFail x states vendor more = 0) :
    s.trust.lifecycle ∈ states ∧ more = 0 := by
  unfold State.cmdFail at h
  repeat' split at h
  all_goals simp_all

theorem State.resetTest_keeps {u0 : State}
    (h0 : Keeps m l t r u0) :
    Keeps m l t r (State.resetTest u0) := by
  unfold State.resetTest
  try dsimp only
  repeat' first | with_reducible assumption | simp only [↓keeps_mk] | intro _ | dsimp only

theorem State.stopNow_keeps {u0 : State} (p) (why)
    (h0 : Keeps m l t r u0) :
    Keeps m l t r (State.stopNow u0 p why) := by
  unfold State.stopNow
  try dsimp only
  repeat' first
      | with_reducible assumption | with_reducible apply stopDeliveredEffect_keeps | with_reducible apply State.raiseStop_keeps
      | with_reducible apply State.modFabric_keeps | with_reducible apply State.eachCtx_keeps
      | with_reducible apply partitionStoppedEffect_keeps | simp only [↓keeps_mk] | with_reducible apply keeps_ite | intro _ | split
      | dsimp only

theorem State.stopAllNow_keeps {u0 : State} (why)
    (h0 : Keeps m l t r u0) :
    Keeps m l t r (State.stopAllNow u0 why) := by
  unfold State.stopAllNow
  try dsimp only
  repeat' first
      | with_reducible assumption | with_reducible apply State.stopNow_keeps | with_reducible apply keeps_foldl | intro _
      | with_reducible apply keeps_foldl_snd | dsimp only

theorem State.zeroOwned_keeps {u0 : State} (c)
    (h0 : Keeps m l t r u0) :
    Keeps m l t r (State.zeroOwned u0 c) := by
  unfold State.zeroOwned
  try dsimp only
  repeat' first
      | with_reducible assumption | with_reducible apply State.zeroCluster_keeps | with_reducible apply State.modCluster_keeps
      | with_reducible apply State.modSync_keeps | with_reducible apply State.modCtx_keeps | simp only [↓keeps_mk]
      | with_reducible apply keeps_foldl | intro _ | with_reducible apply keeps_foldl_snd | dsimp only

theorem State.givePages_keeps {u0 : State} (moves) (block) (ns)
    (h0 : Keeps m l t r u0) :
    Keeps m l t r (State.givePages u0 moves block ns) := by
  unfold State.givePages
  dsimp only
  exact State.modStore_keeps _ (keeps_mk_smem h0)

theorem State.zeroPartition_keeps {u0 : State} (p)
    (h0 : Keeps m l t r u0) :
    Keeps m l t r (State.zeroPartition u0 p) := by
  unfold State.zeroPartition
  try dsimp only
  repeat' first
      | with_reducible assumption | with_reducible apply State.zeroOwned_keeps | with_reducible apply State.modFabric_keeps
      | with_reducible apply State.modColl_keeps | with_reducible apply State.modGroup_keeps
      | with_reducible apply State.givePages_keeps | with_reducible apply State.modStore_keeps | with_reducible apply (keeps_mk_smem)
      | simp only [↓keeps_mk] | with_reducible apply keeps_ite | with_reducible apply keeps_foldl | intro _
      | with_reducible apply keeps_foldl_snd | split | dsimp only

theorem State.ownerChange_keeps {u0 : State} (p) (id)
    (h0 : Keeps m l t r u0) :
    Keeps m l t r (State.ownerChange u0 p id) := by
  unfold State.ownerChange
  try dsimp only
  repeat' first
      | with_reducible assumption | with_reducible apply State.modOwner_keeps | with_reducible apply State.modSrv_keeps
      | with_reducible apply State.nvErase_keeps | with_reducible apply State.dropSession_keeps
      | with_reducible apply State.disableOwnerQueues_keeps | with_reducible apply State.zeroPartition_keeps
      | with_reducible apply State.modBind_keeps | with_reducible apply State.modPart_keeps
      | with_reducible apply State.raiseEvent_keeps | with_reducible apply State.releaseStacks_keeps | simp only [↓keeps_mk]
      | with_reducible apply keeps_foldl | intro _ | with_reducible apply keeps_foldl_snd | dsimp only

theorem ownerZeroedEffect_keeps (p) {u1 : State}
    (h1 : Keeps m l t r u1) :
    Keeps m l t r (ownerZeroedEffect p u1) := by
  unfold ownerZeroedEffect
  try dsimp only
  repeat' first
      | with_reducible assumption | with_reducible apply State.atNs_keeps | with_reducible apply State.modOwner_keeps
      | simp only [↓keeps_mk] | with_reducible apply keeps_ite | intro _ | split | dsimp only

theorem State.wipe_keeps {u0 : State}
    (h0 : Keeps m l t r u0) :
    Keeps m l t r (State.wipe u0) := by
  unfold State.wipe State.modTrust
  try dsimp only
  repeat' first
      | with_reducible assumption | with_reducible apply State.stopAllNow_keeps | with_reducible apply State.dropSession_keeps
      | with_reducible apply State.ownerChange_keeps | with_reducible apply State.nvPut_keeps
      | with_reducible apply ownerZeroedEffect_keeps | simp only [↓keeps_mk, ↓keeps_mk_trust] | with_reducible apply keeps_foldl
      | intro _ | with_reducible apply keeps_foldl_snd | dsimp only

theorem State.enterDebugCmd_keeps {u0 : State} (cmd)
    (h0 : Keeps m l false r u0) :
    Keeps m l false r (State.enterDebugCmd u0 cmd) := by
  unfold State.enterDebugCmd State.runCmd
  dsimp only
  refine keeps_ite (fun _ => h0) (fun _ => keeps_ite (fun _ => State.failed_keeps _ h0) (fun hz => ?_))
  have h1 : Keeps m l false r (u0.modTrust (fun t => { t with cmdFail := 0, report := t.report.map (fun r => (r.1, r.2.1, true)) })) := State.taken_keeps h0
  have hl1 : (u0.modTrust (fun t => { t with cmdFail := 0, report := t.report.map (fun r => (r.1, r.2.1, true)) })).trust.lifecycle = 2 :=
    List.mem_singleton.1 (cmdFail_zero (Decidable.not_not.1 hz)).1
  revert h1 hl1
  generalize u0.modTrust _ = w
  intro h1 hl1
  have hw := ((State.wipe_keeps (m := true) (l := true) (t := true) (Keeps.refl w)).life rfl).1.trans hl1
  have h2 := State.wipe_keeps h1
  revert hw h2
  generalize w.wipe = x
  intro hw h2
  have h3 : Keeps m l false r (x.modTrust (fun t => { t with debugCount := t.debugCount + 1 })) :=
    h2.trustOf (fun a b => a b) ⟨id, id, Nat.le_succ _, Nat.le_refl _⟩
  have hx : (x.modTrust (fun t => { t with debugCount := t.debugCount + 1 })).trust.lifecycle = 2 := hw
  revert h3 hx
  generalize x.modTrust _ = y
  intro h3 hx
  have hy := ((State.resetTest_keeps (m := true) (l := true) (t := true) (Keeps.refl y)).life rfl).1.trans hx
  exact State.enterLifecycle_keeps _ (State.resetTest_keeps h3) (fun hr hf => absurd ((hr hf).symm.trans hy) (by decide))

theorem State.releaseCmd_keeps {u0 : State} (cmd)
    (h0 : Keeps m l false r u0) :
    Keeps m l false r (State.releaseCmd u0 cmd) := by
  unfold State.releaseCmd State.runCmd
  dsimp only
  refine keeps_ite (fun _ => h0) (fun _ => keeps_ite (fun _ => State.failed_keeps _ h0) (fun hz => ?_))
  have h1 : Keeps m l false r (u0.modTrust (fun t => { t with cmdFail := 0, report := t.report.map (fun r => (r.1, r.2.1, true)) })) := State.taken_keeps h0
  have hl1 : (u0.modTrust (fun t => { t with cmdFail := 0, report := t.report.map (fun r => (r.1, r.2.1, true)) })).trust.lifecycle = 2 :=
    List.mem_singleton.1 (cmdFail_zero (Decidable.not_not.1 hz)).1
  revert h1 hl1
  generalize u0.modTrust _ = w
  intro h1 hl1
  have hw := ((State.wipe_keeps (m := true) (l := true) (t := true) (Keeps.refl w)).life rfl).1.trans hl1
  have h2 := State.wipe_keeps h1
  revert hw h2
  generalize w.wipe = x
  intro hw h2
  have h3 : Keeps m l false r (x.modTrust (fun t => { t with operatorPk := [] })) := keeps_mk_trust.2 h2
  have hx : (x.modTrust (fun t => { t with operatorPk := [] })).trust.lifecycle = 2 := hw
  revert h3 hx
  generalize x.modTrust _ = y
  intro h3 hx
  exact State.enterLifecycle_keeps _ h3 (fun hr hf => absurd ((hr hf).symm.trans hx) (by decide))

theorem State.lightsOut_keeps {u0 : State}
    (h0 : Keeps m l t r u0) :
    Keeps m l t r (State.lightsOut u0) := by
  unfold State.lightsOut
  try dsimp only
  repeat' first
      | with_reducible assumption | with_reducible apply State.dropSession_keeps | simp only [↓keeps_mk]
      | with_reducible apply keeps_ite | with_reducible apply keeps_foldl | intro _ | with_reducible apply keeps_foldl_snd | split
      | dsimp only

theorem State.retireCmd_keeps {u0 : State} (cmd)
    (h0 : Keeps m l false r u0) :
    Keeps m l false r (State.retireCmd u0 cmd) := by
  unfold State.retireCmd State.runCmd
  dsimp only
  refine keeps_ite (fun _ => h0) (fun _ => keeps_ite (fun _ => State.failed_keeps _ h0) (fun hz => ?_))
  have h1 : Keeps m l false r (u0.modTrust (fun t => { t with cmdFail := 0, report := t.report.map (fun r => (r.1, r.2.1, true)) })) := State.taken_keeps h0
  have h2 := State.lightsOut_keeps (State.wipe_keeps h1)
  exact State.retired_keeps h2

theorem State.setSvnCmd_keeps {u0 : State} (cmd)
    (h0 : Keeps m l t r u0) :
    Keeps m l t r (State.setSvnCmd u0 cmd) := by
  unfold State.setSvnCmd State.runCmd
  dsimp only
  refine keeps_ite (fun _ => h0) (fun _ => keeps_ite (fun _ => State.failed_keeps _ h0) (fun hz => ?_))
  have h1 : Keeps m l t r (u0.modTrust (fun t => { t with cmdFail := 0, report := t.report.map (fun r => (r.1, r.2.1, true)) })) := State.taken_keeps h0
  revert h1
  generalize u0.modTrust _ = w
  intro h1
  exact ⟨h1.pending, h1.mem, h1.right, ⟨h1.fuses.1, h1.fuses.2.1, h1.fuses.2.2.1, Nat.le_trans h1.fuses.2.2.2 (Nat.le_max_left _ _)⟩, h1.map, h1.lease,
    h1.life⟩

theorem State.writeStore_keeps {u0 : State} (stack) (off) (v) (hw) (who)
    (h0 : Keeps m l t r u0) :
    Keeps m l t r (State.writeStore u0 stack off v hw who) := by
  unfold State.writeStore
  try dsimp only
  repeat' first
      | with_reducible assumption | with_reducible apply State.modPage_keeps | with_reducible apply State.modStore_keeps
      | with_reducible apply State.modStack_keeps | simp only [↓keeps_mk] | with_reducible apply keeps_ite | intro _ | split
      | dsimp only

theorem State.writeCluster_keeps {u0 : State} (c) (off) (v) (hw) (who)
    (h0 : Keeps m l t r u0) :
    Keeps m l t r (State.writeCluster u0 c off v hw who) := by
  unfold State.writeCluster
  refine keeps_ite (fun _ => ?_) (fun _ => ?_)
  · dsimp only
    repeat' first
        | with_reducible assumption | with_reducible apply State.modCluster_keeps | with_reducible apply flipWriteEffect_keeps
        | with_reducible apply circWriteEffect_keeps | with_reducible apply resWriteEffect_keeps
        | with_reducible apply State.raiseStop_keeps | with_reducible apply unloadEffect_keeps
        | simp only [↓keeps_mk, ↓keeps_mk_trust, ↓keeps_mk_lease, ↓keeps_mk_map, ↓keeps_mk_lease0] | with_reducible apply keeps_ite
        | with_reducible apply keeps_foldl | intro _ | with_reducible apply keeps_foldl_snd | split | dsimp only
  · generalize off - 0x1000 = k
    split
    all_goals repeat' first
        | with_reducible assumption | with_reducible apply State.modCluster_keeps | with_reducible apply flipWriteEffect_keeps
        | with_reducible apply circWriteEffect_keeps | with_reducible apply resWriteEffect_keeps
        | with_reducible apply State.raiseStop_keeps | with_reducible apply unloadEffect_keeps
        | simp only [↓keeps_mk, ↓keeps_mk_trust, ↓keeps_mk_lease, ↓keeps_mk_map, ↓keeps_mk_lease0] | with_reducible apply keeps_ite
        | with_reducible apply keeps_foldl | intro _ | with_reducible apply keeps_foldl_snd | split | dsimp only

theorem State.writePort_keeps {u0 : State} (n) (off) (v) (who)
    (h0 : Keeps m l t r u0) :
    Keeps m l t r (State.writePort u0 n off v who) := by
  unfold State.writePort
  try dsimp only
  repeat' first
      | with_reducible assumption | with_reducible apply State.modPort_keeps | simp only [↓keeps_mk] | with_reducible apply keeps_ite
      | intro _ | split | dsimp only

theorem State.writeControl_keeps {u0 : State} (space) (a) (v) (who)
    (h0 : Keeps m l t r u0) :
    Keeps m l t r (State.writeControl u0 space a v who) := by
  unfold State.writeControl
  try dsimp only
  repeat' first
      | with_reducible assumption | with_reducible apply State.writeStore_keeps | with_reducible apply fabricWriteEffect_keeps
      | with_reducible apply State.writeCluster_keeps | with_reducible apply State.settle_keeps
      | with_reducible apply State.writePort_keeps | simp only [↓keeps_mk] | with_reducible apply keeps_ite | intro _ | split
      | dsimp only

theorem State.holdKey_keeps {u0 : State} (p) (key)
    (h0 : Keeps m l t r u0) :
    Keeps m l t r (State.holdKey u0 p key) := by
  unfold State.holdKey
  try dsimp only
  repeat' first
      | with_reducible assumption | with_reducible apply State.modOwner_keeps | with_reducible apply State.beginSession_keeps
      | simp only [↓keeps_mk] | with_reducible apply keeps_foldl | intro _ | with_reducible apply keeps_foldl_snd | dsimp only

theorem keyDeliveryEffect_keeps (p) (d) {u2 : State}
    (h2 : Keeps m l t r u2) :
    Keeps m l t r (keyDeliveryEffect p d u2) := by
  unfold keyDeliveryEffect
  try dsimp only
  repeat' first
      | with_reducible assumption | with_reducible apply State.holdKey_keeps | with_reducible apply State.nvRequest_keeps
      | with_reducible apply State.modOwner_keeps | simp only [↓keeps_mk] | with_reducible apply keeps_ite | intro _ | split
      | dsimp only

theorem State.modPower_keeps {u0 : State} (f)
    (h0 : Keeps m l t r u0) :
    Keeps m l t r (State.modPower u0 f) := by
  unfold State.modPower
  try dsimp only
  repeat' first | with_reducible assumption | simp only [↓keeps_mk] | intro _ | dsimp only

theorem State.beginRelock_keeps {u0 : State} (op)
    (h0 : Keeps m l t r u0) :
    Keeps m l t r (State.beginRelock u0 op) := by
  unfold State.beginRelock
  try dsimp only
  repeat' first
      | with_reducible assumption | with_reducible apply State.advance_keeps | with_reducible apply State.modClk_keeps
      | simp only [↓keeps_mk] | intro _ | dsimp only

theorem State.changeOpPoint_keeps {u0 : State} (op)
    (h0 : Keeps m l t r u0) :
    Keeps m l t r (State.changeOpPoint u0 op) := by
  unfold State.changeOpPoint
  try dsimp only
  repeat' first
      | with_reducible assumption | with_reducible apply State.modPower_keeps | with_reducible apply State.beginRelock_keeps
      | simp only [↓keeps_mk] | with_reducible apply keeps_ite | intro _ | split | dsimp only

theorem State.raiseStart_keeps {u0 : State} (p)
    (h0 : Keeps m l t r u0) :
    Keeps m l t r (State.raiseStart u0 p) := by
  unfold State.raiseStart
  try dsimp only
  repeat' first
      | with_reducible assumption | with_reducible apply State.wakeUp_keeps | with_reducible apply State.modPart_keeps
      | simp only [↓keeps_mk] | intro _ | dsimp only

theorem State.askStart_keeps {u0 : State} (p)
    (h0 : Keeps m l t r u0) :
    Keeps m l t r (State.askStart u0 p) := by
  unfold State.askStart
  try dsimp only
  repeat' first
      | with_reducible assumption | with_reducible apply State.raiseStart_keeps | with_reducible apply keeps_ite | intro _ | split
      | dsimp only

theorem State.askRebind_keeps {u0 : State} (p)
    (h0 : Keeps m l t r u0) :
    Keeps m l t r (State.askRebind u0 p) := by
  unfold State.askRebind
  try dsimp only
  repeat' first
      | with_reducible assumption | with_reducible apply State.modBind_keeps | simp only [↓keeps_mk] | with_reducible apply keeps_ite
      | intro _ | split | dsimp only

theorem clkmonEffect_keeps (v) {u1 : State}
    (h1 : Keeps m l t r u1) :
    Keeps m l t r (clkmonEffect v u1) := by
  unfold clkmonEffect
  try dsimp only
  repeat' first
      | with_reducible assumption | with_reducible apply State.modClk_keeps | simp only [↓keeps_mk] | with_reducible apply keeps_ite
      | intro _ | split | dsimp only

theorem State.respond_keeps {u0 : State} (session) (a2)
    (h0 : Keeps m l t r u0) :
    Keeps m l t r (State.respond u0 session a2) := by
  unfold State.respond
  try dsimp only
  repeat' first
      | with_reducible assumption | with_reducible apply State.emit_keeps | simp only [↓keeps_mk] | with_reducible apply keeps_ite
      | intro _ | split | dsimp only

theorem State.answerLater_keeps {u0 : State} (reply) (status)
    (h0 : Keeps m l t r u0) :
    Keeps m l t r (State.answerLater u0 reply status) := by
  unfold State.answerLater
  try dsimp only
  repeat' first
      | with_reducible assumption | with_reducible apply State.emit_keeps | with_reducible apply State.respond_keeps
      | simp only [↓keeps_mk] | with_reducible apply keeps_ite | intro _ | split | dsimp only

theorem State.pinBegin_keeps {u0 : State} (g) (w)
    (h0 : Keeps m l t r u0) :
    Keeps m l t r (State.pinBegin u0 g w) := by
  unfold State.pinBegin
  try dsimp only
  repeat' first
      | with_reducible assumption | with_reducible apply State.answerLater_keeps | with_reducible apply State.modPinGroup_keeps
      | simp only [↓keeps_mk] | with_reducible apply keeps_ite | intro _ | split | dsimp only

theorem State.pinNext_keeps (fuel) (g) {u2 : State}
    (h2 : Keeps m l t r u2) :
    Keeps m l t r (State.pinNext fuel g u2) := by
  induction fuel generalizing u2 with
  | zero => exact h2
  | succ k ih =>
    unfold State.pinNext
    dsimp only
    split
    · exact ih (State.pinBegin_keeps _ _ (State.modPinGroup_keeps _ _ h2))
    · exact h2

theorem State.pinWrite_keeps {u0 : State} (g) (code) (reply)
    (h0 : Keeps m l t r u0) :
    Keeps m l t r (State.pinWrite u0 g code reply) := by
  unfold State.pinWrite
  try dsimp only
  repeat' first
      | with_reducible assumption | with_reducible apply State.modPinGroup_keeps | with_reducible apply State.pinNext_keeps
      | simp only [↓keeps_mk] | intro _ | dsimp only

theorem State.setModule_keeps {u0 : State} (v)
    (h0 : Keeps m l t r u0) :
    Keeps m l t r (State.setModule u0 v) := by
  unfold State.setModule
  try dsimp only
  repeat' first
      | with_reducible assumption | with_reducible apply State.raiseEvent_keeps | simp only [↓keeps_mk] | with_reducible apply keeps_ite
      | intro _ | split | dsimp only

theorem State.enterSafe_keeps {u0 : State} (cause)
    (h0 : Keeps m l t r u0) :
    Keeps m l t r (State.enterSafe u0 cause) := by
  unfold State.enterSafe
  try dsimp only
  repeat' first
      | with_reducible assumption | with_reducible apply State.disableAll_keeps | with_reducible apply State.lightsOut_keeps
      | with_reducible apply State.stopAllNow_keeps | with_reducible apply State.modPinGroup_keeps
      | with_reducible apply State.say_keeps | with_reducible apply State.setModule_keeps | simp only [↓keeps_mk] | intro _ | dsimp only

theorem State.setHolder_keeps {u0 : State} (a1)
    (h0 : Keeps m false t r u0) :
    Keeps m false t r (State.setHolder u0 a1) := by
  unfold State.setHolder State.modLease
  try dsimp only
  repeat' first
      | with_reducible assumption | with_reducible apply State.raiseEvent_keeps
      | simp only [↓keeps_mk, ↓keeps_mk_lease, ↓keeps_mk_lease0] | with_reducible apply keeps_ite | intro _ | split | dsimp only

theorem uncorrectableEffect_keeps {u0 : State}
    (h0 : Keeps m false t r u0) :
    Keeps m false t r (uncorrectableEffect u0) := by
  unfold uncorrectableEffect State.modLease
  try dsimp only
  repeat' first
      | with_reducible assumption | with_reducible apply State.enterSafe_keeps | with_reducible apply State.setHolder_keeps
      | simp only [↓keeps_mk, ↓keeps_mk_lease, ↓keeps_mk_lease0] | intro _ | dsimp only

theorem State.nvStore_keeps {u0 : State} (w)
    (h0 : Keeps m l t r u0) :
    Keeps m l t r (State.nvStore u0 w) := by
  unfold State.nvStore
  try dsimp only
  repeat' first
      | with_reducible assumption | with_reducible apply State.nvPut_keeps | simp only [↓keeps_mk] | with_reducible apply keeps_ite
      | intro _ | split | dsimp only

theorem State.readStore_keeps {u0 : State} (stack) (off)
    (h0 : Keeps m l t r u0) :
    Keeps m l t r (State.readStore u0 stack off) := by
  unfold State.readStore
  try dsimp only
  repeat' first
      | with_reducible assumption | with_reducible apply State.modStack_keeps | with_reducible apply State.modUep_keeps
      | simp only [↓keeps_mk] | with_reducible apply keeps_ite | intro _ | split | dsimp only

theorem clearLinkEvents_keeps (slot) (d) {u2 : State}
    (h2 : Keeps m l t r u2) :
    Keeps m l t r (clearLinkEvents slot d u2) := by
  unfold clearLinkEvents
  try dsimp only
  repeat' first | with_reducible assumption | with_reducible apply State.modFabric_keeps | simp only [↓keeps_mk] | intro _ | dsimp only

theorem State.readFabric_keeps {u0 : State} (addr)
    (h0 : Keeps m l t r u0) :
    Keeps m l t r (State.readFabric u0 addr) := by
  unfold State.readFabric
  try dsimp only
  repeat' first
      | with_reducible assumption | with_reducible apply clearLinkEvents_keeps | with_reducible apply keeps_ite | intro _ | split
      | dsimp only

theorem State.readCluster_keeps {u0 : State} (c) (off)
    (h0 : Keeps m l t r u0) :
    Keeps m l t r (State.readCluster u0 c off) := by
  unfold State.readCluster
  try dsimp only
  repeat' first
      | with_reducible assumption | with_reducible apply State.modCluster_keeps | simp only [↓keeps_mk] | with_reducible apply keeps_ite
      | intro _ | split | dsimp only

theorem State.readPort_keeps {u0 : State} (n) (off)
    (h0 : Keeps m l t r u0) :
    Keeps m l t r (State.readPort u0 n off) := by
  unfold State.readPort
  try dsimp only
  repeat' first
      | with_reducible assumption | with_reducible apply State.modPort_keeps | simp only [↓keeps_mk] | with_reducible apply keeps_ite
      | intro _ | split | dsimp only

theorem State.readControl_keeps {u0 : State} (space) (a)
    (h0 : Keeps m l t r u0) :
    Keeps m l t r (State.readControl u0 space a).2 := by
  unfold State.readControl
  try dsimp only
  repeat' first
      | with_reducible assumption | with_reducible apply State.readStore_keeps | with_reducible apply State.readFabric_keeps
      | with_reducible apply State.settle_keeps | with_reducible apply State.readCluster_keeps
      | with_reducible apply State.readPort_keeps | simp only [↓keeps_mk] | with_reducible apply keeps_ite | intro _ | split
      | dsimp only

theorem State.reportIssued_keeps {u0 : State} (nonce) (scope)
    (h0 : Keeps m l t r u0) :
    Keeps m l t r (State.reportIssued u0 nonce scope) := by
  unfold State.reportIssued State.modTrust
  try dsimp only
  repeat' first
      | with_reducible assumption | with_reducible apply State.modOwner_keeps | simp only [↓keeps_mk, ↓keeps_mk_trust]
      | with_reducible apply keeps_ite | intro _ | split | dsimp only

theorem State.modPins_keeps {u0 : State} (f)
    (h0 : Keeps m l t r u0) :
    Keeps m l t r (State.modPins u0 f) := by
  unfold State.modPins
  try dsimp only
  repeat' first | with_reducible assumption | simp only [↓keeps_mk] | intro _ | dsimp only

theorem State.zeroScanned_keeps {u0 : State} (dies)
    (h0 : Keeps m l t r u0) :
    Keeps m l t r (State.zeroScanned u0 dies) := by
  unfold State.zeroScanned
  dsimp only
  split
  · refine h0.memOf fun x => ⟨?_, ?_, ?_⟩
    · dsimp only
      exact Memory.clear_wf _ _ x.1
    · dsimp only
      split
      · rfl
      · exact x.2.1
    · dsimp only
      exact Memory.clear_wf _ _ x.2.2
  · refine h0.memOf fun x => ⟨x.1, x.2.1, ?_⟩
    dsimp only
    exact Memory.clear_wf _ _ x.2.2

theorem State.endScan_keeps {u0 : State}
    (h0 : Keeps m l t r u0) :
    Keeps m l t r (State.endScan u0) := by
  unfold State.endScan
  try dsimp only
  repeat' first
      | with_reducible assumption | with_reducible apply State.modPins_keeps | with_reducible apply State.zeroScanned_keeps
      | simp only [↓keeps_mk] | with_reducible apply keeps_ite | intro _ | split | dsimp only

theorem State.crystalLoss_keeps {u0 : State}
    (h0 : Keeps m l t r u0) :
    Keeps m l t r (State.crystalLoss u0) := by
  unfold State.crystalLoss
  try dsimp only
  repeat' first
      | with_reducible assumption | with_reducible apply State.modClk_keeps | with_reducible apply State.enterSafe_keeps
      | with_reducible apply State.raiseStopAll_keeps | with_reducible apply State.modTime_keeps | simp only [↓keeps_mk] | intro _
      | dsimp only

theorem State.zeroNonResident_keeps {u0 : State} (p)
    (h0 : Keeps m l t r u0) :
    Keeps m l t r (State.zeroNonResident u0 p) := by
  unfold State.zeroNonResident
  try dsimp only
  repeat' first
      | with_reducible assumption | with_reducible apply State.advance_keeps | with_reducible apply State.zeroing_keeps
      | with_reducible apply State.modCluster_keeps | simp only [↓keeps_mk] | with_reducible apply keeps_foldl | intro _
      | with_reducible apply keeps_foldl_snd | dsimp only

theorem State.restoreOverdrive_keeps {u0 : State}
    (h0 : Keeps m l t r u0) :
    Keeps m l t r (State.restoreOverdrive u0) := by
  unfold State.restoreOverdrive
  try dsimp only
  repeat' first | with_reducible assumption | simp only [↓keeps_mk] | with_reducible apply keeps_ite | intro _ | split | dsimp only

theorem gateEffect_keeps (count) {u1 : State}
    (h1 : Keeps m l t r u1) :
    Keeps m l t r (gateEffect count u1) := by
  unfold gateEffect
  try dsimp only
  repeat' first
      | with_reducible assumption | with_reducible apply State.atNs_keeps | with_reducible apply State.modClk_keeps
      | simp only [↓keeps_mk] | with_reducible apply keeps_ite | intro _ | split | dsimp only

theorem groupStageEffect_keeps (g) {u1 : State}
    (h1 : Keeps m l t r u1) :
    Keeps m l t r (groupStageEffect g u1) := by
  unfold groupStageEffect
  try dsimp only
  repeat' first
      | with_reducible assumption | with_reducible apply State.atNs_keeps | with_reducible apply State.modPower_keeps
      | simp only [↓keeps_mk] | with_reducible apply keeps_ite | intro _ | split | dsimp only

theorem pinCompleteEffect_keeps (g) {u1 : State}
    (h1 : Keeps m l t r u1) :
    Keeps m l t r (pinCompleteEffect g u1) := by
  unfold pinCompleteEffect
  try dsimp only
  repeat' first
      | with_reducible assumption | with_reducible apply State.atNs_keeps | with_reducible apply State.answerLater_keeps
      | with_reducible apply State.modPinGroup_keeps | with_reducible apply State.pinNext_keeps | simp only [↓keeps_mk]
      | with_reducible apply keeps_ite | intro _ | split | dsimp only

theorem State.selfTestFail_keeps {u0 : State} (e)
    (h0 : Keeps m l t r u0) :
    Keeps m l t r (State.selfTestFail u0 e) := by
  unfold State.selfTestFail
  try dsimp only
  repeat' first
      | with_reducible assumption | with_reducible apply State.markElement_keeps | simp only [↓keeps_mk]
      | with_reducible apply keeps_ite | intro _ | split | dsimp only

theorem State.restoreCounters_keeps {u0 : State}
    (h0 : Keeps m false t r u0) :
    Keeps m false t r (State.restoreCounters u0) := by
  unfold State.restoreCounters
  try dsimp only
  repeat' first
      | with_reducible assumption | with_reducible apply State.logLost_keeps | with_reducible apply State.nvPut_keeps
      | simp only [↓keeps_mk, ↓keeps_mk_lease, ↓keeps_mk_lease0] | with_reducible apply keeps_ite | intro _ | split | dsimp only

theorem State.setRc_keeps {u0 : State} (a1) (n)
    (h0 : Keeps m l t r u0) :
    Keeps m l t r (State.setRc u0 a1 n) := by
  unfold State.setRc
  try dsimp only
  repeat' first
      | with_reducible assumption | with_reducible apply State.modCluster_keeps | with_reducible apply State.modCtx_keeps
      | with_reducible apply State.modFabric_keeps | with_reducible apply State.modStack_keeps | with_reducible apply State.modUep_keeps
      | with_reducible apply State.modPort_keeps | simp only [↓keeps_mk] | with_reducible apply keeps_ite | intro _ | split | dsimp only

theorem rcReadEffect_keeps (a0) (event) {u2 : State}
    (h2 : Keeps m l t r u2) :
    Keeps m l t r (rcReadEffect a0 event u2) := by
  unfold rcReadEffect
  try dsimp only
  repeat' first
      | with_reducible assumption | with_reducible apply State.setRc_keeps | with_reducible apply State.emit_keeps
      | simp only [↓keeps_mk] | intro _ | dsimp only

theorem loReadEffect_keeps (a0) (hi) {u2 : State}
    (h2 : Keeps m l t r u2) :
    Keeps m l t r (loReadEffect a0 hi u2) := by
  unfold loReadEffect
  try dsimp only
  repeat' first
      | with_reducible assumption | with_reducible apply State.emit_keeps | with_reducible apply State.readCluster_keeps
      | with_reducible apply State.modCtx_keeps | with_reducible apply State.readStore_keeps | with_reducible apply State.readPort_keeps
      | simp only [↓keeps_mk] | with_reducible apply keeps_ite | intro _ | split | dsimp only

theorem opPointEffect_keeps (v) (who) (reply) {u3 : State}
    (h3 : Keeps m l t r u3) :
    Keeps m l t r (opPointEffect v who reply u3) := by
  unfold opPointEffect
  try dsimp only
  repeat' first
      | with_reducible assumption | with_reducible apply State.changeOpPoint_keeps | with_reducible apply State.nvRequest_keeps
      | with_reducible apply keeps_ite | intro _ | split | dsimp only

theorem coolantEffect_keeps (flow) (inlet) (outlet) {u3 : State}
    (h3 : Keeps m l t r u3) :
    Keeps m l t r (coolantEffect flow inlet outlet u3) := by
  unfold coolantEffect
  try dsimp only
  repeat' first
      | with_reducible assumption | with_reducible apply State.modPower_keeps | with_reducible apply State.raiseEvent_keeps
      | simp only [↓keeps_mk] | with_reducible apply keeps_ite | intro _ | split | dsimp only

theorem State.restoreOwners_keeps {u0 : State}
    (h0 : Keeps m l t r u0) :
    Keeps m l t r (State.restoreOwners u0) := by
  unfold State.restoreOwners
  try dsimp only
  repeat' first
      | with_reducible assumption | with_reducible apply State.modOwner_keeps | simp only [↓keeps_mk] | with_reducible apply keeps_ite
      | with_reducible apply keeps_foldl | intro _ | with_reducible apply keeps_foldl_snd | split | dsimp only

theorem fastClampEffect_keeps (s0) (s1) (s2) {u3 : State}
    (h3 : Keeps m l t r u3) :
    Keeps m l t r (fastClampEffect s0 s1 s2 u3) := by
  unfold fastClampEffect
  try dsimp only
  repeat' first
      | with_reducible assumption | with_reducible apply State.modPower_keeps | with_reducible apply State.powerEvent_keeps
      | simp only [↓keeps_mk] | with_reducible apply keeps_ite | intro _ | split | dsimp only

theorem State.select_keeps {u0 : State} (sel) (src)
    (h0 : Keeps m l t r u0) :
    Keeps m l t r (State.select u0 sel src) := by
  unfold State.select
  try dsimp only
  repeat' first
      | with_reducible assumption | with_reducible apply State.modClk_keeps | simp only [↓keeps_mk] | with_reducible apply keeps_ite
      | intro _ | split | dsimp only

theorem switchEffect_keeps (sel) (src) {u2 : State}
    (h2 : Keeps m l t r u2) :
    Keeps m l t r (switchEffect sel src u2) := by
  unfold switchEffect
  try dsimp only
  repeat' first
      | with_reducible assumption | with_reducible apply State.modClk_keeps | with_reducible apply State.select_keeps
      | simp only [↓keeps_mk] | with_reducible apply keeps_ite | intro _ | split | dsimp only

theorem State.tapLoad_keeps {u0 : State} (code) (gated)
    (h0 : Keeps m l t r u0) :
    Keeps m l t r (State.tapLoad u0 code gated) := by
  unfold State.tapLoad
  try dsimp only
  repeat' first
      | with_reducible assumption | with_reducible apply State.modPins_keeps | with_reducible apply State.endScan_keeps
      | simp only [↓keeps_mk] | intro _ | dsimp only

theorem State.rebindRepairs_keeps {u0 : State} (p)
    (h0 : Keeps m l t r u0) :
    Keeps m l t r (State.rebindRepairs u0 p) := by
  unfold State.rebindRepairs
  try dsimp only
  repeat' first
      | with_reducible assumption | with_reducible apply State.applyPending_keeps | with_reducible apply State.zeroing_keeps
      | simp only [↓keeps_mk] | with_reducible apply keeps_ite | with_reducible apply keeps_foldl | intro _
      | with_reducible apply keeps_foldl_snd | split | dsimp only

theorem State.block_keeps {u0 : State} (p) (cause)
    (h0 : Keeps m l t r u0) :
    Keeps m l t r (State.block u0 p cause) := by
  unfold State.block
  try dsimp only
  repeat' first | with_reducible assumption | with_reducible apply State.modBind_keeps | simp only [↓keeps_mk] | intro _ | dsimp only

theorem State.regenCopy_keeps {u0 : State} (stack) (x) (a3) (pl) (fmt) (gen)
    (h0 : Keeps m l t r u0) :
    Keeps m l t r (State.regenCopy u0 stack x a3 pl fmt gen).2 := by
  unfold State.regenCopy
  try dsimp only
  repeat' first
      | with_reducible assumption | with_reducible apply State.readPlane_keeps | with_reducible apply State.readAll_keeps
      | with_reducible apply State.mixPlane_keeps | simp only [↓keeps_mk] | with_reducible apply keeps_ite | intro _ | split
      | dsimp only

theorem State.regenerate_keeps {u0 : State} (stack) (p)
    (h0 : Keeps m l t r u0) :
    Keeps m l t r (State.regenerate u0 stack p) := by
  unfold State.regenerate
  dsimp only
  have hf : Keeps m l t r ((u0.uep stack p).shards.foldl (fun (acc : (Bool × State) × Word) h =>
      if h.rule = 3 then acc
      else
        ((acc.1.1 && (acc.1.2.regenCopy stack (u0.uep stack p) h h.cc0Plane h.cc0Fmt (jumpDraws (shardDraws (u0.uep stack p).marks h).1 acc.2)).1
          && ((acc.1.2.regenCopy stack (u0.uep stack p) h h.cc0Plane h.cc0Fmt (jumpDraws (shardDraws (u0.uep stack p).marks h).1 acc.2)).2.regenCopy
            stack (u0.uep stack p) h h.cc1Plane h.cc1Fmt
              (jumpDraws (shardDraws (u0.uep stack p).marks h).2.1 (jumpDraws (shardDraws (u0.uep stack p).marks h).1 acc.2))).1,
          ((acc.1.2.regenCopy stack (u0.uep stack p) h h.cc0Plane h.cc0Fmt (jumpDraws (shardDraws (u0.uep stack p).marks h).1 acc.2)).2.regenCopy
            stack (u0.uep stack p) h h.cc1Plane h.cc1Fmt
              (jumpDraws (shardDraws (u0.uep stack p).marks h).2.1 (jumpDraws (shardDraws (u0.uep stack p).marks h).1 acc.2))).2),
          jumpDraws (shardDraws (u0.uep stack p).marks h).2.2
            (jumpDraws (shardDraws (u0.uep stack p).marks h).2.1 (jumpDraws (shardDraws (u0.uep stack p).marks h).1 acc.2))))
      ((true, u0), lfsrSeed (u0.uep stack p).param.ueSeed (u0.uep stack p).copyStep)).1.2 := by
    refine keeps_foldl_of (fun x : (Bool × State) × Word => x.1.2) h0 (fun b x hb => ?_)
    split
    · exact hb
    · exact State.regenCopy_keeps _ _ _ _ _ _ (State.regenCopy_keeps _ _ _ _ _ _ hb)
  repeat' first
      | with_reducible assumption | with_reducible apply keeps_ite | intro _ | with_reducible apply State.modUep_keeps
      | with_reducible apply State.ueFault_keeps

theorem State.rebindLoad_keeps {u0 : State} (p) (b)
    (h0 : Keeps m l t r u0) :
    Keeps m l t r (State.rebindLoad u0 p b) := by
  unfold State.rebindLoad
  try dsimp only
  repeat' first
      | with_reducible assumption | with_reducible apply State.block_keeps | with_reducible apply State.applyBinding_keeps
      | with_reducible apply State.regenerate_keeps | with_reducible apply State.modBind_keeps | simp only [↓keeps_mk]
      | with_reducible apply keeps_ite | with_reducible apply keeps_foldl | intro _ | with_reducible apply keeps_foldl_snd | split
      | dsimp only

theorem warmRebindEffect_keeps (p) {u1 : State}
    (h1 : Keeps m l t r u1) :
    Keeps m l t r (warmRebindEffect p u1) := by
  unfold warmRebindEffect
  try dsimp only
  repeat' first
      | with_reducible assumption | with_reducible apply State.rebindRepairs_keeps | with_reducible apply State.block_keeps
      | with_reducible apply State.rebindLoad_keeps | simp only [↓keeps_mk] | with_reducible apply keeps_ite | intro _ | split
      | dsimp only

theorem State.settleFor_keeps {u0 : State} (a1)
    (h0 : Keeps m l t r u0) :
    Keeps m l t r (State.settleFor u0 a1) := by
  unfold State.settleFor
  try dsimp only
  repeat' first
      | with_reducible assumption | with_reducible apply State.settle_keeps | simp only [↓keeps_mk] | with_reducible apply keeps_ite
      | intro _ | split | dsimp only

theorem State.restoreSettings_keeps {u0 : State}
    (h0 : Keeps false l t r u0) :
    Keeps false l t r (State.restoreSettings u0) := by
  unfold State.restoreSettings
  try dsimp only
  repeat' first
      | with_reducible assumption | with_reducible apply State.logLost_keeps | simp only [↓keeps_mk, ↓keeps_mk_map]
      | with_reducible apply keeps_ite | with_reducible apply keeps_foldl | intro _ | with_reducible apply keeps_foldl_snd | split
      | dsimp only

theorem setBoundary_keeps (v) {u1 : State}
    (h1 : Keeps m l t r u1) :
    Keeps m l t r (setBoundary v u1) := by
  unfold setBoundary
  try dsimp only
  repeat' first | with_reducible assumption | with_reducible apply State.modPins_keeps | simp only [↓keeps_mk] | intro _ | dsimp only

theorem relockTimeoutEffect_keeps {u0 : State}
    (h0 : Keeps m l t r u0) :
    Keeps m l t r (relockTimeoutEffect u0) := by
  unfold relockTimeoutEffect
  try dsimp only
  repeat' first
      | with_reducible assumption | with_reducible apply State.modClk_keeps | with_reducible apply State.atNs_keeps
      | simp only [↓keeps_mk] | with_reducible apply keeps_ite | intro _ | split | dsimp only

theorem State.drive_keeps {u0 : State}
    (h0 : Keeps m l t r u0) :
    Keeps m l t r (State.drive u0) := by
  unfold State.drive
  try dsimp only
  repeat' first
      | with_reducible assumption | with_reducible apply State.hostLinkOff_keeps | with_reducible apply keeps_ite | intro _ | split
      | dsimp only

theorem State.tap_keeps {u0 : State} (code) (effect)
    (h0 : Keeps m l t r u0) (h2 : ∀ x0, Keeps m l t r x0 → Keeps m l t r (effect x0)) :
    Keeps m l t r (State.tap u0 code effect) := by
  unfold State.tap
  try dsimp only
  repeat' first
      | with_reducible assumption | with_reducible apply h2 | with_reducible apply State.tapLoad_keeps | with_reducible apply keeps_ite
      | intro _ | split | dsimp only

theorem State.holdUp_keeps {u0 : State}
    (h0 : Keeps m l t r u0) :
    Keeps m l t r (State.holdUp u0) := by
  unfold State.holdUp
  try dsimp only
  repeat' first
      | with_reducible assumption | with_reducible apply State.nvStore_keeps | with_reducible apply State.nvCut_keeps
      | simp only [↓keeps_mk] | with_reducible apply keeps_ite | intro _ | split | dsimp only

theorem State.domainOff_keeps {u0 : State} (d)
    (h0 : Keeps m l t r u0) :
    Keeps m l t r (State.domainOff u0 d) := by
  unfold State.domainOff
  try dsimp only
  repeat' first
      | with_reducible assumption | with_reducible apply State.modDomain_keeps | with_reducible apply State.clusterFault_keeps
      | simp only [↓keeps_mk] | with_reducible apply keeps_foldl | intro _ | with_reducible apply keeps_foldl_snd | dsimp only

theorem bypassEffect_keeps (code) {u1 : State}
    (h1 : Keeps m l t r u1) :
    Keeps m l t r (bypassEffect code u1) := by
  unfold bypassEffect
  try dsimp only
  repeat' first
      | with_reducible assumption | with_reducible apply State.tapLoad_keeps | with_reducible apply keeps_ite | intro _ | split
      | dsimp only

theorem wakeCompleteEffect_keeps (p) {u1 : State}
    (h1 : Keeps m l t r u1) :
    Keeps m l t r (wakeCompleteEffect p u1) := by
  unfold wakeCompleteEffect
  try dsimp only
  repeat' first
      | with_reducible assumption | with_reducible apply State.atNs_keeps | with_reducible apply State.zeroNonResident_keeps
      | with_reducible apply State.modWake_keeps | simp only [↓keeps_mk] | with_reducible apply keeps_ite | intro _ | split | dsimp only

theorem pinTimeoutEffect_keeps (g) {u1 : State}
    (h1 : Keeps m l t r u1) :
    Keeps m l t r (pinTimeoutEffect g u1) := by
  unfold pinTimeoutEffect
  try dsimp only
  repeat' first
      | with_reducible assumption | with_reducible apply State.atNs_keeps | with_reducible apply State.answerLater_keeps
      | with_reducible apply State.modPinGroup_keeps | with_reducible apply State.pinNext_keeps | simp only [↓keeps_mk]
      | with_reducible apply keeps_ite | intro _ | split | dsimp only

theorem State.applyAll_keeps {u0 : State}
    (h0 : Keeps m l t r u0) :
    Keeps m l t r (State.applyAll u0) := by
  unfold State.applyAll
  try dsimp only
  repeat' first
      | with_reducible assumption | with_reducible apply State.closeRecord_keeps | with_reducible apply State.mapOut_keeps
      | with_reducible apply State.applyPending_keeps | with_reducible apply keeps_foldl | intro _
      | with_reducible apply keeps_foldl_snd | dsimp only

theorem readyEffect_keeps (fails) {u1 : State}
    (h1 : Keeps m l t r u1) :
    Keeps m l t r (readyEffect fails u1) := by
  unfold readyEffect
  dsimp only
  split
  · exact h1
  refine State.setModule_keeps _ (Keeps.memOf (State.applyAll_keeps (keeps_foldl (zeroingCompleteEffect_keeps 0 h1) (fun _ _ h => State.selfTestFail_keeps _ h)))
    (fun _ => ⟨rfl, rfl, rfl⟩))

theorem State.saveCounters_keeps {u0 : State}
    (h0 : Keeps m l t r u0) :
    Keeps m l t r (State.saveCounters u0) := by
  unfold State.saveCounters
  try dsimp only
  repeat' first
      | with_reducible assumption | with_reducible apply State.nvPut_keeps | simp only [↓keeps_mk] | with_reducible apply keeps_ite
      | intro _ | split | dsimp only

theorem State.bare_keeps {u0 : State} (b) (cold)
    (h0 : Keeps false false false r u0) :
    Keeps false false false r (State.bare u0 b cold) := by
  unfold State.bare
  dsimp only
  split
  all_goals exact ⟨h0.pending, fun _ => ⟨rfl, rfl, rfl⟩, fun _ x => if_pos x,
    ⟨h0.fuses.1, h0.fuses.2.1, h0.fuses.2.2.1, h0.fuses.2.2.2⟩, (fun x => by cases x), (fun x => by cases x), (fun x => by cases x)⟩

theorem State.keepHardware_keeps {u0 : State} {u1 : State}
    (h1 : Keeps m l t r u1) :
    Keeps m l t r (State.keepHardware u0 u1) := by
  unfold State.keepHardware
  try dsimp only
  repeat' first
      | with_reducible assumption | simp only [↓keeps_mk] | with_reducible apply keeps_ite | with_reducible apply keeps_foldl | intro _
      | with_reducible apply keeps_foldl_snd | split | dsimp only

theorem State.recoverLife_keeps {u0 : State} (o : Option NvVal) (st : Nat → Nat) (h0 : Keeps false false false r u0)
    (hst : ∀ v, u0.trust.retiredFuse = true → st v = 4) :
    Keeps false false false r (match o with
      | some (.lifecycle v pk ep) =>
        if v = 3 ∧ st v = 2 then
          State.nvPut (u0.modTrust (fun t => { t with lifecycle := st v, operatorPk := pk, sealEpoch := ep })) 1 0
            (State.lifecycleVal (u0.modTrust (fun t => { t with lifecycle := st v, operatorPk := pk, sealEpoch := ep })))
        else u0.modTrust (fun t => { t with lifecycle := st v, operatorPk := pk, sealEpoch := ep })
      | _ => u0) := by
  have hu : ∀ v pk ep, Keeps false false false r (u0.modTrust (fun t => { t with lifecycle := st v, operatorPk := pk, sealEpoch := ep })) :=
    fun v pk ep => h0.trustOf (fun _ x => hst v x) ⟨id, id, Nat.le_refl _, Nat.le_refl _⟩
  split
  · exact keeps_ite (fun _ => State.nvPut_keeps _ _ _ (hu _ _ _)) (fun _ => hu _ _ _)
  · exact h0

theorem State.recover_keeps {u0 : State} (u1)
    (h0 : Keeps false false false r u0) :
    Keeps false false false r (State.recover u0 u1) := by
  unfold State.recover
  lift_lets
  extract_lets made life bad sb0 s0 s1 defects s2 sb2 sb3 sb5 s3 s4 sb4 s5
  have k0 : Keeps false false false r s0 := keeps_mk.2 h0
  have k1 : Keeps false false false r s1 :=
    State.recoverLife_keeps life (fun v => if s0.trust.retiredFuse then 4 else if !s0.trust.provisionedFuse then 0 else if v = 3 then 2 else v) k0
      (fun _ x => if_pos x)
  refine keeps_ite (fun _ => State.enterSafe_keeps _ k0) (fun _ => ?_)
  have k2 : Keeps false false false r s2 := State.restoreOverdrive_keeps (State.restoreOwners_keeps (State.restoreSettings_keeps
    (State.restoreCounters_keeps (keeps_mk_map.2 k1))))
  have k3 : Keeps false false false r s3 := keeps_mk.2 k2
  have k4 : Keeps false false false r s4 := State.restoreGuards_keeps _ (State.keepHardware_keeps k3)
  have k5 : Keeps false false false r s5 := keeps_mk.2 k4
  exact State.applyAll_keeps k5

theorem coldPowerOnEffect_keeps (b) {u1 : State}
    (h1 : Keeps false false false r u1) :
    Keeps false false false r (coldPowerOnEffect b u1) := by
  unfold coldPowerOnEffect
  try dsimp only
  repeat' first
      | with_reducible assumption | with_reducible apply State.saveCounters_keeps | with_reducible apply State.holdUp_keeps
      | with_reducible apply State.bare_keeps | with_reducible apply State.enterSafe_keeps | with_reducible apply State.recover_keeps
      | with_reducible apply keeps_ite | intro _ | split | dsimp only

theorem phaseFaultEffect_keeps (c) (d) (separation) {u3 : State}
    (h3 : Keeps m l t r u3) :
    Keeps m l t r (phaseFaultEffect c d separation u3) := by
  unfold phaseFaultEffect
  try dsimp only
  repeat' first
      | with_reducible assumption | with_reducible apply linkLostEffect_keeps | with_reducible apply State.elementEvent_keeps
      | with_reducible apply keeps_ite | intro _ | split | dsimp only

theorem registerWriteEffect_keeps (a0) (v) (hw) (who) {u4 : State}
    (h4 : Keeps m l t r u4) :
    Keeps m l t r (registerWriteEffect a0 v hw who u4) := by
  unfold registerWriteEffect
  try dsimp only
  repeat' first
      | with_reducible assumption | with_reducible apply State.writeCluster_keeps | with_reducible apply State.settle_keeps
      | with_reducible apply State.writeStore_keeps | with_reducible apply State.writePort_keeps
      | with_reducible apply State.modHostQ_keeps | simp only [↓keeps_mk] | with_reducible apply keeps_ite | intro _ | split
      | dsimp only

theorem hwSets_keeps (a0) (hw) {u2 : State}
    (h2 : Keeps m l t r u2) :
    Keeps m l t r (hwSets a0 hw u2) := by
  unfold hwSets
  try dsimp only
  repeat' first
      | with_reducible assumption | with_reducible apply registerWriteEffect_keeps | with_reducible apply keeps_ite | intro _ | split
      | dsimp only

theorem State.restart_keeps {u0 : State}
    (h0 : Keeps false false false r u0) :
    Keeps false false false r (State.restart u0) := by
  unfold State.restart
  try dsimp only
  repeat' first
      | with_reducible assumption | with_reducible apply State.saveCounters_keeps | with_reducible apply State.recover_keeps
      | with_reducible apply State.bare_keeps | with_reducible apply State.setModule_keeps
      | with_reducible apply State.beginRelock_keeps | simp only [↓keeps_mk] | with_reducible apply keeps_ite | intro _ | split
      | dsimp only

theorem State.failInput_keeps {u0 : State}
    (h0 : Keeps m l t r u0) :
    Keeps m l t r (State.failInput u0) := by
  unfold State.failInput
  try dsimp only
  repeat' first
      | with_reducible assumption | with_reducible apply State.lightsOut_keeps | with_reducible apply State.raiseStopAll_keeps
      | with_reducible apply State.holdUp_keeps | with_reducible apply State.nvPut_keeps | with_reducible apply State.modPower_keeps
      | simp only [↓keeps_mk] | intro _ | dsimp only

theorem State.nextPeriod_keeps {u0 : State} (period)
    (h0 : Keeps m l t r u0) :
    Keeps m l t r (State.nextPeriod u0 period) := by
  unfold State.nextPeriod
  try dsimp only
  repeat' first | with_reducible assumption | with_reducible apply State.atNs_keeps | intro _ | dsimp only

theorem powerTickEffect_keeps (vin) (pf) (tmax) {u3 : State}
    (h3 : Keeps m l t r u3) :
    Keeps m l t r (powerTickEffect vin pf tmax u3) := by
  unfold powerTickEffect
  try dsimp only
  repeat' first
      | with_reducible assumption | with_reducible apply State.nextPeriod_keeps | with_reducible apply State.raiseStopAll_keeps
      | with_reducible apply State.powerEvent_keeps | simp only [↓keeps_mk] | with_reducible apply keeps_ite | intro _ | split
      | dsimp only

theorem storedWriteEffect_keeps (ty) (a1) (payload) (who) {u4 : State}
    (h4 : Keeps m l t r u4) :
    Keeps m l t r (storedWriteEffect ty a1 payload who u4) := by
  unfold storedWriteEffect
  try dsimp only
  repeat' first
      | with_reducible assumption | with_reducible apply State.nvRequest_keeps | with_reducible apply keeps_ite | intro _ | split
      | dsimp only

theorem w4WakeEffect_keeps {u0 : State}
    (h0 : Keeps m l t r u0) :
    Keeps m l t r (w4WakeEffect u0) := by
  unfold w4WakeEffect
  try dsimp only
  repeat' first
      | with_reducible assumption | with_reducible apply State.modPower_keeps | with_reducible apply State.setModule_keeps
      | simp only [↓keeps_mk] | with_reducible apply keeps_ite | intro _ | split | dsimp only

theorem ownerIdEffect_keeps (p) (owner) (who) (reply) {u4 : State}
    (h4 : Keeps m l t r u4) :
    Keeps m l t r (ownerIdEffect p owner who reply u4) := by
  unfold ownerIdEffect
  try dsimp only
  repeat' first
      | with_reducible assumption | with_reducible apply State.nvRequest_keeps | with_reducible apply keeps_ite | intro _ | split
      | dsimp only

theorem steeringEffect_keeps (sensors) {u1 : State}
    (h1 : Keeps m l t r u1) :
    Keeps m l t r (steeringEffect sensors u1) := by
  unfold steeringEffect
  try dsimp only
  repeat' first
      | with_reducible assumption | with_reducible apply State.nextPeriod_keeps | with_reducible apply State.modDomain_keeps
      | with_reducible apply keeps_ite | with_reducible apply keeps_foldl | intro _ | with_reducible apply keeps_foldl_snd | split
      | dsimp only

theorem hostResetEffect_keeps (ev) {u1 : State}
    (h1 : Keeps false false false r u1) :
    Keeps false false false r (hostResetEffect ev u1) := by
  unfold hostResetEffect
  try dsimp only
  repeat' first
      | with_reducible assumption | with_reducible apply State.disableAll_keeps | with_reducible apply State.restart_keeps
      | simp only [↓keeps_mk] | with_reducible apply keeps_ite | intro _ | split | dsimp only

theorem w4EntryEffect_keeps {u0 : State}
    (h0 : Keeps m l t r u0) :
    Keeps m l t r (w4EntryEffect u0) := by
  unfold w4EntryEffect
  dsimp only
  split
  · exact h0
  have h1 := State.lightsOut_keeps h0
  revert h1
  generalize u0.lightsOut = w
  intro h1
  exact State.setModule_keeps _ (keeps_mk_mem h1 (fun _ => rfl) (fun _ => rfl) (fun x => x.2.2))

theorem wakeEntryEffect_keeps (p) {u1 : State}
    (h1 : Keeps m l t r u1) :
    Keeps m l t r (wakeEntryEffect p u1) := by
  unfold wakeEntryEffect
  try dsimp only
  repeat' first
      | with_reducible assumption | with_reducible apply State.modWake_keeps | with_reducible apply State.modPower_keeps
      | simp only [↓keeps_mk] | with_reducible apply keeps_ite | with_reducible apply keeps_foldl | intro _
      | with_reducible apply keeps_foldl_snd | split | dsimp only

theorem operatorPkEffect_keeps (pk) (who) (reply) {u3 : State}
    (h3 : Keeps m l t r u3) :
    Keeps m l t r (operatorPkEffect pk who reply u3) := by
  unfold operatorPkEffect
  try dsimp only
  repeat' first
      | with_reducible assumption | with_reducible apply State.nvRequest_keeps | with_reducible apply keeps_ite | intro _ | split
      | dsimp only

theorem comparisonEffect_keeps (n) {u1 : State}
    (h1 : Keeps m l t r u1) :
    Keeps m l t r (comparisonEffect n u1) := by
  unfold comparisonEffect
  try dsimp only
  repeat' first
      | with_reducible assumption | with_reducible apply State.nextPeriod_keeps | with_reducible apply State.modClk_keeps
      | with_reducible apply State.crystalLoss_keeps | with_reducible apply State.beginRelock_keeps | simp only [↓keeps_mk]
      | with_reducible apply keeps_ite | intro _ | split | dsimp only

theorem regulationEffect_keeps (d) {u1 : State}
    (h1 : Keeps m l t r u1) :
    Keeps m l t r (regulationEffect d u1) := by
  unfold regulationEffect
  try dsimp only
  repeat' first
      | with_reducible assumption | with_reducible apply State.elementEvent_keeps | with_reducible apply State.domainOff_keeps
      | with_reducible apply State.modDomain_keeps | simp only [↓keeps_mk] | with_reducible apply keeps_ite | intro _ | split
      | dsimp only

theorem thermalTripEffect_keeps (cause) {u1 : State}
    (h1 : Keeps m l t r u1) :
    Keeps m l t r (thermalTripEffect cause u1) := by
  unfold thermalTripEffect
  try dsimp only
  repeat' first
      | with_reducible assumption | with_reducible apply State.powerEvent_keeps | with_reducible apply State.modPower_keeps
      | with_reducible apply State.enterSafe_keeps | simp only [↓keeps_mk] | with_reducible apply keeps_ite | intro _ | split
      | dsimp only

theorem readyLostEffect_keeps (sel) {u1 : State}
    (h1 : Keeps m l t r u1) :
    Keeps m l t r (readyLostEffect sel u1) := by
  unfold readyLostEffect
  try dsimp only
  repeat' first
      | with_reducible assumption | with_reducible apply State.modClk_keeps | with_reducible apply State.select_keeps
      | with_reducible apply State.beginRelock_keeps | with_reducible apply State.raiseStopAll_keeps
      | with_reducible apply State.raiseStop_keeps | with_reducible apply State.retrain_keeps | simp only [↓keeps_mk]
      | with_reducible apply keeps_ite | with_reducible apply keeps_foldl | intro _ | with_reducible apply keeps_foldl_snd | split
      | dsimp only

theorem reportEffect_keeps (nonce) (scope) {u2 : State}
    (h2 : Keeps m l t r u2) :
    Keeps m l t r (reportEffect nonce scope u2) := by
  unfold reportEffect
  try dsimp only
  repeat' first
      | with_reducible assumption | with_reducible apply State.reportIssued_keeps | with_reducible apply State.emit_keeps
      | with_reducible apply keeps_ite | intro _ | split | dsimp only

theorem ptpEffect_keeps (a0) {u1 : State}
    (h1 : Keeps m l t r u1) :
    Keeps m l t r (ptpEffect a0 u1) := by
  unfold ptpEffect
  try dsimp only
  repeat' first
      | with_reducible assumption | with_reducible apply State.modTime_keeps | with_reducible apply State.becomeRoot_keeps
      | with_reducible apply State.correct_keeps | simp only [↓keeps_mk] | with_reducible apply keeps_ite | intro _ | split | dsimp only

theorem acquireEffect_keeps (core) (both) {u2 : State}
    (h2 : Keeps m false t r u2) :
    Keeps m false t r (acquireEffect core both u2) := by
  unfold acquireEffect State.modLease
  try dsimp only
  repeat' first
      | with_reducible assumption | with_reducible apply State.setHolder_keeps | with_reducible apply State.nvPut_keeps
      | simp only [↓keeps_mk, ↓keeps_mk_lease, ↓keeps_mk_lease0] | with_reducible apply keeps_ite | intro _ | split | dsimp only

theorem stepTimeoutEffect_keeps (p) {u1 : State}
    (h1 : Keeps m l t r u1) :
    Keeps m l t r (stepTimeoutEffect p u1) := by
  unfold stepTimeoutEffect
  try dsimp only
  repeat' first
      | with_reducible assumption | with_reducible apply State.raiseStop_keeps | with_reducible apply State.atNs_keeps
      | with_reducible apply keeps_ite | intro _ | split | dsimp only

theorem dropEffect_keeps (d) {u1 : State}
    (h1 : Keeps m l t r u1) :
    Keeps m l t r (dropEffect d u1) := by
  unfold dropEffect
  try dsimp only
  repeat' first
      | with_reducible assumption | with_reducible apply State.elementEvent_keeps | with_reducible apply State.modDomain_keeps
      | with_reducible apply State.domainOff_keeps | simp only [↓keeps_mk] | with_reducible apply keeps_ite | intro _ | split
      | dsimp only

theorem rebindStartEffect_keeps (p) {u1 : State}
    (h1 : Keeps m l t r u1) :
    Keeps m l t r (rebindStartEffect p u1) := by
  unfold rebindStartEffect
  try dsimp only
  repeat' first
      | with_reducible assumption | with_reducible apply State.modBind_keeps | with_reducible apply State.raiseStart_keeps
      | simp only [↓keeps_mk] | with_reducible apply keeps_ite | intro _ | split | dsimp only

theorem execWakeComplete_keeps (a0) {u1 : State} (h0 : Keeps m l t r u1) {v : State} (h : execWakeComplete a0 u1 = .next v) : Keeps m l t r v := by
  unfold execWakeComplete at h
  try unfold onPartition at h
  try unfold onNumber at h
  try dsimp only at h
  repeat' split at h
  all_goals first | (simp only [Host.Outcome.next.injEq] at h; subst h) | cases h | skip
  all_goals repeat' first | with_reducible assumption | with_reducible apply wakeCompleteEffect_keeps | intro _ | dsimp only

theorem execThermalTrip_keeps (a0) {u1 : State} (h0 : Keeps m l t r u1) {v : State} (h : execThermalTrip a0 u1 = .next v) : Keeps m l t r v := by
  unfold execThermalTrip at h
  try dsimp only at h
  repeat' split at h
  all_goals first | (simp only [Host.Outcome.next.injEq] at h; subst h) | cases h | skip
  all_goals repeat' first | with_reducible assumption | with_reducible apply thermalTripEffect_keeps | intro _ | dsimp only

theorem execPowerGroupStage_keeps (a0) {u1 : State} (h0 : Keeps m l t r u1) {v : State} (h : execPowerGroupStage a0 u1 = .next v) : Keeps m l t r v := by
  unfold execPowerGroupStage at h
  try unfold onNumber at h
  try dsimp only at h
  repeat' split at h
  all_goals first | (simp only [Host.Outcome.next.injEq] at h; subst h) | cases h | skip
  all_goals repeat' first
      | with_reducible assumption | with_reducible apply groupStageEffect_keeps | with_reducible apply keeps_ite | intro _ | split
      | dsimp only

theorem execStoredRecordWrite_keeps (a0) (a1) (a2) (a3) {u4 : State} (h0 : Keeps m l t r u4) {v : State} (h : execStoredRecordWrite a0 a1 a2 a3 u4 = .next v) : Keeps m l t r v := by
  unfold execStoredRecordWrite at h
  try unfold onNumber at h
  try dsimp only at h
  repeat' split at h
  all_goals first | (simp only [Host.Outcome.next.injEq] at h; subst h) | cases h | skip
  all_goals repeat' first
      | with_reducible assumption | with_reducible apply State.guarded_keeps | with_reducible apply storedWriteEffect_keeps
      | with_reducible apply keeps_ite | intro _ | split | dsimp only

theorem execFastClamp_keeps (a0) (a1) (a2) {u3 : State} (h0 : Keeps m l t r u3) {v : State} (h : execFastClamp a0 a1 a2 u3 = .next v) : Keeps m l t r v := by
  unfold execFastClamp at h
  try dsimp only at h
  repeat' split at h
  all_goals first | (simp only [Host.Outcome.next.injEq] at h; subst h) | cases h | skip
  all_goals repeat' first | with_reducible assumption | with_reducible apply fastClampEffect_keeps | intro _ | dsimp only

theorem execVerifyingGate_keeps (a0) {u1 : State} (h0 : Keeps m l t r u1) {v : State} (h : execVerifyingGate a0 u1 = .next v) : Keeps m l t r v := by
  unfold execVerifyingGate at h
  try dsimp only at h
  repeat' split at h
  all_goals first | (simp only [Host.Outcome.next.injEq] at h; subst h) | cases h | skip
  all_goals repeat' first | with_reducible assumption | with_reducible apply gateEffect_keeps | intro _ | dsimp only

theorem execSamplePreload_keeps (a0) {u1 : State} (h0 : Keeps m l t r u1) {v : State} (h : execSamplePreload a0 u1 = .next v) : Keeps m l t r v := by
  unfold execSamplePreload at h
  try dsimp only at h
  repeat' split at h
  all_goals first | (simp only [Host.Outcome.next.injEq] at h; subst h) | cases h | skip
  all_goals repeat' first
      | with_reducible assumption | with_reducible apply setBoundary_keeps | with_reducible apply State.tap_keeps
      | simp only [↓keeps_mk] | intro _ | dsimp only

theorem execExtestTrain_keeps (a0) {u1 : State} (h0 : Keeps m l t r u1) {v : State} (h : execExtestTrain a0 u1 = .next v) : Keeps m l t r v := by
  unfold execExtestTrain at h
  try dsimp only at h
  repeat' split at h
  all_goals first | (simp only [Host.Outcome.next.injEq] at h; subst h) | cases h | skip
  all_goals repeat' first
      | with_reducible assumption | with_reducible apply setBoundary_keeps | with_reducible apply State.drive_keeps
      | with_reducible apply State.tap_keeps | intro _ | dsimp only

theorem execRetire_keeps (a0) (a1) {u2 : State} (h0 : Keeps m l false r u2) {v : State} (h : execRetire a0 a1 u2 = .next v) : Keeps m l false r v := by
  unfold execRetire at h
  try dsimp only at h
  repeat' split at h
  all_goals first | (simp only [Host.Outcome.next.injEq] at h; subst h) | cases h | skip
  all_goals repeat' first
      | with_reducible assumption | with_reducible apply State.guarded_keeps | with_reducible apply State.retireCmd_keeps | intro _
      | dsimp only

theorem execWake_keeps (a0) (a1) {u2 : State} (h0 : Keeps m l t r u2) {v : State} (h : execWake a0 a1 u2 = .next v) : Keeps m l t r v := by
  unfold execWake at h
  try dsimp only at h
  repeat' split at h
  all_goals first | (simp only [Host.Outcome.next.injEq] at h; subst h) | cases h | skip
  all_goals repeat' first
      | with_reducible assumption | with_reducible apply State.askWake_keeps | with_reducible apply State.guarded_keeps
      | with_reducible apply keeps_ite | intro _ | split | dsimp only

theorem execAbnormalDrop_keeps (a0) {u1 : State} (h0 : Keeps m l t r u1) {v : State} (h : execAbnormalDrop a0 u1 = .next v) : Keeps m l t r v := by
  unfold execAbnormalDrop at h
  try unfold onDomain at h
  try unfold onNumber at h
  try dsimp only at h
  repeat' split at h
  all_goals first | (simp only [Host.Outcome.next.injEq] at h; subst h) | cases h | skip
  all_goals repeat' first
      | with_reducible assumption | with_reducible apply dropEffect_keeps | with_reducible apply keeps_ite | intro _ | split
      | dsimp only

theorem execOwnerZeroingComplete_keeps (a0) {u1 : State} (h0 : Keeps m l t r u1) {v : State} (h : execOwnerZeroingComplete a0 u1 = .next v) : Keeps m l t r v := by
  unfold execOwnerZeroingComplete at h
  try unfold onPartition at h
  try unfold onNumber at h
  try dsimp only at h
  repeat' split at h
  all_goals first | (simp only [Host.Outcome.next.injEq] at h; subst h) | cases h | skip
  all_goals repeat' first | with_reducible assumption | with_reducible apply ownerZeroedEffect_keeps | intro _ | dsimp only

theorem execPinSwitchTimeout_keeps (a0) {u1 : State} (h0 : Keeps m l t r u1) {v : State} (h : execPinSwitchTimeout a0 u1 = .next v) : Keeps m l t r v := by
  unfold execPinSwitchTimeout at h
  try unfold onPinGroup at h
  try dsimp only at h
  repeat' split at h
  all_goals first | (simp only [Host.Outcome.next.injEq] at h; subst h) | cases h | skip
  all_goals repeat' first
      | with_reducible assumption | with_reducible apply pinTimeoutEffect_keeps | with_reducible apply keeps_ite | intro _ | split
      | dsimp only

theorem execExtest_keeps (a0) {u1 : State} (h0 : Keeps m l t r u1) {v : State} (h : execExtest a0 u1 = .next v) : Keeps m l t r v := by
  unfold execExtest at h
  try dsimp only at h
  repeat' split at h
  all_goals first | (simp only [Host.Outcome.next.injEq] at h; subst h) | cases h | skip
  all_goals repeat' first
      | with_reducible assumption | with_reducible apply setBoundary_keeps | with_reducible apply State.drive_keeps
      | with_reducible apply State.tap_keeps | intro _ | dsimp only

theorem execLeaseAcquire_keeps (a0) (a1) {u2 : State} (h0 : Keeps m false t r u2) {v : State} (h : execLeaseAcquire a0 a1 u2 = .next v) : Keeps m false t r v := by
  unfold execLeaseAcquire at h
  try dsimp only at h
  repeat' split at h
  all_goals first | (simp only [Host.Outcome.next.injEq] at h; subst h) | cases h | skip
  all_goals repeat' first | with_reducible assumption | with_reducible apply acquireEffect_keeps | intro _ | dsimp only

theorem execTimeDiscontinuityClear_keeps (a0) (a1) {u2 : State} (h0 : Keeps m l t r u2) {v : State} (h : execTimeDiscontinuityClear a0 a1 u2 = .next v) : Keeps m l t r v := by
  unfold execTimeDiscontinuityClear at h
  try dsimp only at h
  repeat' split at h
  all_goals first | (simp only [Host.Outcome.next.injEq] at h; subst h) | cases h | skip
  all_goals repeat' first
      | with_reducible assumption | with_reducible apply State.modTime_keeps | with_reducible apply State.guarded_keeps
      | simp only [↓keeps_mk] | with_reducible apply keeps_ite | intro _ | split | dsimp only

theorem execModuleReady_keeps (a0) {u1 : State} (h0 : Keeps m l t r u1) {v : State} (h : execModuleReady a0 u1 = .next v) : Keeps m l t r v := by
  unfold execModuleReady at h
  try dsimp only at h
  repeat' split at h
  all_goals first | (simp only [Host.Outcome.next.injEq] at h; subst h) | cases h | skip
  all_goals repeat' first | with_reducible assumption | with_reducible apply readyEffect_keeps | intro _ | dsimp only

theorem execStart_keeps (a0) (a1) {u2 : State} (h0 : Keeps m l t r u2) {v : State} (h : execStart a0 a1 u2 = .next v) : Keeps m l t r v := by
  unfold execStart at h
  try unfold onPartition at h
  try unfold onNumber at h
  try dsimp only at h
  repeat' split at h
  all_goals first | (simp only [Host.Outcome.next.injEq] at h; subst h) | cases h | skip
  all_goals repeat' first
      | with_reducible assumption | with_reducible apply State.guarded_keeps | with_reducible apply State.askStart_keeps | intro _
      | dsimp only

theorem execOperatorPkWrite_keeps (a0) (a1) {u2 : State} (h0 : Keeps m l t r u2) {v : State} (h : execOperatorPkWrite a0 a1 u2 = .next v) : Keeps m l t r v := by
  unfold execOperatorPkWrite at h
  try dsimp only at h
  repeat' split at h
  all_goals first | (simp only [Host.Outcome.next.injEq] at h; subst h) | cases h | skip
  all_goals repeat' first
      | with_reducible assumption | with_reducible apply State.guarded_keeps | with_reducible apply operatorPkEffect_keeps | intro _
      | dsimp only

theorem execWarmRebindStart_keeps (a0) {u1 : State} (h0 : Keeps m l t r u1) {v : State} (h : execWarmRebindStart a0 u1 = .next v) : Keeps m l t r v := by
  unfold execWarmRebindStart at h
  try unfold onPartition at h
  try unfold onNumber at h
  try dsimp only at h
  repeat' split at h
  all_goals first | (simp only [Host.Outcome.next.injEq] at h; subst h) | cases h | skip
  all_goals repeat' first | with_reducible assumption | with_reducible apply rebindStartEffect_keeps | intro _ | dsimp only

theorem execColdPowerOn_keeps (a0) {u1 : State} (h0 : Keeps false false false r u1) {v : State} (h : execColdPowerOn a0 u1 = .next v) : Keeps false false false r v := by
  unfold execColdPowerOn at h
  try dsimp only at h
  repeat' split at h
  all_goals first | (simp only [Host.Outcome.next.injEq] at h; subst h) | cases h | skip
  all_goals repeat' first | with_reducible assumption | with_reducible apply coldPowerOnEffect_keeps | intro _ | dsimp only

theorem execStepTimeout_keeps (a0) {u1 : State} (h0 : Keeps m l t r u1) {v : State} (h : execStepTimeout a0 u1 = .next v) : Keeps m l t r v := by
  unfold execStepTimeout at h
  try unfold onPartition at h
  try unfold onNumber at h
  try dsimp only at h
  repeat' split at h
  all_goals first | (simp only [Host.Outcome.next.injEq] at h; subst h) | cases h | skip
  all_goals repeat' first | with_reducible assumption | with_reducible apply stepTimeoutEffect_keeps | intro _ | dsimp only

theorem execPinSwitchComplete_keeps (a0) {u1 : State} (h0 : Keeps m l t r u1) {v : State} (h : execPinSwitchComplete a0 u1 = .next v) : Keeps m l t r v := by
  unfold execPinSwitchComplete at h
  try unfold onPinGroup at h
  try dsimp only at h
  repeat' split at h
  all_goals first | (simp only [Host.Outcome.next.injEq] at h; subst h) | cases h | skip
  all_goals repeat' first
      | with_reducible assumption | with_reducible apply pinCompleteEffect_keeps | with_reducible apply keeps_ite | intro _ | split
      | dsimp only

theorem execCrystalComparison_keeps (a0) {u1 : State} (h0 : Keeps m l t r u1) {v : State} (h : execCrystalComparison a0 u1 = .next v) : Keeps m l t r v := by
  unfold execCrystalComparison at h
  try dsimp only at h
  repeat' split at h
  all_goals first | (simp only [Host.Outcome.next.injEq] at h; subst h) | cases h | skip
  all_goals repeat' first | with_reducible assumption | with_reducible apply comparisonEffect_keeps | intro _ | dsimp only

theorem execKeyDelivery_keeps (a0) (a1) (a2) {u3 : State} (h0 : Keeps m l t r u3) {v : State} (h : execKeyDelivery a0 a1 a2 u3 = .next v) : Keeps m l t r v := by
  unfold execKeyDelivery at h
  try unfold onPartition at h
  try unfold onNumber at h
  try dsimp only at h
  repeat' split at h
  all_goals first | (simp only [Host.Outcome.next.injEq] at h; subst h) | cases h | skip
  all_goals repeat' first
      | with_reducible assumption | with_reducible apply State.guarded_keeps | with_reducible apply keyDeliveryEffect_keeps | intro _
      | dsimp only

theorem execWakeEntry_keeps (a0) {u1 : State} (h0 : Keeps m l t r u1) {v : State} (h : execWakeEntry a0 u1 = .next v) : Keeps m l t r v := by
  unfold execWakeEntry at h
  try unfold onPartition at h
  try unfold onNumber at h
  try dsimp only at h
  repeat' split at h
  all_goals first | (simp only [Host.Outcome.next.injEq] at h; subst h) | cases h | skip
  all_goals repeat' first | with_reducible assumption | with_reducible apply wakeEntryEffect_keeps | intro _ | dsimp only

theorem execIdcode_keeps {u0 : State} (h0 : Keeps m l t r u0) {v : State} (h : execIdcode u0 = .next v) : Keeps m l t r v := by
  unfold execIdcode at h
  try dsimp only at h
  repeat' split at h
  all_goals first | (simp only [Host.Outcome.next.injEq] at h; subst h) | cases h | skip
  all_goals repeat' first
      | with_reducible assumption | with_reducible apply State.emit_keeps | with_reducible apply State.tapLoad_keeps | intro _
      | dsimp only

theorem execOvervoltageRecovery_keeps {u0 : State} (h0 : Keeps m l t r u0) {v : State} (h : execOvervoltageRecovery u0 = .next v) : Keeps m l t r v := by
  unfold execOvervoltageRecovery at h
  try dsimp only at h
  repeat' split at h
  all_goals first | (simp only [Host.Outcome.next.injEq] at h; subst h) | cases h | skip
  all_goals repeat' first
      | with_reducible assumption | with_reducible apply State.modPower_keeps | simp only [↓keeps_mk] | intro _ | dsimp only

theorem execBypass_keeps (a0) {u1 : State} (h0 : Keeps m l t r u1) {v : State} (h : execBypass a0 u1 = .next v) : Keeps m l t r v := by
  unfold execBypass at h
  try dsimp only at h
  repeat' split at h
  all_goals first | (simp only [Host.Outcome.next.injEq] at h; subst h) | cases h | skip
  all_goals repeat' first | with_reducible assumption | with_reducible apply bypassEffect_keeps | intro _ | dsimp only

theorem execReadyLost_keeps (a0) {u1 : State} (h0 : Keeps m l t r u1) {v : State} (h : execReadyLost a0 u1 = .next v) : Keeps m l t r v := by
  unfold execReadyLost at h
  try dsimp only at h
  repeat' split at h
  all_goals first | (simp only [Host.Outcome.next.injEq] at h; subst h) | cases h | skip
  all_goals repeat' first
      | with_reducible assumption | with_reducible apply readyLostEffect_keeps | with_reducible apply keeps_ite | intro _ | split
      | dsimp only

theorem execSafeStateEntry_keeps (a0) {u1 : State} (h0 : Keeps m l t r u1) {v : State} (h : execSafeStateEntry a0 u1 = .next v) : Keeps m l t r v := by
  unfold execSafeStateEntry at h
  try dsimp only at h
  repeat' split at h
  all_goals first | (simp only [Host.Outcome.next.injEq] at h; subst h) | cases h | skip
  all_goals repeat' first
      | with_reducible assumption | with_reducible apply State.enterSafe_keeps | simp only [↓keeps_mk] | with_reducible apply keeps_ite
      | intro _ | split | dsimp only

theorem execClamp_keeps {u0 : State} (h0 : Keeps m l t r u0) {v : State} (h : execClamp u0 = .next v) : Keeps m l t r v := by
  unfold execClamp at h
  try dsimp only at h
  repeat' split at h
  all_goals first | (simp only [Host.Outcome.next.injEq] at h; subst h) | cases h | skip
  all_goals repeat' first
      | with_reducible assumption | with_reducible apply State.drive_keeps | with_reducible apply State.tap_keeps | intro _ | dsimp only

theorem execDieLink_keeps (a0) {u1 : State} (h0 : Keeps m l t r u1) {v : State} (h : execDieLink a0 u1 = .next v) : Keeps m l t r v := by
  unfold execDieLink at h
  try dsimp only at h
  repeat' split at h
  all_goals first | (simp only [Host.Outcome.next.injEq] at h; subst h) | cases h | skip
  all_goals repeat' first
      | with_reducible assumption | with_reducible apply State.modPins_keeps | with_reducible apply State.tap_keeps
      | simp only [↓keeps_mk] | intro _ | dsimp only

theorem execStoreRecalibration_keeps (a0) {u1 : State} (h0 : Keeps m l t r u1) {v : State} (h : execStoreRecalibration a0 u1 = .next v) : Keeps m l t r v := by
  unfold execStoreRecalibration at h
  try unfold onNumber at h
  try dsimp only at h
  repeat' split at h
  all_goals first | (simp only [Host.Outcome.next.injEq] at h; subst h) | cases h | skip
  all_goals repeat' first | with_reducible assumption | with_reducible apply keeps_ite | intro _ | split | dsimp only

theorem execW4Entry_keeps {u0 : State} (h0 : Keeps m l t r u0) {v : State} (h : execW4Entry u0 = .next v) : Keeps m l t r v := by
  unfold execW4Entry at h
  try dsimp only at h
  repeat' split at h
  all_goals first | (simp only [Host.Outcome.next.injEq] at h; subst h) | cases h | skip
  all_goals repeat' first | with_reducible assumption | with_reducible apply w4EntryEffect_keeps | intro _ | dsimp only

theorem execRelease_keeps (a0) (a1) {u2 : State} (h0 : Keeps m l false r u2) {v : State} (h : execRelease a0 a1 u2 = .next v) : Keeps m l false r v := by
  unfold execRelease at h
  try dsimp only at h
  repeat' split at h
  all_goals first | (simp only [Host.Outcome.next.injEq] at h; subst h) | cases h | skip
  all_goals repeat' first
      | with_reducible assumption | with_reducible apply State.guarded_keeps | with_reducible apply State.releaseCmd_keeps | intro _
      | dsimp only

theorem execRelockTimeout_keeps {u0 : State} (h0 : Keeps m l t r u0) {v : State} (h : execRelockTimeout u0 = .next v) : Keeps m l t r v := by
  unfold execRelockTimeout at h
  try dsimp only at h
  repeat' split at h
  all_goals first | (simp only [Host.Outcome.next.injEq] at h; subst h) | cases h | skip
  all_goals repeat' first | with_reducible assumption | with_reducible apply relockTimeoutEffect_keeps | intro _ | dsimp only

theorem execTmuxSelWrite_keeps (a0) (a1) (a2) {u3 : State} (h0 : Keeps m l t r u3) {v : State} (h : execTmuxSelWrite a0 a1 a2 u3 = .next v) : Keeps m l t r v := by
  unfold execTmuxSelWrite at h
  try unfold onNumber at h
  try dsimp only at h
  repeat' split at h
  all_goals first | (simp only [Host.Outcome.next.injEq] at h; subst h) | cases h | skip
  all_goals repeat' first
      | with_reducible assumption | with_reducible apply State.guarded_keeps | with_reducible apply State.setSetting_keeps
      | with_reducible apply keeps_ite | intro _ | split | dsimp only

theorem execOverdriveSave_keeps {u0 : State} (h0 : Keeps m l t r u0) {v : State} (h : execOverdriveSave u0 = .next v) : Keeps m l t r v := by
  unfold execOverdriveSave at h
  try dsimp only at h
  repeat' split at h
  all_goals first | (simp only [Host.Outcome.next.injEq] at h; subst h) | cases h | skip
  all_goals repeat' first | with_reducible assumption | with_reducible apply State.nvRequest_keeps | intro _ | dsimp only

theorem execHighz_keeps {u0 : State} (h0 : Keeps m l t r u0) {v : State} (h : execHighz u0 = .next v) : Keeps m l t r v := by
  unfold execHighz at h
  try dsimp only at h
  repeat' split at h
  all_goals first | (simp only [Host.Outcome.next.injEq] at h; subst h) | cases h | skip
  all_goals repeat' first
      | with_reducible assumption | with_reducible apply State.drive_keeps | with_reducible apply State.tap_keeps | intro _ | dsimp only

theorem execEnterDebug_keeps (a0) (a1) {u2 : State} (h0 : Keeps m l false r u2) {v : State} (h : execEnterDebug a0 a1 u2 = .next v) : Keeps m l false r v := by
  unfold execEnterDebug at h
  try dsimp only at h
  repeat' split at h
  all_goals first | (simp only [Host.Outcome.next.injEq] at h; subst h) | cases h | skip
  all_goals repeat' first
      | with_reducible assumption | with_reducible apply State.guarded_keeps | with_reducible apply State.enterDebugCmd_keeps | intro _
      | dsimp only

theorem execPtpMessage_keeps (a0) {u1 : State} (h0 : Keeps m l t r u1) {v : State} (h : execPtpMessage a0 u1 = .next v) : Keeps m l t r v := by
  unfold execPtpMessage at h
  try dsimp only at h
  repeat' split at h
  all_goals first | (simp only [Host.Outcome.next.injEq] at h; subst h) | cases h | skip
  all_goals repeat' first | with_reducible assumption | with_reducible apply ptpEffect_keeps | intro _ | dsimp only

theorem execLoRegisterRead_keeps (a0) (a1) {u2 : State} (h0 : Keeps m l t r u2) {v : State} (h : execLoRegisterRead a0 a1 u2 = .next v) :
    Keeps m l t r v := by
  have h1 := loReadEffect_keeps a0 a1 h0
  unfold execLoRegisterRead onCluster onContext onStackPart onPort onPartition onCluster onNumber at h
  repeat' split at h
  all_goals first | (simp only [Host.Outcome.next.injEq] at h; subst h; exact h1) | cases h

theorem execPtpLost_keeps {u0 : State} (h0 : Keeps m l t r u0) {v : State} (h : execPtpLost u0 = .next v) : Keeps m l t r v := by
  unfold execPtpLost at h
  try dsimp only at h
  repeat' split at h
  all_goals first | (simp only [Host.Outcome.next.injEq] at h; subst h) | cases h | skip
  all_goals repeat' first
      | with_reducible assumption | with_reducible apply State.modTime_keeps | with_reducible apply State.setHoldover_keeps
      | simp only [↓keeps_mk] | with_reducible apply keeps_ite | intro _ | split | dsimp only

theorem execLeaseRelease_keeps (a0) {u1 : State} (h0 : Keeps m false t r u1) {v : State} (h : execLeaseRelease a0 u1 = .next v) : Keeps m false t r v := by
  unfold execLeaseRelease at h
  try dsimp only at h
  repeat' split at h
  all_goals first | (simp only [Host.Outcome.next.injEq] at h; subst h) | cases h | skip
  all_goals repeat' first
      | with_reducible assumption | with_reducible apply State.setHolder_keeps | with_reducible apply keeps_ite | intro _ | split
      | dsimp only

theorem execOvervoltage_keeps {u0 : State} (h0 : Keeps m l t r u0) {v : State} (h : execOvervoltage u0 = .next v) : Keeps m l t r v := by
  unfold execOvervoltage at h
  try dsimp only at h
  repeat' split at h
  all_goals first | (simp only [Host.Outcome.next.injEq] at h; subst h) | cases h | skip
  all_goals repeat' first
      | with_reducible assumption | with_reducible apply State.modPower_keeps | with_reducible apply State.failInput_keeps
      | simp only [↓keeps_mk] | intro _ | dsimp only

theorem execRegisterWrite_keeps (a0) (a1) (a2) (a3) {u4 : State} (h0 : Keeps m l t r u4) {v : State} (h : execRegisterWrite a0 a1 a2 a3 u4 = .next v) : Keeps m l t r v := by
  unfold execRegisterWrite at h
  try unfold onCluster at h
  try unfold onStack at h
  try unfold onPort at h
  try unfold onQueue at h
  try unfold onNumber at h
  try dsimp only at h
  repeat' split at h
  all_goals first | (simp only [Host.Outcome.next.injEq] at h; subst h) | cases h | skip
  all_goals repeat' first
      | with_reducible assumption | with_reducible apply registerWriteEffect_keeps | with_reducible apply hwSets_keeps
      | with_reducible apply State.guardedBy_keeps | simp only [↓keeps_mk] | with_reducible apply keeps_ite | intro _ | split
      | dsimp only

theorem execLeaseUncorrectable_keeps {u0 : State} (h0 : Keeps m false t r u0) {v : State} (h : execLeaseUncorrectable u0 = .next v) : Keeps m false t r v := by
  unfold execLeaseUncorrectable at h
  try dsimp only at h
  repeat' split at h
  all_goals first | (simp only [Host.Outcome.next.injEq] at h; subst h) | cases h | skip
  all_goals repeat' first | with_reducible assumption | with_reducible apply uncorrectableEffect_keeps | intro _ | dsimp only

theorem execCrystalLost_keeps {u0 : State} (h0 : Keeps m l t r u0) {v : State} (h : execCrystalLost u0 = .next v) : Keeps m l t r v := by
  unfold execCrystalLost at h
  try dsimp only at h
  repeat' split at h
  all_goals first | (simp only [Host.Outcome.next.injEq] at h; subst h) | cases h | skip
  all_goals repeat' first
      | with_reducible assumption | with_reducible apply State.crystalLoss_keeps | simp only [↓keeps_mk]
      | with_reducible apply keeps_ite | intro _ | split | dsimp only

theorem execLeaseExpiry_keeps {u0 : State} (h0 : Keeps m l t r u0) {v : State} (h : execLeaseExpiry u0 = .next v) : Keeps m l t r v := by
  unfold execLeaseExpiry at h
  try dsimp only at h
  repeat' split at h
  all_goals first | (simp only [Host.Outcome.next.injEq] at h; subst h) | cases h | skip
  all_goals repeat' first
      | with_reducible assumption | with_reducible apply State.atNs_keeps | with_reducible apply keeps_ite | intro _ | split
      | dsimp only

theorem execHostReset_keeps (a0) {u1 : State} (h0 : Keeps false false false r u1) {v : State} (h : execHostReset a0 u1 = .next v) : Keeps false false false r v := by
  unfold execHostReset at h
  try dsimp only at h
  repeat' split at h
  all_goals first | (simp only [Host.Outcome.next.injEq] at h; subst h) | cases h | skip
  all_goals repeat' first | with_reducible assumption | with_reducible apply hostResetEffect_keeps | intro _ | dsimp only

theorem execCoolantSample_keeps (a0) (a1) (a2) {u3 : State} (h0 : Keeps m l t r u3) {v : State} (h : execCoolantSample a0 a1 a2 u3 = .next v) : Keeps m l t r v := by
  unfold execCoolantSample at h
  try dsimp only at h
  repeat' split at h
  all_goals first | (simp only [Host.Outcome.next.injEq] at h; subst h) | cases h | skip
  all_goals repeat' first | with_reducible assumption | with_reducible apply coolantEffect_keeps | intro _ | dsimp only

theorem execStop_keeps (a0) (a1) {u2 : State} (h0 : Keeps m l t r u2) {v : State} (h : execStop a0 a1 u2 = .next v) : Keeps m l t r v := by
  unfold execStop at h
  try unfold onPartition at h
  try unfold onNumber at h
  try dsimp only at h
  repeat' split at h
  all_goals first | (simp only [Host.Outcome.next.injEq] at h; subst h) | cases h | skip
  all_goals repeat' first
      | with_reducible assumption | with_reducible apply State.raiseStop_keeps | with_reducible apply State.guarded_keeps | intro _
      | dsimp only

theorem execSteeringPeriod_keeps (a0) {u1 : State} (h0 : Keeps m l t r u1) {v : State} (h : execSteeringPeriod a0 u1 = .next v) : Keeps m l t r v := by
  unfold execSteeringPeriod at h
  try dsimp only at h
  repeat' split at h
  all_goals first | (simp only [Host.Outcome.next.injEq] at h; subst h) | cases h | skip
  all_goals repeat' first | with_reducible assumption | with_reducible apply steeringEffect_keeps | intro _ | dsimp only

theorem execIntScan_keeps {u0 : State} (h0 : Keeps m l t r u0) {v : State} (h : execIntScan u0 = .next v) : Keeps m l t r v := by
  unfold execIntScan at h
  try dsimp only at h
  repeat' split at h
  all_goals first | (simp only [Host.Outcome.next.injEq] at h; subst h) | cases h | skip
  all_goals repeat' first
      | with_reducible assumption | with_reducible apply State.modPins_keeps | with_reducible apply State.tapLoad_keeps
      | with_reducible apply State.tap_keeps | simp only [↓keeps_mk] | with_reducible apply keeps_ite | intro _ | split | dsimp only

theorem execExtestPulse_keeps (a0) {u1 : State} (h0 : Keeps m l t r u1) {v : State} (h : execExtestPulse a0 u1 = .next v) : Keeps m l t r v := by
  unfold execExtestPulse at h
  try dsimp only at h
  repeat' split at h
  all_goals first | (simp only [Host.Outcome.next.injEq] at h; subst h) | cases h | skip
  all_goals repeat' first
      | with_reducible assumption | with_reducible apply setBoundary_keeps | with_reducible apply State.drive_keeps
      | with_reducible apply State.tap_keeps | intro _ | dsimp only

theorem execWakeEvent_keeps (a0) (a1) {u2 : State} (h0 : Keeps m l t r u2) {v : State} (h : execWakeEvent a0 a1 u2 = .next v) : Keeps m l t r v := by
  unfold execWakeEvent at h
  try unfold onPartition at h
  try unfold onNumber at h
  try dsimp only at h
  repeat' split at h
  all_goals first | (simp only [Host.Outcome.next.injEq] at h; subst h) | cases h | skip
  all_goals repeat' first | with_reducible assumption | with_reducible apply State.wakeUp_keeps | intro _ | dsimp only

theorem execPowerTick_keeps (a0) (a1) (a2) {u3 : State} (h0 : Keeps m l t r u3) {v : State} (h : execPowerTick a0 a1 a2 u3 = .next v) : Keeps m l t r v := by
  unfold execPowerTick at h
  try dsimp only at h
  repeat' split at h
  all_goals first | (simp only [Host.Outcome.next.injEq] at h; subst h) | cases h | skip
  all_goals repeat' first | with_reducible assumption | with_reducible apply powerTickEffect_keeps | intro _ | dsimp only

theorem execUartInput_keeps (a0) {u1 : State} (h0 : Keeps m l t r u1) {v : State} (h : execUartInput a0 u1 = .next v) : Keeps m l t r v := by
  unfold execUartInput at h
  try dsimp only at h
  repeat' split at h
  all_goals first | (simp only [Host.Outcome.next.injEq] at h; subst h) | cases h | skip
  all_goals repeat' first
      | with_reducible assumption | simp only [↓keeps_mk] | with_reducible apply keeps_ite | intro _ | split | dsimp only

theorem execProvisioning_keeps (a0) {u1 : State} (h0 : Keeps m l false r u1) {v : State} (h : execProvisioning a0 u1 = .next v) :
    Keeps m l false r v := by
  unfold execProvisioning at h
  simp only [Host.Outcome.next.injEq] at h
  subst h
  refine keeps_ite (fun hc => ?_) (fun _ => h0)
  have h1 : Keeps m l false r (u1.modTrust (fun t => { t with identity := a0, provisionedFuse := true })) :=
    h0.trustOf (fun a b => a b) ⟨id, fun _ => rfl, Nat.le_refl _, Nat.le_refl _⟩
  have hx : (u1.modTrust (fun t => { t with identity := a0, provisionedFuse := true })).trust.lifecycle = 0 := hc.1
  revert h1 hx
  generalize u1.modTrust _ = y
  intro h1 hx
  have hy := ((State.nvPut_keeps (m := true) (l := true) (t := true) 2 0 (.defects (y.faults.recs.map RetRec.element)) (Keeps.refl y)).life rfl).1.trans hx
  exact State.enterLifecycle_keeps _ (State.nvPut_keeps _ _ _ h1) (fun hr hf => absurd ((hr hf).symm.trans hy) (by decide))

theorem execTapReset_keeps {u0 : State} (h0 : Keeps m l t r u0) {v : State} (h : execTapReset u0 = .next v) : Keeps m l t r v := by
  unfold execTapReset at h
  try dsimp only at h
  repeat' split at h
  all_goals first | (simp only [Host.Outcome.next.injEq] at h; subst h) | cases h | skip
  all_goals repeat' first | with_reducible assumption | with_reducible apply State.tapLoad_keeps | intro _ | dsimp only

theorem execSourceSwitch_keeps (a0) (a1) {u2 : State} (h0 : Keeps m l t r u2) {v : State} (h : execSourceSwitch a0 a1 u2 = .next v) : Keeps m l t r v := by
  unfold execSourceSwitch at h
  try dsimp only at h
  repeat' split at h
  all_goals first | (simp only [Host.Outcome.next.injEq] at h; subst h) | cases h | skip
  all_goals repeat' first
      | with_reducible assumption | with_reducible apply switchEffect_keeps | with_reducible apply keeps_ite | intro _ | split
      | dsimp only

theorem execPinFunctionWrite_keeps (a0) (a1) (a2) {u3 : State} (h0 : Keeps m l t r u3) {v : State} (h : execPinFunctionWrite a0 a1 a2 u3 = .next v) : Keeps m l t r v := by
  unfold execPinFunctionWrite at h
  try unfold onPinGroup at h
  try dsimp only at h
  repeat' split at h
  all_goals first | (simp only [Host.Outcome.next.injEq] at h; subst h) | cases h | skip
  all_goals repeat' first
      | with_reducible assumption | with_reducible apply State.guarded_keeps | with_reducible apply State.pinWrite_keeps
      | with_reducible apply keeps_ite | intro _ | split | dsimp only

theorem execPhaseFault_keeps (a0) (a1) (a2) {u3 : State} (h0 : Keeps m l t r u3) {v : State} (h : execPhaseFault a0 a1 a2 u3 = .next v) : Keeps m l t r v := by
  unfold execPhaseFault at h
  try unfold onCluster at h
  try unfold onNumber at h
  try dsimp only at h
  repeat' split at h
  all_goals first | (simp only [Host.Outcome.next.injEq] at h; subst h) | cases h | skip
  all_goals repeat' first
      | with_reducible assumption | with_reducible apply phaseFaultEffect_keeps | with_reducible apply keeps_ite | intro _ | split
      | dsimp only

theorem execLeaseRenew_keeps (a0) {u1 : State} (h0 : Keeps m l t r u1) {v : State} (h : execLeaseRenew a0 u1 = .next v) : Keeps m l t r v := by
  unfold execLeaseRenew at h
  simp only [Host.Outcome.next.injEq] at h
  subst h
  exact keeps_ite (fun _ => keeps_mk_lease.2 h0) (fun _ => h0)

theorem execOutOfRegulation_keeps (a0) {u1 : State} (h0 : Keeps m l t r u1) {v : State} (h : execOutOfRegulation a0 u1 = .next v) : Keeps m l t r v := by
  unfold execOutOfRegulation at h
  try unfold onDomain at h
  try unfold onNumber at h
  try dsimp only at h
  repeat' split at h
  all_goals first | (simp only [Host.Outcome.next.injEq] at h; subst h) | cases h | skip
  all_goals repeat' first
      | with_reducible assumption | with_reducible apply regulationEffect_keeps | with_reducible apply keeps_ite | intro _ | split
      | dsimp only

theorem execSetSvn_keeps (a0) (a1) {u2 : State} (h0 : Keeps m l t r u2) {v : State} (h : execSetSvn a0 a1 u2 = .next v) : Keeps m l t r v := by
  unfold execSetSvn at h
  try dsimp only at h
  repeat' split at h
  all_goals first | (simp only [Host.Outcome.next.injEq] at h; subst h) | cases h | skip
  all_goals repeat' first
      | with_reducible assumption | with_reducible apply State.guarded_keeps | with_reducible apply State.setSvnCmd_keeps | intro _
      | dsimp only

theorem execRcCounterRead_keeps (a0) (a1) {u2 : State} (h0 : Keeps m l t r u2) {v : State} (h : execRcCounterRead a0 a1 u2 = .next v) :
    Keeps m l t r v := by
  have h1 := rcReadEffect_keeps a0 a1 (State.settleFor_keeps a0 h0)
  unfold execRcCounterRead onCluster onContext onStackPart onStack onPort onPartition onCluster onNumber at h
  repeat' split at h
  all_goals first | (simp only [Host.Outcome.next.injEq] at h; subst h; exact h1) | cases h

theorem execAttestationReport_keeps (a0) (a1) {u2 : State} (h0 : Keeps m l t r u2) {v : State} (h : execAttestationReport a0 a1 u2 = .next v) : Keeps m l t r v := by
  unfold execAttestationReport at h
  try dsimp only at h
  repeat' split at h
  all_goals first | (simp only [Host.Outcome.next.injEq] at h; subst h) | cases h | skip
  all_goals repeat' first | with_reducible assumption | with_reducible apply reportEffect_keeps | intro _ | dsimp only

theorem execRebind_keeps (a0) (a1) {u2 : State} (h0 : Keeps m l t r u2) {v : State} (h : execRebind a0 a1 u2 = .next v) : Keeps m l t r v := by
  unfold execRebind at h
  try unfold onPartition at h
  try unfold onNumber at h
  try dsimp only at h
  repeat' split at h
  all_goals first | (simp only [Host.Outcome.next.injEq] at h; subst h) | cases h | skip
  all_goals repeat' first
      | with_reducible assumption | with_reducible apply State.guarded_keeps | with_reducible apply State.askRebind_keeps | intro _
      | dsimp only

theorem execWarmRebind_keeps (a0) {u1 : State} (h0 : Keeps m l t r u1) {v : State} (h : execWarmRebind a0 u1 = .next v) : Keeps m l t r v := by
  unfold execWarmRebind at h
  try unfold onPartition at h
  try unfold onNumber at h
  try dsimp only at h
  repeat' split at h
  all_goals first | (simp only [Host.Outcome.next.injEq] at h; subst h) | cases h | skip
  all_goals repeat' first | with_reducible assumption | with_reducible apply warmRebindEffect_keeps | intro _ | dsimp only

theorem execClkmonCtrlWrite_keeps (a0) (a1) {u2 : State} (h0 : Keeps m l t r u2) {v : State} (h : execClkmonCtrlWrite a0 a1 u2 = .next v) : Keeps m l t r v := by
  unfold execClkmonCtrlWrite at h
  try dsimp only at h
  repeat' split at h
  all_goals first | (simp only [Host.Outcome.next.injEq] at h; subst h) | cases h | skip
  all_goals repeat' first
      | with_reducible assumption | with_reducible apply State.guarded_keeps | with_reducible apply clkmonEffect_keeps | intro _
      | dsimp only

theorem execPowerFail_keeps {u0 : State} (h0 : Keeps m l t r u0) {v : State} (h : execPowerFail u0 = .next v) : Keeps m l t r v := by
  unfold execPowerFail at h
  try dsimp only at h
  repeat' split at h
  all_goals first | (simp only [Host.Outcome.next.injEq] at h; subst h) | cases h | skip
  all_goals repeat' first | with_reducible assumption | with_reducible apply State.failInput_keeps | intro _ | dsimp only

theorem execOwnerIdWrite_keeps (a0) (a1) (a2) {u3 : State} (h0 : Keeps m l t r u3) {v : State} (h : execOwnerIdWrite a0 a1 a2 u3 = .next v) : Keeps m l t r v := by
  unfold execOwnerIdWrite at h
  try unfold onPartition at h
  try unfold onNumber at h
  try dsimp only at h
  repeat' split at h
  all_goals first | (simp only [Host.Outcome.next.injEq] at h; subst h) | cases h | skip
  all_goals repeat' first
      | with_reducible assumption | with_reducible apply State.guarded_keeps | with_reducible apply ownerIdEffect_keeps | intro _
      | dsimp only

theorem execOpPointWrite_keeps (a0) (a1) {u2 : State} (h0 : Keeps m l t r u2) {v : State} (h : execOpPointWrite a0 a1 u2 = .next v) : Keeps m l t r v := by
  unfold execOpPointWrite at h
  try dsimp only at h
  repeat' split at h
  all_goals first | (simp only [Host.Outcome.next.injEq] at h; subst h) | cases h | skip
  all_goals repeat' first
      | with_reducible assumption | with_reducible apply State.guarded_keeps | with_reducible apply opPointEffect_keeps | intro _
      | dsimp only

theorem execIntScanEnd_keeps {u0 : State} (h0 : Keeps m l t r u0) {v : State} (h : execIntScanEnd u0 = .next v) : Keeps m l t r v := by
  unfold execIntScanEnd at h
  try dsimp only at h
  repeat' split at h
  all_goals first | (simp only [Host.Outcome.next.injEq] at h; subst h) | cases h | skip
  all_goals repeat' first
      | with_reducible assumption | with_reducible apply State.tapLoad_keeps | simp only [↓keeps_mk] | with_reducible apply keeps_ite
      | intro _ | split | dsimp only

end Sys2Proof.Machine
end

