-- ==== Sys2Proof/Laws/KeepsMaunvo.lean ====
section
/-! SUPPORT. What an operation leaves alone (Keeps), lemma by lemma for the dictionary and the Maunvo port. -/

namespace Sys2Proof.Machine

open Sys2Proof

set_option Elab.async false
set_option linter.unusedSimpArgs false
set_option linter.unusedVariables false

variable {m l t : Bool} {r s : State}

theorem State.modMaunvo_keeps {u0 : State} (f)
    (h0 : Keeps m l t r u0) :
    Keeps m l t r (State.modMaunvo u0 f) := by
  unfold State.modMaunvo
  try dsimp only
  repeat' first | with_reducible assumption | simp only [↓keeps_mk] | intro _ | dsimp only

theorem State.setSession_keeps {u0 : State} (id) (x)
    (h0 : Keeps m l t r u0) :
    Keeps m l t r (State.setSession u0 id x) := by
  unfold State.setSession
  try dsimp only
  repeat' first | with_reducible assumption | with_reducible apply State.modMaunvo_keeps | simp only [↓keeps_mk] | intro _ | dsimp only

theorem State.modSession_keeps {u0 : State} (id) (f)
    (h0 : Keeps m l t r u0) :
    Keeps m l t r (State.modSession u0 id f) := by
  unfold State.modSession
  try dsimp only
  repeat' first
      | with_reducible assumption | with_reducible apply State.setSession_keeps | simp only [↓keeps_mk] | with_reducible apply keeps_ite
      | intro _ | split | dsimp only

theorem State.noteRefuse_keeps {u0 : State} (image)
    (h0 : Keeps m l t r u0) :
    Keeps m l t r (State.noteRefuse u0 image) := by
  unfold State.noteRefuse
  try dsimp only
  repeat' first | with_reducible assumption | simp only [↓keeps_mk] | with_reducible apply keeps_ite | intro _ | split | dsimp only

theorem State.pmapWrite_keeps {u0 : State} (image) (who) (reply)
    (h0 : Keeps m l t r u0) :
    Keeps m l t r (State.pmapWrite u0 image who reply).2 := by
  unfold State.pmapWrite
  try dsimp only
  repeat' first
      | with_reducible assumption | with_reducible apply State.noteRefuse_keeps | with_reducible apply State.nvRequest_keeps
      | simp only [↓keeps_mk] | with_reducible apply keeps_ite | intro _ | split | dsimp only

theorem State.lifecycleCmd_keeps {u0 : State} (code) (cmd)
    (h0 : Keeps m l false r u0) :
    Keeps m l false r (State.lifecycleCmd u0 code cmd) := by
  unfold State.lifecycleCmd
  try dsimp only
  repeat' first
      | with_reducible assumption | with_reducible apply State.enterDebugCmd_keeps | with_reducible apply State.releaseCmd_keeps
      | with_reducible apply State.retireCmd_keeps | with_reducible apply State.setSvnCmd_keeps | simp only [↓keeps_mk]
      | with_reducible apply keeps_ite | intro _ | split | dsimp only

theorem State.dbgStore_keeps {u0 : State} (a) (data)
    (h0 : Keeps m l t r u0) :
    Keeps m l t r (State.dbgStore u0 a data) := by
  unfold State.dbgStore
  try dsimp only
  repeat' first
      | with_reducible assumption | with_reducible apply State.putBlock_keeps | with_reducible apply keeps_foldl | intro _
      | with_reducible apply keeps_foldl_snd | dsimp only

theorem State.dbgWrite_keeps {u0 : State} (data) (who)
    (h0 : Keeps m l t r u0) :
    Keeps m l t r (State.dbgWrite u0 data who) := by
  unfold State.dbgWrite
  try dsimp only
  repeat' first
      | with_reducible assumption | with_reducible apply State.dbgStore_keeps | with_reducible apply State.writeControl_keeps
      | with_reducible apply keeps_ite | with_reducible apply keeps_foldl | intro _ | with_reducible apply keeps_foldl_snd | split
      | dsimp only

theorem State.blobWrite_keeps {u0 : State} (index) (sub) (data) (who) (reply)
    (h0 : Keeps m l false r u0) :
    Keeps m l false r (State.blobWrite u0 index sub data who reply).2 := by
  unfold State.blobWrite
  try dsimp only
  repeat' first
      | with_reducible assumption | with_reducible apply State.pmapWrite_keeps | with_reducible apply State.nvRequest_keeps
      | with_reducible apply State.lifecycleCmd_keeps | with_reducible apply State.dbgWrite_keeps
      | with_reducible apply keyDeliveryEffect_keeps | with_reducible apply keeps_ite | intro _ | split | dsimp only

theorem State.storedWrite_keeps {u0 : State} (index) (sub) (v) (who) (reply)
    (h0 : Keeps m l t r u0) :
    Keeps m l t r (State.storedWrite u0 index sub v who reply).2 := by
  unfold State.storedWrite
  try dsimp only
  repeat' first
      | with_reducible assumption | with_reducible apply State.changeOpPoint_keeps | with_reducible apply State.nvRequest_keeps
      | with_reducible apply keeps_ite | intro _ | split | dsimp only

theorem State.putCounter_keeps {u0 : State} (index) (sub) (v) (same)
    (h0 : Keeps m l t r u0) :
    Keeps m l t r (State.putCounter u0 index sub v same) := by
  unfold State.putCounter
  try dsimp only
  repeat' first | with_reducible assumption | simp only [↓keeps_mk] | intro _ | dsimp only

theorem State.control_keeps {u0 : State} (p) (v)
    (h0 : Keeps m l t r u0) :
    Keeps m l t r (State.control u0 p v) := by
  unfold State.control
  try dsimp only
  repeat' first
      | with_reducible assumption | with_reducible apply State.askStart_keeps | with_reducible apply State.raiseStop_keeps
      | with_reducible apply State.askRebind_keeps | with_reducible apply State.rollForward_keeps
      | with_reducible apply State.rollBack_keeps | with_reducible apply State.clearBlocked_keeps | simp only [↓keeps_mk]
      | with_reducible apply keeps_ite | intro _ | split | dsimp only

theorem State.clearPort_keeps {u0 : State} (v)
    (h0 : Keeps m l t r u0) :
    Keeps m l t r (State.clearPort u0 v) := by
  unfold State.clearPort
  try dsimp only
  repeat' first | with_reducible assumption | with_reducible apply State.modPort_keeps | simp only [↓keeps_mk] | intro _ | dsimp only

theorem State.actWrite_keeps {u0 : State} (index) (sub) (v) (reply)
    (h0 : Keeps m l t r u0) :
    Keeps m l t r (State.actWrite u0 index sub v reply).2 := by
  unfold State.actWrite
  try dsimp only
  repeat' first
      | with_reducible assumption | with_reducible apply State.putCounter_keeps | with_reducible apply State.setPrio_keeps
      | with_reducible apply State.control_keeps | with_reducible apply State.askWake_keeps | with_reducible apply clkmonEffect_keeps
      | with_reducible apply State.modTime_keeps | with_reducible apply State.retrain_keeps | with_reducible apply State.clearPort_keeps
      | with_reducible apply retirementClearEffect_keeps | with_reducible apply State.pinWrite_keeps
      | with_reducible apply State.setSetting_keeps | simp only [↓keeps_mk] | with_reducible apply keeps_ite | intro _ | split
      | dsimp only

theorem State.writeEntry_keeps {u0 : State} (index) (sub) (data) (who) (reply)
    (h0 : Keeps m l false r u0) :
    Keeps m l false r (State.writeEntry u0 index sub data who reply).2 := by
  unfold State.writeEntry
  try dsimp only
  repeat' first
      | with_reducible assumption | with_reducible apply State.noteRefuse_keeps | with_reducible apply State.modClk_keeps
      | with_reducible apply State.guarded_keeps | with_reducible apply State.blobWrite_keeps
      | with_reducible apply State.storedWrite_keeps | with_reducible apply State.actWrite_keeps | simp only [↓keeps_mk]
      | with_reducible apply keeps_ite | intro _ | split | dsimp only

theorem State.runWrite_keeps {u0 : State} (id) (reqId) (index) (sub) (data)
    (h0 : Keeps m l false r u0) :
    Keeps m l false r (State.runWrite u0 id reqId index sub data) := by
  unfold State.runWrite
  try dsimp only
  repeat' first
      | with_reducible assumption | with_reducible apply State.writeEntry_keeps | with_reducible apply State.modSession_keeps
      | with_reducible apply State.respond_keeps | simp only [↓keeps_mk] | with_reducible apply keeps_ite | intro _ | split | dsimp only

theorem State.takeWrite_keeps {u0 : State} (id) (reqId) (index) (sub) (data)
    (h0 : Keeps m l false r u0) :
    Keeps m l false r (State.takeWrite u0 id reqId index sub data) := by
  unfold State.takeWrite
  try dsimp only
  repeat' first
      | with_reducible assumption | with_reducible apply State.modSession_keeps | with_reducible apply State.askWake_keeps
      | with_reducible apply State.modMaunvo_keeps | with_reducible apply State.runWrite_keeps | simp only [↓keeps_mk]
      | with_reducible apply keeps_ite | intro _ | split | dsimp only

theorem State.newIdentity_keeps {u0 : State}
    (h0 : Keeps m l t r u0) :
    Keeps m l t r (State.newIdentity u0) := by
  unfold State.newIdentity
  try dsimp only
  repeat' first
      | with_reducible assumption | with_reducible apply State.dropSession_keeps | simp only [↓keeps_mk]
      | with_reducible apply keeps_ite | with_reducible apply keeps_foldl | intro _ | with_reducible apply keeps_foldl_snd | split
      | dsimp only

theorem State.abandonServer_keeps {u0 : State} (p) (k)
    (h0 : Keeps m l t r u0) :
    Keeps m l t r (State.abandonServer u0 p k) := by
  unfold State.abandonServer
  try dsimp only
  repeat' first | with_reducible assumption | with_reducible apply State.modSrv_keeps | simp only [↓keeps_mk] | intro _ | dsimp only

theorem State.applySetting_keeps {u0 : State} (key) (v)
    (h0 : Keeps m l t r u0) :
    Keeps m l t r (State.applySetting u0 key v) := by
  unfold State.applySetting
  try dsimp only
  repeat' first
      | with_reducible assumption | with_reducible apply State.ownerChange_keeps | with_reducible apply State.setSetting_keeps
      | with_reducible apply State.newIdentity_keeps | with_reducible apply State.abandonServer_keeps
      | with_reducible apply State.changeOpPoint_keeps | with_reducible apply State.selectParent_keeps
      | with_reducible apply State.modTime_keeps | simp only [↓keeps_mk] | with_reducible apply keeps_ite | intro _ | split | dsimp only

theorem State.zeroMoved_keeps {u0 : State} {u1 : State}
    (h0 : Keeps m l t r u0) :
    Keeps m l t r (State.zeroMoved u0 u1) := by
  unfold State.zeroMoved
  try dsimp only
  repeat' first
      | with_reducible assumption | with_reducible apply State.dropSession_keeps | with_reducible apply State.zeroOwned_keeps
      | with_reducible apply State.modFabric_keeps | with_reducible apply State.modColl_keeps
      | with_reducible apply State.modGroup_keeps | with_reducible apply State.givePages_keeps
      | with_reducible apply State.modPort_keeps | with_reducible apply (keeps_mk_smem) | simp only [↓keeps_mk]
      | with_reducible apply keeps_foldl | intro _ | with_reducible apply keeps_foldl_snd | dsimp only

theorem State.applyMap_keeps {u0 : State} (a1)
    (h0 : Keeps false l t r u0) :
    Keeps false l t r (State.applyMap u0 a1) := by
  unfold State.applyMap
  dsimp only
  simp only [↓keeps_mk]
  refine keeps_foldl ?_ (fun _ _ h => State.modBind_keeps _ _ h)
  exact (State.zeroMoved_keeps h0).mapOf

theorem State.inForce_keeps {u0 : State} (w) (h0 : Keeps false l false r u0) (hw : ∀ v pk ep, w.v = .lifecycle v pk ep → u0.trust.lifecycle = 1) :
    Keeps false l false r (u0.inForce w) := by
  unfold State.inForce State.modTrust
  split
  · exact keeps_foldl h0 (fun _ _ h => State.applySetting_keeps _ _ h)
  · exact State.applyMap_keeps _ h0
  · rename_i hw'
    split
    · refine State.enterLifecycle_keeps _ h0.upd ?_
      intro hr hf
      have h4 := hr hf
      exact absurd (h4.symm.trans (hw _ _ _ hw')) (by decide)
    · exact h0
  · exact h0

theorem commitEffect_keeps (fails) {u1 : State}
    (h1 : Keeps false l false r u1) :
    Keeps false l false r (commitEffect fails u1) := by
  unfold commitEffect
  dsimp only
  split
  · exact h1
  rename_i w rest hw
  have k1 : Keeps false l false r { u1 with nv := { u1.nv with writes := rest } } := h1.upd
  have kc : ∀ t : State, Keeps false l false r t → Keeps false l false r (if w.ty = 4 then t else t.nvCut w.ty w.inst) :=
    fun t ht => keeps_ite (fun _ => ht) (fun _ => State.nvCut_keeps _ _ ht)
  refine keeps_ite (fun _ => ?_) (fun _ => keeps_ite (fun _ => State.answerLater_keeps _ _ (kc _ k1))
    (fun _ => keeps_ite (fun _ => State.answerLater_keeps _ _ (kc _ k1)) (fun hs => ?_)))
  · split
    · exact State.answerLater_keeps _ _ (kc _ (State.guarded_keeps _ k1 k1))
    · exact k1
  · refine State.answerLater_keeps _ _ (State.inForce_keeps _ (State.nvStore_keeps _ k1) ?_)
    intro v pk ep hv
    simp only [State.stillOk, hv] at hs
    exact ((State.nvStore_keeps (m := true) (l := true) (t := true) _ (Keeps.refl _)).life rfl).1.trans (by simpa using hs : u1.trust.lifecycle = 1)

theorem State.dbgReadBlock_keeps {u0 : State} (a)
    (h0 : Keeps m l t r u0) :
    Keeps m l t r (State.dbgReadBlock u0 a).2 := by
  unfold State.dbgReadBlock
  try dsimp only
  repeat' first
      | with_reducible assumption | with_reducible apply State.noteBlocks_keeps | with_reducible apply State.count_keeps
      | simp only [↓keeps_mk] | with_reducible apply keeps_ite | intro _ | split | dsimp only

theorem State.dbgRead_keeps {u0 : State}
    (h0 : Keeps m l t r u0) :
    Keeps m l t r (State.dbgRead u0).2 := by
  unfold State.dbgRead
  try dsimp only
  repeat' first
      | with_reducible assumption | with_reducible apply State.dbgReadBlock_keeps | with_reducible apply State.readControl_keeps
      | with_reducible apply keeps_ite | with_reducible apply keeps_foldl | intro _ | with_reducible apply keeps_foldl_snd | split
      | dsimp only

theorem dbgReadEffect_keeps {u0 : State}
    (h0 : Keeps m l t r u0) :
    Keeps m l t r (dbgReadEffect u0) := by
  unfold dbgReadEffect
  try dsimp only
  repeat' first
      | with_reducible assumption | with_reducible apply State.dbgRead_keeps | with_reducible apply State.emit_keeps
      | with_reducible apply keeps_ite | intro _ | split | dsimp only

theorem State.setLatch_keeps {u0 : State} (session) (index) (sub) (v)
    (h0 : Keeps m l t r u0) :
    Keeps m l t r (State.setLatch u0 session index sub v) := by
  unfold State.setLatch
  try dsimp only
  repeat' first | with_reducible assumption | simp only [↓keeps_mk] | with_reducible apply keeps_ite | intro _ | split | dsimp only

theorem onMessage_keeps (a0) (act) {u2 : State}
    (h1 : ∀ x0 x1, Keeps m l t r x1 → Keeps m l t r (act x0 x1)) (h2 : Keeps m l t r u2) :
    Keeps m l t r (onMessage a0 act u2) := by
  unfold onMessage
  try dsimp only
  repeat' first
      | with_reducible assumption | with_reducible apply h1 | with_reducible apply State.setSession_keeps | simp only [↓keeps_mk]
      | with_reducible apply keeps_ite | intro _ | split | dsimp only

theorem State.i3cSay_keeps {u0 : State} (st) (data)
    (h0 : Keeps m l t r u0) :
    Keeps m l t r (State.i3cSay u0 st data) := by
  unfold State.i3cSay
  try dsimp only
  repeat' first | with_reducible assumption | with_reducible apply State.emit_keeps | intro _ | dsimp only

theorem checkCrc_keeps (crcOk) (act) {u2 : State}
    (h1 : ∀ x0, Keeps m l t r x0 → Keeps m l t r (act x0)) (h2 : Keeps m l t r u2) :
    Keeps m l t r (checkCrc crcOk act u2) := by
  unfold checkCrc
  try dsimp only
  repeat' first
      | with_reducible assumption | with_reducible apply h1 | with_reducible apply State.i3cSay_keeps | simp only [↓keeps_mk]
      | with_reducible apply keeps_ite | intro _ | split | dsimp only

theorem State.sayStatus_keeps {u0 : State} (id) (a2)
    (h0 : Keeps m l t r u0) :
    Keeps m l t r (State.sayStatus u0 id a2) := by
  unfold State.sayStatus
  try dsimp only
  repeat' first
      | with_reducible assumption | with_reducible apply State.emit_keeps | with_reducible apply State.setSession_keeps
      | simp only [↓keeps_mk] | with_reducible apply keeps_ite | intro _ | split | dsimp only

theorem State.request_keeps {u0 : State} (a1) (x) (index) (sub) (write) (act)
    (h0 : Keeps m l t r u0) (h6 : ∀ x0, Keeps m l t r x0 → Keeps m l t r (act x0)) :
    Keeps m l t r (State.request u0 a1 x index sub write act) := by
  unfold State.request
  try dsimp only
  repeat' first
      | with_reducible assumption | with_reducible apply h6 | with_reducible apply State.sayStatus_keeps
      | with_reducible apply State.respond_keeps | simp only [↓keeps_mk] | with_reducible apply keeps_ite | intro _ | split | dsimp only

theorem flagReadEffect_keeps (session) (index) (sub) {u3 : State}
    (h3 : Keeps m l t r u3) :
    Keeps m l t r (flagReadEffect session index sub u3) := by
  unfold flagReadEffect
  try dsimp only
  repeat' first
      | with_reducible assumption | with_reducible apply State.setLatch_keeps | with_reducible apply State.emit_keeps
      | simp only [↓keeps_mk] | with_reducible apply keeps_ite | intro _ | split | dsimp only

theorem counterReadEffect_keeps (session) (index) (sub) {u3 : State}
    (h3 : Keeps m l t r u3) :
    Keeps m l t r (counterReadEffect session index sub u3) := by
  unfold counterReadEffect
  try dsimp only
  repeat' first
      | with_reducible assumption | with_reducible apply State.emit_keeps | with_reducible apply State.setLatch_keeps
      | simp only [↓keeps_mk] | intro _ | dsimp only

theorem cHelloEffect_keeps (client) (frag) (count) (keyHash) (nonce) {u5 : State}
    (h5 : Keeps m l t r u5) :
    Keeps m l t r (cHelloEffect client frag count keyHash nonce u5) := by
  unfold cHelloEffect
  try dsimp only
  repeat' first
      | with_reducible assumption | with_reducible apply State.modMaunvo_keeps | with_reducible apply State.emit_keeps
      | simp only [↓keeps_mk] | with_reducible apply keeps_ite | intro _ | split | dsimp only

theorem abortEffect_keeps (a0) (target) {u2 : State}
    (h2 : Keeps m l t r u2) :
    Keeps m l t r (abortEffect a0 target u2) := by
  unfold abortEffect
  try dsimp only
  repeat' first
      | with_reducible assumption | with_reducible apply State.modMaunvo_keeps | with_reducible apply State.modSession_keeps
      | with_reducible apply State.respond_keeps | simp only [↓keeps_mk] | with_reducible apply keeps_ite | intro _ | split | dsimp only

theorem State.afterRead_keeps {u0 : State} (session) (index) (sub) (arg)
    (h0 : Keeps m l t r u0) :
    Keeps m l t r (State.afterRead u0 session index sub arg) := by
  unfold State.afterRead
  try dsimp only
  repeat' first
      | with_reducible assumption | with_reducible apply State.setLatch_keeps | with_reducible apply State.reportIssued_keeps
      | with_reducible apply State.modTime_keeps | with_reducible apply State.dbgRead_keeps | simp only [↓keeps_mk]
      | with_reducible apply keeps_ite | intro _ | split | dsimp only

theorem State.readEntry_keeps {u0 : State} (session) (index) (sub) (arg)
    (h0 : Keeps m l t r u0) :
    Keeps m l t r (State.readEntry u0 session index sub arg).2.2 := by
  unfold State.readEntry
  try dsimp only
  repeat' first
      | with_reducible assumption | with_reducible apply State.afterRead_keeps | simp only [↓keeps_mk] | with_reducible apply keeps_ite
      | intro _ | split | dsimp only

theorem State.plainRead_keeps {u0 : State} (session) (index) (sub)
    (h0 : Keeps m l t r u0) :
    Keeps m l t r (State.plainRead u0 session index sub) := by
  unfold State.plainRead
  try dsimp only
  repeat' first
      | with_reducible assumption | with_reducible apply State.readEntry_keeps | with_reducible apply State.emit_keeps
      | with_reducible apply keeps_ite | intro _ | split | dsimp only

theorem gapEffect_keeps (session) (index) (sub) {u3 : State}
    (h3 : Keeps m l t r u3) :
    Keeps m l t r (gapEffect session index sub u3) := by
  unfold gapEffect
  try dsimp only
  repeat' first
      | with_reducible assumption | with_reducible apply State.modSession_keeps | with_reducible apply State.atNs_keeps
      | with_reducible apply State.respond_keeps | simp only [↓keeps_mk] | with_reducible apply keeps_ite | intro _ | split | dsimp only

theorem State.writeSegment_keeps {u0 : State} (id) (reqId) (index) (sub) (offset) (total) (data)
    (h0 : Keeps m l false r u0) :
    Keeps m l false r (State.writeSegment u0 id reqId index sub offset total data) := by
  unfold State.writeSegment
  try dsimp only
  repeat' first
      | with_reducible assumption | with_reducible apply State.respond_keeps | with_reducible apply State.takeWrite_keeps
      | with_reducible apply State.modSession_keeps | simp only [↓keeps_mk] | with_reducible apply keeps_ite | intro _ | split
      | dsimp only

theorem pendingEffect_keeps (session) (reqId) {u2 : State}
    (h2 : Keeps m l t r u2) :
    Keeps m l t r (pendingEffect session reqId u2) := by
  unfold pendingEffect
  try dsimp only
  repeat' first
      | with_reducible assumption | with_reducible apply State.atNs_keeps | with_reducible apply State.modSession_keeps
      | with_reducible apply State.sayStatus_keeps | simp only [↓keeps_mk] | with_reducible apply keeps_ite | intro _ | split
      | dsimp only

theorem resendEffect_keeps (session) {u1 : State}
    (h1 : Keeps m l t r u1) :
    Keeps m l t r (resendEffect session u1) := by
  unfold resendEffect
  try dsimp only
  repeat' first
      | with_reducible assumption | with_reducible apply State.atNs_keeps | with_reducible apply State.modSession_keeps
      | simp only [↓keeps_mk] | with_reducible apply keeps_ite | intro _ | split | dsimp only

theorem i3cReadEffect_keeps (index) (sub) {u2 : State}
    (h2 : Keeps m l t r u2) :
    Keeps m l t r (i3cReadEffect index sub u2) := by
  unfold i3cReadEffect
  try dsimp only
  repeat' first
      | with_reducible assumption | with_reducible apply State.i3cSay_keeps | with_reducible apply State.readEntry_keeps
      | with_reducible apply State.modMaunvo_keeps | simp only [↓keeps_mk] | with_reducible apply keeps_ite | intro _ | split
      | dsimp only

theorem i3cWriteEffect_keeps (index) (sub) (data) {u3 : State}
    (h3 : Keeps m l false r u3) :
    Keeps m l false r (i3cWriteEffect index sub data u3) := by
  unfold i3cWriteEffect
  try dsimp only
  repeat' first
      | with_reducible assumption | with_reducible apply State.i3cSay_keeps | with_reducible apply State.writeEntry_keeps
      | with_reducible apply keeps_ite | intro _ | split | dsimp only

theorem i3cSegmentEffect_keeps (index) (sub) (offset) {u3 : State}
    (h3 : Keeps m l t r u3) :
    Keeps m l t r (i3cSegmentEffect index sub offset u3) := by
  unfold i3cSegmentEffect
  try dsimp only
  repeat' first
      | with_reducible assumption | with_reducible apply State.i3cSay_keeps | simp only [↓keeps_mk] | with_reducible apply keeps_ite
      | intro _ | split | dsimp only

theorem State.readLater_keeps {u0 : State} (id) (reqId) (index) (sub) (offset)
    (h0 : Keeps m l t r u0) :
    Keeps m l t r (State.readLater u0 id reqId index sub offset) := by
  unfold State.readLater
  try dsimp only
  repeat' first
      | with_reducible assumption | with_reducible apply State.respond_keeps | with_reducible apply State.modSession_keeps
      | simp only [↓keeps_mk] | with_reducible apply keeps_ite | intro _ | split | dsimp only

theorem eventAckEffect_keeps (a0) (seq) (x) {u3 : State}
    (h3 : Keeps m l t r u3) :
    Keeps m l t r (eventAckEffect a0 seq x u3) := by
  unfold eventAckEffect
  try dsimp only
  repeat' first
      | with_reducible assumption | with_reducible apply State.emit_keeps | with_reducible apply State.setSession_keeps
      | simp only [↓keeps_mk] | with_reducible apply keeps_ite | intro _ | split | dsimp only

theorem cFinishEffect_keeps (client) (session) (pkHash) (sigOk) {u4 : State}
    (h4 : Keeps m l t r u4) :
    Keeps m l t r (cFinishEffect client session pkHash sigOk u4) := by
  unfold cFinishEffect
  try dsimp only
  repeat' first
      | with_reducible assumption | with_reducible apply State.modMaunvo_keeps | with_reducible apply State.emit_keeps
      | with_reducible apply State.setSession_keeps | simp only [↓keeps_mk] | with_reducible apply keeps_ite | intro _ | split
      | dsimp only

theorem State.readFirst_keeps {u0 : State} (id) (reqId) (index) (sub) (arg)
    (h0 : Keeps m l t r u0) :
    Keeps m l t r (State.readFirst u0 id reqId index sub arg) := by
  unfold State.readFirst
  try dsimp only
  repeat' first
      | with_reducible assumption | with_reducible apply State.readEntry_keeps | with_reducible apply State.respond_keeps
      | with_reducible apply State.modSession_keeps | simp only [↓keeps_mk] | with_reducible apply keeps_ite | intro _ | split
      | dsimp only

theorem State.runDeferred_keeps {u0 : State}
    (h0 : Keeps m l false r u0) :
    Keeps m l false r (State.runDeferred u0) := by
  unfold State.runDeferred
  try dsimp only
  repeat' first
      | with_reducible assumption | with_reducible apply State.runWrite_keeps | with_reducible apply State.modSession_keeps
      | with_reducible apply State.modMaunvo_keeps | simp only [↓keeps_mk] | with_reducible apply keeps_foldl | intro _
      | with_reducible apply keeps_foldl_snd | dsimp only

theorem State.endSession_keeps {u0 : State} (id)
    (h0 : Keeps m l t r u0) :
    Keeps m l t r (State.endSession u0 id) := by
  unfold State.endSession
  try dsimp only
  repeat' first | with_reducible assumption | with_reducible apply State.modMaunvo_keeps | simp only [↓keeps_mk] | intro _ | dsimp only

theorem State.i3cGate_keeps {u0 : State} (cause) (act)
    (h0 : Keeps m l t r u0) (h2 : ∀ x0, Keeps m l t r x0 → Keeps m l t r (act x0)) :
    Keeps m l t r (State.i3cGate u0 cause act) := by
  unfold State.i3cGate
  try dsimp only
  repeat' first | with_reducible assumption | with_reducible apply h2 | with_reducible apply keeps_ite | intro _ | split | dsimp only

theorem pmapApplyEffect_keeps {u0 : State}
    (h0 : Keeps m l t r u0) :
    Keeps m l t r (pmapApplyEffect u0) := by
  unfold pmapApplyEffect
  try dsimp only
  repeat' first
      | with_reducible assumption | with_reducible apply State.atNs_keeps | simp only [↓keeps_mk] | with_reducible apply keeps_ite
      | intro _ | split | dsimp only

theorem State.blobWrite_same {u0 : State} (index sub data who reply) (hx : index = 0x1800 → sub = 6) (h0 : Keeps m l t r u0) :
    Keeps m l t r (u0.blobWrite index sub data who reply).2 := by
  unfold State.blobWrite
  split
  · exact State.pmapWrite_keeps _ _ _ h0
  split
  · exact State.nvRequest_keeps _ _ _ _ _ h0
  split
  · rename_i h1 h2; exact absurd ⟨h2, hx h2⟩ h1
  split
  · exact State.dbgWrite_keeps _ _ h0
  dsimp only
  split
  · exact keyDeliveryEffect_keeps _ _ h0
  · exact h0

theorem State.writeEntry_same {u0 : State} (index sub data who reply) (hx : index = 0x1800 → sub = 6) (h0 : Keeps m l t r u0) :
    Keeps m l t r (u0.writeEntry index sub data who reply).2 := by
  unfold State.writeEntry
  dsimp only
  split
  · dsimp only
    split
    · exact State.noteRefuse_keeps _ h0
    · exact keeps_ite (fun _ => State.modClk_keeps _ h0) (fun _ => h0)
  split
  · exact State.guarded_keeps _ h0 h0
  split
  · exact h0
  split
  · exact State.blobWrite_same _ _ _ _ _ hx h0
  split
  · exact State.storedWrite_keeps _ _ _ _ _ h0
  · exact State.actWrite_keeps _ _ _ _ h0

theorem execI3cReadSegment_keeps (a0) (a1) (a2) (a3) {u4 : State} (h0 : Keeps m l t r u4) {v : State} (h : execI3cReadSegment a0 a1 a2 a3 u4 = .next v) : Keeps m l t r v := by
  unfold execI3cReadSegment at h
  try dsimp only at h
  repeat' split at h
  all_goals first | (simp only [Host.Outcome.next.injEq] at h; subst h) | cases h | skip
  all_goals repeat' first
      | with_reducible assumption | with_reducible apply checkCrc_keeps | with_reducible apply i3cSegmentEffect_keeps
      | with_reducible apply State.i3cGate_keeps | intro _ | dsimp only

theorem execI3cWrite_keeps (a0) (a1) (a2) (a3) {u4 : State} (h0 : Keeps m l false r u4) {v : State} (h : execI3cWrite a0 a1 a2 a3 u4 = .next v) : Keeps m l false r v := by
  unfold execI3cWrite at h
  try dsimp only at h
  repeat' split at h
  all_goals first | (simp only [Host.Outcome.next.injEq] at h; subst h) | cases h | skip
  all_goals repeat' first
      | with_reducible assumption | with_reducible apply checkCrc_keeps | with_reducible apply i3cWriteEffect_keeps
      | with_reducible apply State.i3cGate_keeps | intro _ | dsimp only

theorem execW4WakeComplete_keeps {u0 : State} (h0 : Keeps m l false r u0) {v : State} (h : execW4WakeComplete u0 = .next v) : Keeps m l false r v := by
  unfold execW4WakeComplete at h
  try dsimp only at h
  repeat' split at h
  all_goals first | (simp only [Host.Outcome.next.injEq] at h; subst h) | cases h | skip
  all_goals repeat' first
      | with_reducible assumption | with_reducible apply w4WakeEffect_keeps | with_reducible apply State.runDeferred_keeps
      | with_reducible apply keeps_ite | intro _ | split | dsimp only

theorem execAbort_keeps (a0) (a1) {u2 : State} (h0 : Keeps m l t r u2) {v : State} (h : execAbort a0 a1 u2 = .next v) : Keeps m l t r v := by
  unfold execAbort at h
  try dsimp only at h
  repeat' split at h
  all_goals first | (simp only [Host.Outcome.next.injEq] at h; subst h) | cases h | skip
  all_goals repeat' first
      | with_reducible assumption | with_reducible apply onMessage_keeps | with_reducible apply abortEffect_keeps | intro _ | dsimp only

theorem execPmapApplyComplete_keeps {u0 : State} (h0 : Keeps m l t r u0) {v : State} (h : execPmapApplyComplete u0 = .next v) : Keeps m l t r v := by
  unfold execPmapApplyComplete at h
  try dsimp only at h
  repeat' split at h
  all_goals first | (simp only [Host.Outcome.next.injEq] at h; subst h) | cases h | skip
  all_goals repeat' first | with_reducible assumption | with_reducible apply pmapApplyEffect_keeps | intro _ | dsimp only

theorem execHandshakeTimeout_keeps (a0) {u1 : State} (h0 : Keeps m l t r u1) {v : State} (h : execHandshakeTimeout a0 u1 = .next v) : Keeps m l t r v := by
  unfold execHandshakeTimeout at h
  try dsimp only at h
  repeat' split at h
  all_goals first | (simp only [Host.Outcome.next.injEq] at h; subst h) | cases h | skip
  all_goals repeat' first
      | with_reducible assumption | with_reducible apply State.atNs_keeps | with_reducible apply State.modMaunvo_keeps
      | simp only [↓keeps_mk] | with_reducible apply keeps_ite | intro _ | split | dsimp only

theorem execI3cDynamicAddress_keeps (a0) {u1 : State} (h0 : Keeps m l t r u1) {v : State} (h : execI3cDynamicAddress a0 u1 = .next v) : Keeps m l t r v := by
  unfold execI3cDynamicAddress at h
  try unfold onNumber at h
  try dsimp only at h
  repeat' split at h
  all_goals first | (simp only [Host.Outcome.next.injEq] at h; subst h) | cases h | skip
  all_goals repeat' first
      | with_reducible assumption | with_reducible apply State.modMaunvo_keeps | simp only [↓keeps_mk] | with_reducible apply keeps_ite
      | intro _ | split | dsimp only

theorem execMaunvoRead_keeps (a0) (a1) (a2) (a3) (a4) {u5 : State} (h0 : Keeps m l t r u5) {v : State} (h : execMaunvoRead a0 a1 a2 a3 a4 u5 = .next v) : Keeps m l t r v := by
  unfold execMaunvoRead at h
  try dsimp only at h
  repeat' split at h
  all_goals first | (simp only [Host.Outcome.next.injEq] at h; subst h) | cases h | skip
  all_goals repeat' first
      | with_reducible assumption | with_reducible apply onMessage_keeps | with_reducible apply State.request_keeps
      | with_reducible apply State.readLater_keeps | with_reducible apply State.readFirst_keeps | with_reducible apply keeps_ite
      | intro _ | split | dsimp only

theorem execRwsWrite_keeps (a0) (a1) (a2) (a3) {u4 : State} (h0 : Keeps m l false r u4) {v : State} (h : execRwsWrite a0 a1 a2 a3 u4 = .next v) : Keeps m l false r v := by
  unfold execRwsWrite at h
  try dsimp only at h
  repeat' split at h
  all_goals first | (simp only [Host.Outcome.next.injEq] at h; subst h) | cases h | skip
  all_goals repeat' first | with_reducible assumption | with_reducible apply State.writeEntry_keeps | intro _ | dsimp only

theorem execPmapWrite_keeps (a0) (a1) {u2 : State} (h0 : Keeps m l t r u2) {v : State} (h : execPmapWrite a0 a1 u2 = .next v) :
    Keeps m l t r v := by
  unfold execPmapWrite at h
  simp only [Host.Outcome.next.injEq] at h
  subst h
  exact State.writeEntry_same _ _ _ _ _ (fun hi => by omega) h0

theorem execTorusIdentityWrite_keeps (a0) (a1) (a2) {u3 : State} (h0 : Keeps m l t r u3) {v : State}
    (h : execTorusIdentityWrite a0 a1 a2 u3 = .next v) : Keeps m l t r v := by
  unfold execTorusIdentityWrite at h
  simp only [Host.Outcome.next.injEq] at h
  subst h
  exact State.writeEntry_same _ _ _ _ _ (fun hi => by omega) h0

theorem execSegmentGapTimeout_keeps (a0) (a1) (a2) {u3 : State} (h0 : Keeps m l t r u3) {v : State} (h : execSegmentGapTimeout a0 a1 a2 u3 = .next v) : Keeps m l t r v := by
  unfold execSegmentGapTimeout at h
  try dsimp only at h
  repeat' split at h
  all_goals first | (simp only [Host.Outcome.next.injEq] at h; subst h) | cases h | skip
  all_goals repeat' first | with_reducible assumption | with_reducible apply gapEffect_keeps | intro _ | dsimp only

theorem execDbgWrite_keeps (a0) (a1) {u2 : State} (h0 : Keeps m l t r u2) {v : State} (h : execDbgWrite a0 a1 u2 = .next v) :
    Keeps m l t r v := by
  unfold execDbgWrite at h
  simp only [Host.Outcome.next.injEq] at h
  subst h
  exact State.writeEntry_same _ _ _ _ _ (fun hi => by omega) h0

theorem execCounterRead_keeps (a0) (a1) (a2) {u3 : State} (h0 : Keeps m l t r u3) {v : State} (h : execCounterRead a0 a1 a2 u3 = .next v) : Keeps m l t r v := by
  unfold execCounterRead at h
  try dsimp only at h
  repeat' split at h
  all_goals first | (simp only [Host.Outcome.next.injEq] at h; subst h) | cases h | skip
  all_goals repeat' first
      | with_reducible assumption | with_reducible apply counterReadEffect_keeps | with_reducible apply State.plainRead_keeps
      | with_reducible apply keeps_ite | intro _ | split | dsimp only

theorem execRecordCommit_keeps {u0 : State} (a1) (h0 : Keeps false l false r u0) {v : State} (h : execRecordCommit u0 a1 = .next v) : Keeps false l false r v := by
  unfold execRecordCommit at h
  try dsimp only at h
  repeat' split at h
  all_goals first | (simp only [Host.Outcome.next.injEq] at h; subst h) | cases h | skip
  all_goals repeat' first | with_reducible assumption | with_reducible apply commitEffect_keeps | intro _ | dsimp only

theorem execCounterWrite_keeps (a0) (a1) (a2) (a3) (a4) {u5 : State} (h0 : Keeps m l false r u5) {v : State} (h : execCounterWrite a0 a1 a2 a3 a4 u5 = .next v) : Keeps m l false r v := by
  unfold execCounterWrite at h
  try dsimp only at h
  repeat' split at h
  all_goals first | (simp only [Host.Outcome.next.injEq] at h; subst h) | cases h | skip
  all_goals repeat' first
      | with_reducible assumption | with_reducible apply State.guarded_keeps | with_reducible apply State.putCounter_keeps
      | with_reducible apply State.writeEntry_keeps | with_reducible apply keeps_ite | intro _ | split | dsimp only

theorem execFlagEntryRead_keeps (a0) (a1) (a2) {u3 : State} (h0 : Keeps m l t r u3) {v : State} (h : execFlagEntryRead a0 a1 a2 u3 = .next v) : Keeps m l t r v := by
  unfold execFlagEntryRead at h
  try dsimp only at h
  repeat' split at h
  all_goals first | (simp only [Host.Outcome.next.injEq] at h; subst h) | cases h | skip
  all_goals repeat' first
      | with_reducible assumption | with_reducible apply flagReadEffect_keeps | with_reducible apply State.plainRead_keeps
      | with_reducible apply keeps_ite | intro _ | split | dsimp only

theorem execI3cRead_keeps (a0) (a1) (a2) {u3 : State} (h0 : Keeps m l t r u3) {v : State} (h : execI3cRead a0 a1 a2 u3 = .next v) : Keeps m l t r v := by
  unfold execI3cRead at h
  try dsimp only at h
  repeat' split at h
  all_goals first | (simp only [Host.Outcome.next.injEq] at h; subst h) | cases h | skip
  all_goals repeat' first
      | with_reducible assumption | with_reducible apply checkCrc_keeps | with_reducible apply i3cReadEffect_keeps
      | with_reducible apply State.i3cGate_keeps | intro _ | dsimp only

theorem execCFinish_keeps (a0) (a1) (a2) (a3) {u4 : State} (h0 : Keeps m l t r u4) {v : State} (h : execCFinish a0 a1 a2 a3 u4 = .next v) : Keeps m l t r v := by
  unfold execCFinish at h
  try dsimp only at h
  repeat' split at h
  all_goals first | (simp only [Host.Outcome.next.injEq] at h; subst h) | cases h | skip
  all_goals repeat' first | with_reducible assumption | with_reducible apply cFinishEffect_keeps | intro _ | dsimp only

theorem execIdleTimeout_keeps (a0) {u1 : State} (h0 : Keeps m l t r u1) {v : State} (h : execIdleTimeout a0 u1 = .next v) : Keeps m l t r v := by
  unfold execIdleTimeout at h
  try dsimp only at h
  repeat' split at h
  all_goals first | (simp only [Host.Outcome.next.injEq] at h; subst h) | cases h | skip
  all_goals repeat' first
      | with_reducible assumption | with_reducible apply State.atNs_keeps | with_reducible apply State.endSession_keeps
      | simp only [↓keeps_mk] | with_reducible apply keeps_ite | intro _ | split | dsimp only

theorem execMaunvoWrite_keeps (a0) (a1) (a2) (a3) (a4) (a5) {u6 : State} (h0 : Keeps m l false r u6) {v : State} (h : execMaunvoWrite a0 a1 a2 a3 a4 a5 u6 = .next v) : Keeps m l false r v := by
  unfold execMaunvoWrite at h
  try dsimp only at h
  repeat' split at h
  all_goals first | (simp only [Host.Outcome.next.injEq] at h; subst h) | cases h | skip
  all_goals repeat' first
      | with_reducible assumption | with_reducible apply onMessage_keeps | with_reducible apply State.request_keeps
      | with_reducible apply State.writeSegment_keeps | intro _ | dsimp only

theorem execSnapshotRead_keeps {u0 : State} (h0 : Keeps m l t r u0) {v : State} (h : execSnapshotRead u0 = .next v) : Keeps m l t r v := by
  unfold execSnapshotRead at h
  try dsimp only at h
  repeat' split at h
  all_goals first | (simp only [Host.Outcome.next.injEq] at h; subst h) | cases h | skip
  all_goals repeat' first | with_reducible assumption | with_reducible apply State.emit_keeps | intro _ | dsimp only

theorem execPendingRepeat_keeps (a0) (a1) {u2 : State} (h0 : Keeps m l t r u2) {v : State} (h : execPendingRepeat a0 a1 u2 = .next v) : Keeps m l t r v := by
  unfold execPendingRepeat at h
  try dsimp only at h
  repeat' split at h
  all_goals first | (simp only [Host.Outcome.next.injEq] at h; subst h) | cases h | skip
  all_goals repeat' first | with_reducible assumption | with_reducible apply pendingEffect_keeps | intro _ | dsimp only

theorem execEventResend_keeps (a0) {u1 : State} (h0 : Keeps m l t r u1) {v : State} (h : execEventResend a0 u1 = .next v) : Keeps m l t r v := by
  unfold execEventResend at h
  try dsimp only at h
  repeat' split at h
  all_goals first | (simp only [Host.Outcome.next.injEq] at h; subst h) | cases h | skip
  all_goals repeat' first | with_reducible assumption | with_reducible apply resendEffect_keeps | intro _ | dsimp only

theorem execProbe_keeps (a0) {u1 : State} (h0 : Keeps m l t r u1) {v : State} (h : execProbe a0 u1 = .next v) : Keeps m l t r v := by
  unfold execProbe at h
  try dsimp only at h
  repeat' split at h
  all_goals first | (simp only [Host.Outcome.next.injEq] at h; subst h) | cases h | skip
  all_goals repeat' first
      | with_reducible assumption | with_reducible apply State.emit_keeps | with_reducible apply keeps_ite | intro _ | split
      | dsimp only

theorem execPing_keeps (a0) {u1 : State} (h0 : Keeps m l t r u1) {v : State} (h : execPing a0 u1 = .next v) : Keeps m l t r v := by
  unfold execPing at h
  try dsimp only at h
  repeat' split at h
  all_goals first | (simp only [Host.Outcome.next.injEq] at h; subst h) | cases h | skip
  all_goals repeat' first
      | with_reducible assumption | with_reducible apply State.emit_keeps | with_reducible apply State.setSession_keeps
      | with_reducible apply onMessage_keeps | simp only [↓keeps_mk] | intro _ | dsimp only

theorem execCHello_keeps (a0) (a1) (a2) (a3) (a4) {u5 : State} (h0 : Keeps m l t r u5) {v : State} (h : execCHello a0 a1 a2 a3 a4 u5 = .next v) : Keeps m l t r v := by
  unfold execCHello at h
  try dsimp only at h
  repeat' split at h
  all_goals first | (simp only [Host.Outcome.next.injEq] at h; subst h) | cases h | skip
  all_goals repeat' first | with_reducible assumption | with_reducible apply cHelloEffect_keeps | intro _ | dsimp only

theorem execServerAddressWrite_keeps (a0) (a1) (a2) (a3) {u4 : State} (h0 : Keeps m l false r u4) {v : State} (h : execServerAddressWrite a0 a1 a2 a3 u4 = .next v) : Keeps m l false r v := by
  unfold execServerAddressWrite at h
  try dsimp only at h
  repeat' split at h
  all_goals first | (simp only [Host.Outcome.next.injEq] at h; subst h) | cases h | skip
  all_goals repeat' first | with_reducible assumption | with_reducible apply State.writeEntry_keeps | intro _ | dsimp only

theorem execEventAck_keeps (a0) (a1) {u2 : State} (h0 : Keeps m l t r u2) {v : State} (h : execEventAck a0 a1 u2 = .next v) : Keeps m l t r v := by
  unfold execEventAck at h
  try dsimp only at h
  repeat' split at h
  all_goals first | (simp only [Host.Outcome.next.injEq] at h; subst h) | cases h | skip
  all_goals repeat' first
      | with_reducible assumption | with_reducible apply onMessage_keeps | with_reducible apply eventAckEffect_keeps | intro _
      | dsimp only

theorem execDbgRead_keeps {u0 : State} (h0 : Keeps m l t r u0) {v : State} (h : execDbgRead u0 = .next v) : Keeps m l t r v := by
  unfold execDbgRead at h
  try dsimp only at h
  repeat' split at h
  all_goals first | (simp only [Host.Outcome.next.injEq] at h; subst h) | cases h | skip
  all_goals repeat' first | with_reducible assumption | with_reducible apply dbgReadEffect_keeps | intro _ | dsimp only

theorem execClose_keeps (a0) {u1 : State} (h0 : Keeps m l t r u1) {v : State} (h : execClose a0 u1 = .next v) : Keeps m l t r v := by
  unfold execClose at h
  try dsimp only at h
  repeat' split at h
  all_goals first | (simp only [Host.Outcome.next.injEq] at h; subst h) | cases h | skip
  all_goals repeat' first
      | with_reducible assumption | with_reducible apply onMessage_keeps | with_reducible apply State.endSession_keeps | intro _
      | dsimp only

theorem execSubscribe_keeps (a0) (a1) {u2 : State} (h0 : Keeps m l t r u2) {v : State} (h : execSubscribe a0 a1 u2 = .next v) : Keeps m l t r v := by
  unfold execSubscribe at h
  try dsimp only at h
  repeat' split at h
  all_goals first | (simp only [Host.Outcome.next.injEq] at h; subst h) | cases h | skip
  all_goals repeat' first
      | with_reducible assumption | with_reducible apply State.setSession_keeps | with_reducible apply onMessage_keeps
      | simp only [↓keeps_mk] | intro _ | dsimp only

end Sys2Proof.Machine
end

