-- ==== Sys2Proof/Laws/SameMem.lean ====
section
/-! SUPPORT. What an operation does not touch at all: the relation SameMem between a state and a later one, and how it passes through a
state update and through folds. -/

namespace Sys2Proof.Machine

open Sys2Proof

set_option Elab.async false
set_option linter.unusedSimpArgs false
set_option linter.unusedVariables false

/-- The commands that wait, the three memories and the partition map of a later state are those of an earlier one. -/
structure SameMem (r s : State) : Prop where
  pending : s.pending = r.pending
  pmap : s.pmap = r.pmap
  cmem : s.cmem = r.cmem
  qmem : s.qmem = r.qmem
  smem : s.smem = r.smem

variable {r s : State}

theorem SameMem.refl (s : State) : SameMem s s := ⟨rfl, rfl, rfl, rfl, rfl⟩

theorem SameMem.trans {u : State} (h : SameMem r s) (k : SameMem s u) : SameMem r u :=
  ⟨k.pending.trans h.pending, k.pmap.trans h.pmap, k.cmem.trans h.cmem, k.qmem.trans h.qmem, k.smem.trans h.smem⟩

theorem same_mk {clock clusters parts syncs groups fabric store ctxs ueps idles pmapCtl faults counters dict lease binds boot nv trust ports colls host server torusTime clk power maunvo pins out free} :
    SameMem r (State.mk s.pending clock clusters s.cmem s.qmem parts syncs groups fabric store s.smem ctxs ueps idles s.pmap pmapCtl faults counters dict lease binds boot nv trust ports colls host server torusTime clk power maunvo pins out free) ↔ SameMem r s :=
  ⟨fun h => ⟨h.pending, h.pmap, h.cmem, h.qmem, h.smem⟩, fun h => ⟨h.pending, h.pmap, h.cmem, h.qmem, h.smem⟩⟩

theorem same_ite {c : Prop} [Decidable c] {a b : State} (ha : c → SameMem r a) (hb : ¬c → SameMem r b) :
    SameMem r (if c then a else b) := by split <;> simp_all

theorem same_foldl {α : Type} {f : State → α → State} {xs : List α} (h : SameMem r s)
    (hf : ∀ u x, SameMem r u → SameMem r (f u x)) : SameMem r (xs.foldl f s) := by
  induction xs generalizing s with
  | nil => exact h
  | cons x xs ih => exact ih (hf _ _ h)

theorem same_foldl_snd {α β : Type} {f : β × State → α → β × State} {b : β} {xs : List α} (h : SameMem r s)
    (hf : ∀ a u x, SameMem r u → SameMem r (f (a, u) x).2) : SameMem r (xs.foldl f (b, s)).2 := by
  induction xs generalizing b s with
  | nil => exact h
  | cons x xs ih => exact ih (hf _ _ _ h)

theorem State.emit_same {u0 : State} (o)
    (h0 : SameMem r u0) :
    SameMem r (State.emit u0 o) := by
  unfold State.emit
  try dsimp only
  repeat' first | with_reducible assumption | simp only [↓same_mk] | intro _ | dsimp only

theorem State.say_same {u0 : State} (kind) (value)
    (h0 : SameMem r u0) :
    SameMem r (State.say u0 kind value) := by
  unfold State.say
  try dsimp only
  repeat' first
      | with_reducible assumption | with_reducible apply State.emit_same | with_reducible apply same_ite | intro _ | split | dsimp only

theorem State.count_same {u0 : State} (k) (n)
    (h0 : SameMem r u0) :
    SameMem r (State.count u0 k n) := by
  unfold State.count
  try dsimp only
  repeat' first | with_reducible assumption | simp only [↓same_mk] | intro _ | dsimp only

theorem State.raiseEvent_same {u0 : State} (cls) (index) (sub) (detail)
    (h0 : SameMem r u0) :
    SameMem r (State.raiseEvent u0 cls index sub detail) := by
  unfold State.raiseEvent
  try dsimp only
  repeat' first
      | with_reducible assumption | with_reducible apply State.count_same | simp only [↓same_mk] | with_reducible apply same_ite
      | intro _ | split | dsimp only

theorem State.log_same {u0 : State} (cls) (count) (part) (cause) (action) (element) (detail)
    (h0 : SameMem r u0) :
    SameMem r (State.log u0 cls count part cause action element detail) := by
  unfold State.log
  try dsimp only
  repeat' first
      | with_reducible assumption | with_reducible apply State.say_same | with_reducible apply State.raiseEvent_same
      | simp only [↓same_mk] | with_reducible apply same_ite | intro _ | split | dsimp only

theorem State.nvPut_same {u0 : State} (ty) (a2) (v)
    (h0 : SameMem r u0) :
    SameMem r (State.nvPut u0 ty a2 v) := by
  unfold State.nvPut
  try dsimp only
  repeat' first | with_reducible assumption | simp only [↓same_mk] | intro _ | dsimp only

theorem State.saveGuards_same {u0 : State}
    (h0 : SameMem r u0) :
    SameMem r (State.saveGuards u0) := by
  unfold State.saveGuards
  try dsimp only
  repeat' first
      | with_reducible assumption | with_reducible apply State.nvPut_same | with_reducible apply same_foldl | intro _
      | with_reducible apply same_foldl_snd | dsimp only

theorem State.closeRecord_same {u0 : State} (element) (state) (action)
    (h0 : SameMem r u0) :
    SameMem r (State.closeRecord u0 element state action) := by
  unfold State.closeRecord
  try dsimp only
  repeat' first
      | with_reducible assumption | with_reducible apply State.log_same | with_reducible apply State.saveGuards_same
      | simp only [↓same_mk] | with_reducible apply same_ite | intro _ | split | dsimp only

theorem State.exhaust_same {u0 : State} (ps) (element)
    (h0 : SameMem r u0) :
    SameMem r (State.exhaust u0 ps element) := by
  unfold State.exhaust
  try dsimp only
  repeat' first
      | with_reducible assumption | with_reducible apply State.closeRecord_same | with_reducible apply State.raiseEvent_same
      | simp only [↓same_mk] | with_reducible apply same_ite | intro _ | split | dsimp only

theorem State.modFabric_same {u0 : State} (f)
    (h0 : SameMem r u0) :
    SameMem r (State.modFabric u0 f) := by
  unfold State.modFabric
  try dsimp only
  repeat' first | with_reducible assumption | simp only [↓same_mk] | intro _ | dsimp only

theorem State.advanceIn_same {u0 : State} (n)
    (h0 : SameMem r u0) :
    SameMem r (State.advanceIn u0 n) := by
  unfold State.advanceIn
  try dsimp only
  repeat' first | with_reducible assumption | simp only [↓same_mk] | with_reducible apply same_ite | intro _ | split | dsimp only

theorem State.advance_same {u0 : State} (n)
    (h0 : SameMem r u0) :
    SameMem r (State.advance u0 n) := by
  unfold State.advance
  try dsimp only
  repeat' first
      | with_reducible assumption | with_reducible apply State.advanceIn_same | simp only [↓same_mk] | with_reducible apply same_ite
      | intro _ | split | dsimp only

theorem State.atFab_same {u0 : State} (f)
    (h0 : SameMem r u0) :
    SameMem r (State.atFab u0 f) := by
  unfold State.atFab
  try dsimp only
  repeat' first
      | with_reducible assumption | with_reducible apply State.advance_same | with_reducible apply same_ite | intro _ | split
      | dsimp only

theorem State.modCluster_same {u0 : State} (c) (f)
    (h0 : SameMem r u0) :
    SameMem r (State.modCluster u0 c f) := by
  unfold State.modCluster
  try dsimp only
  repeat' first
      | with_reducible assumption | simp only [↓same_mk] | with_reducible apply same_ite | with_reducible apply same_foldl | intro _
      | with_reducible apply same_foldl_snd | split | dsimp only

theorem State.moveCores_same {u0 : State} (row) (old) (g)
    (h0 : SameMem r u0) :
    SameMem r (State.moveCores u0 row old g) := by
  unfold State.moveCores
  try dsimp only
  repeat' first
      | with_reducible assumption | with_reducible apply State.modCluster_same | simp only [↓same_mk] | with_reducible apply same_ite
      | with_reducible apply same_foldl | intro _ | with_reducible apply same_foldl_snd | split | dsimp only

theorem State.modDomain_same {u0 : State} (d) (f)
    (h0 : SameMem r u0) :
    SameMem r (State.modDomain u0 d f) := by
  unfold State.modDomain
  try dsimp only
  repeat' first
      | with_reducible assumption | simp only [↓same_mk] | with_reducible apply same_ite | with_reducible apply same_foldl | intro _
      | with_reducible apply same_foldl_snd | split | dsimp only

theorem State.modStack_same {u0 : State} (n) (f)
    (h0 : SameMem r u0) :
    SameMem r (State.modStack u0 n f) := by
  unfold State.modStack
  try dsimp only
  repeat' first
      | with_reducible assumption | simp only [↓same_mk] | with_reducible apply same_ite | with_reducible apply same_foldl | intro _
      | with_reducible apply same_foldl_snd | split | dsimp only

theorem State.retireStack_same {u0 : State} (k)
    (h0 : SameMem r u0) :
    SameMem r (State.retireStack u0 k) := by
  unfold State.retireStack
  try dsimp only
  repeat' first | with_reducible assumption | with_reducible apply State.modStack_same | simp only [↓same_mk] | intro _ | dsimp only

theorem State.applyStack_same {u0 : State} (element)
    (h0 : SameMem r u0) :
    SameMem r (State.applyStack u0 element) := by
  unfold State.applyStack
  try dsimp only
  repeat' first
      | with_reducible assumption | with_reducible apply State.closeRecord_same | with_reducible apply State.retireStack_same
      | with_reducible apply State.exhaust_same | simp only [↓same_mk] | with_reducible apply same_ite | intro _ | split | dsimp only

theorem State.modPage_same {u0 : State} (stack) (page) (f)
    (h0 : SameMem r u0) :
    SameMem r (State.modPage u0 stack page f) := by
  unfold State.modPage
  try dsimp only
  repeat' first
      | with_reducible assumption | simp only [↓same_mk] | with_reducible apply same_ite | with_reducible apply same_foldl | intro _
      | with_reducible apply same_foldl_snd | split | dsimp only

theorem State.modPort_same {u0 : State} (n) (f)
    (h0 : SameMem r u0) :
    SameMem r (State.modPort u0 n f) := by
  unfold State.modPort
  try dsimp only
  repeat' first
      | with_reducible assumption | simp only [↓same_mk] | with_reducible apply same_ite | with_reducible apply same_foldl | intro _
      | with_reducible apply same_foldl_snd | split | dsimp only

theorem State.applyPort_same {u0 : State} (p) (element)
    (h0 : SameMem r u0) :
    SameMem r (State.applyPort u0 p element) := by
  unfold State.applyPort
  try dsimp only
  repeat' first
      | with_reducible assumption | with_reducible apply State.closeRecord_same | with_reducible apply State.modPort_same
      | with_reducible apply State.exhaust_same | simp only [↓same_mk] | with_reducible apply same_ite | intro _ | split | dsimp only

theorem State.useSeal_same {u0 : State} (q) (dir) (e)
    (h0 : SameMem r u0) :
    SameMem r (State.useSeal u0 q dir e) := by
  unfold State.useSeal
  try dsimp only
  repeat' first | with_reducible assumption | simp only [↓same_mk] | with_reducible apply same_ite | intro _ | split | dsimp only

theorem State.powerEvent_same {u0 : State} (old)
    (h0 : SameMem r u0) :
    SameMem r (State.powerEvent u0 old) := by
  unfold State.powerEvent
  try dsimp only
  repeat' first
      | with_reducible assumption | with_reducible apply State.raiseEvent_same | with_reducible apply same_ite | intro _ | split
      | dsimp only

theorem State.modBind_same {u0 : State} (p) (f)
    (h0 : SameMem r u0) :
    SameMem r (State.modBind u0 p f) := by
  unfold State.modBind
  try dsimp only
  repeat' first
      | with_reducible assumption | simp only [↓same_mk] | with_reducible apply same_ite | with_reducible apply same_foldl | intro _
      | with_reducible apply same_foldl_snd | split | dsimp only

theorem State.modPart_same {u0 : State} (p) (f)
    (h0 : SameMem r u0) :
    SameMem r (State.modPart u0 p f) := by
  unfold State.modPart
  try dsimp only
  repeat' first
      | with_reducible assumption | simp only [↓same_mk] | with_reducible apply same_ite | with_reducible apply same_foldl | intro _
      | with_reducible apply same_foldl_snd | split | dsimp only

theorem partitionStoppedEffect_same (p) {u1 : State}
    (h1 : SameMem r u1) :
    SameMem r (partitionStoppedEffect p u1) := by
  unfold partitionStoppedEffect
  try dsimp only
  repeat' first
      | with_reducible assumption | with_reducible apply State.modBind_same | with_reducible apply State.modPart_same
      | with_reducible apply State.raiseEvent_same | simp only [↓same_mk] | with_reducible apply same_ite | intro _ | split | dsimp only

theorem State.modHostQ_same {u0 : State} (q) (f)
    (h0 : SameMem r u0) :
    SameMem r (State.modHostQ u0 q f) := by
  unfold State.modHostQ
  try dsimp only
  repeat' first
      | with_reducible assumption | simp only [↓same_mk] | with_reducible apply same_ite | with_reducible apply same_foldl | intro _
      | with_reducible apply same_foldl_snd | split | dsimp only

theorem State.modStore_same {u0 : State} (f)
    (h0 : SameMem r u0) :
    SameMem r (State.modStore u0 f) := by
  unfold State.modStore
  try dsimp only
  repeat' first | with_reducible assumption | simp only [↓same_mk] | intro _ | dsimp only

theorem State.dropJob_same {u0 : State} (q)
    (h0 : SameMem r u0) :
    SameMem r (State.dropJob u0 q) := by
  unfold State.dropJob
  try dsimp only
  repeat' first
      | with_reducible assumption | with_reducible apply State.modStore_same | with_reducible apply State.modHostQ_same
      | with_reducible apply State.modFabric_same | simp only [↓same_mk] | with_reducible apply same_ite | intro _ | split | dsimp only

theorem State.disableQueue_same {u0 : State} (q) (cause)
    (h0 : SameMem r u0) :
    SameMem r (State.disableQueue u0 q cause) := by
  unfold State.disableQueue
  try dsimp only
  repeat' first
      | with_reducible assumption | with_reducible apply State.modHostQ_same | with_reducible apply State.dropJob_same
      | simp only [↓same_mk] | intro _ | dsimp only

theorem State.writeCompletion_same {u0 : State} (q) (status) (moved) (poison) (mixed) (e)
    (h0 : SameMem r u0) :
    SameMem r (State.writeCompletion u0 q status moved poison mixed e) := by
  unfold State.writeCompletion
  try dsimp only
  repeat' first
      | with_reducible assumption | with_reducible apply State.emit_same | with_reducible apply State.disableQueue_same
      | with_reducible apply State.modHostQ_same | simp only [↓same_mk] | with_reducible apply same_ite | intro _ | split | dsimp only

theorem State.disableOwnerQueues_same {u0 : State} (p)
    (h0 : SameMem r u0) :
    SameMem r (State.disableOwnerQueues u0 p) := by
  unfold State.disableOwnerQueues
  try dsimp only
  repeat' first
      | with_reducible assumption | with_reducible apply State.writeCompletion_same | with_reducible apply State.emit_same
      | with_reducible apply State.disableQueue_same | simp only [↓same_mk] | with_reducible apply same_ite
      | with_reducible apply same_foldl | intro _ | with_reducible apply same_foldl_snd | split | dsimp only

theorem State.modCtx_same {u0 : State} (c) (k) (f)
    (h0 : SameMem r u0) :
    SameMem r (State.modCtx u0 c k f) := by
  unfold State.modCtx
  try dsimp only
  repeat' first
      | with_reducible assumption | simp only [↓same_mk] | with_reducible apply same_ite | with_reducible apply same_foldl | intro _
      | with_reducible apply same_foldl_snd | split | dsimp only

theorem State.queueFrame_same {u0 : State} (n) (f)
    (h0 : SameMem r u0) :
    SameMem r (State.queueFrame u0 n f) := by
  unfold State.queueFrame
  try dsimp only
  repeat' first | with_reducible assumption | with_reducible apply State.modPort_same | simp only [↓same_mk] | intro _ | dsimp only

theorem State.enterPort_same {u0 : State} (n) (ctx) (idx) (ws) (frame)
    (h0 : SameMem r u0) :
    SameMem r (State.enterPort u0 n ctx idx ws frame) := by
  unfold State.enterPort
  try dsimp only
  repeat' first
      | with_reducible assumption | with_reducible apply State.modCtx_same | with_reducible apply State.queueFrame_same
      | simp only [↓same_mk] | with_reducible apply same_ite | intro _ | split | dsimp only

theorem State.freeRequest_same {u0 : State} (n) (f)
    (h0 : SameMem r u0) :
    SameMem r (State.freeRequest u0 n f) := by
  unfold State.freeRequest
  try dsimp only
  repeat' first | with_reducible assumption | with_reducible apply State.modPort_same | simp only [↓same_mk] | intro _ | dsimp only

theorem State.raiseStop_same {u0 : State} (p) (why)
    (h0 : SameMem r u0) :
    SameMem r (State.raiseStop u0 p why) := by
  unfold State.raiseStop
  try dsimp only
  repeat' first
      | with_reducible assumption | with_reducible apply State.modPart_same | simp only [↓same_mk] | with_reducible apply same_ite
      | intro _ | split | dsimp only

theorem State.clusterFault_same {u0 : State} (c) (cause) (desc)
    (h0 : SameMem r u0) :
    SameMem r (State.clusterFault u0 c cause desc) := by
  unfold State.clusterFault
  try dsimp only
  repeat' first
      | with_reducible assumption | with_reducible apply State.modCluster_same | with_reducible apply State.log_same
      | with_reducible apply State.raiseStop_same | simp only [↓same_mk] | with_reducible apply same_ite | intro _ | split | dsimp only

theorem State.stageWrite_same {u0 : State} (c) (g)
    (h0 : SameMem r u0) :
    SameMem r (State.stageWrite u0 c g) := by
  unfold State.stageWrite
  try dsimp only
  repeat' first
      | with_reducible assumption | with_reducible apply State.modCluster_same | with_reducible apply State.clusterFault_same
      | simp only [↓same_mk] | with_reducible apply same_ite | intro _ | split | dsimp only

theorem State.serveFrame_same {u0 : State} (n) (f)
    (h0 : SameMem r u0) :
    SameMem r (State.serveFrame u0 n f) := by
  unfold State.serveFrame
  try dsimp only
  repeat' first
      | with_reducible assumption | with_reducible apply State.freeRequest_same | with_reducible apply State.queueFrame_same
      | with_reducible apply State.stageWrite_same | with_reducible apply State.modStore_same | simp only [↓same_mk]
      | with_reducible apply same_ite | intro _ | split | dsimp only

theorem State.modSrv_same {u0 : State} (p) (peer) (f)
    (h0 : SameMem r u0) :
    SameMem r (State.modSrv u0 p peer f) := by
  unfold State.modSrv
  try dsimp only
  repeat' first
      | with_reducible assumption | simp only [↓same_mk] | with_reducible apply same_ite | with_reducible apply same_foldl | intro _
      | with_reducible apply same_foldl_snd | split | dsimp only

theorem handshakeEffect_same (p) (peer) (peerHash) (sigOk) {u4 : State}
    (h4 : SameMem r u4) :
    SameMem r (handshakeEffect p peer peerHash sigOk u4) := by
  unfold handshakeEffect
  try dsimp only
  repeat' first
      | with_reducible assumption | with_reducible apply State.modSrv_same | simp only [↓same_mk] | with_reducible apply same_ite
      | intro _ | split | dsimp only

theorem State.nvRequest_same {u0 : State} (ty) (a2) (v) (core) (reply)
    (h0 : SameMem r u0) :
    SameMem r (State.nvRequest u0 ty a2 v core reply) := by
  unfold State.nvRequest
  try dsimp only
  repeat' first | with_reducible assumption | simp only [↓same_mk] | intro _ | dsimp only

theorem State.mapOutSlot_same {u0 : State} (slot)
    (h0 : SameMem r u0) :
    SameMem r (State.mapOutSlot u0 slot) := by
  unfold State.mapOutSlot
  try dsimp only
  repeat' first
      | with_reducible assumption | with_reducible apply State.moveCores_same | with_reducible apply State.modFabric_same
      | simp only [↓same_mk] | with_reducible apply same_ite | intro _ | split | dsimp only

theorem State.mapOutLane_same {u0 : State} (e)
    (h0 : SameMem r u0) :
    SameMem r (State.mapOutLane u0 e) := by
  unfold State.mapOutLane
  try dsimp only
  repeat' first
      | with_reducible assumption | with_reducible apply State.modFabric_same | simp only [↓same_mk] | with_reducible apply same_ite
      | intro _ | split | dsimp only

theorem State.mapOut_same {u0 : State} (e)
    (h0 : SameMem r u0) :
    SameMem r (State.mapOut u0 e) := by
  unfold State.mapOut
  try dsimp only
  repeat' first
      | with_reducible assumption | with_reducible apply State.mapOutSlot_same | with_reducible apply State.modCluster_same
      | with_reducible apply State.mapOutLane_same | simp only [↓same_mk] | with_reducible apply same_ite
      | with_reducible apply same_foldl | intro _ | with_reducible apply same_foldl_snd | split | dsimp only

theorem State.buildGuards_same {u0 : State} (defects)
    (h0 : SameMem r u0) :
    SameMem r (State.buildGuards u0 defects) := by
  unfold State.buildGuards
  try dsimp only
  repeat' first
      | with_reducible assumption | with_reducible apply State.mapOut_same | with_reducible apply same_foldl | intro _
      | with_reducible apply same_foldl_snd | dsimp only

theorem State.logLost_same {u0 : State} (ty) (a2)
    (h0 : SameMem r u0) :
    SameMem r (State.logLost u0 ty a2) := by
  unfold State.logLost
  try dsimp only
  repeat' first | with_reducible assumption | with_reducible apply State.log_same | intro _ | dsimp only

theorem State.restoreGuards_same {u0 : State} (defects)
    (h0 : SameMem r u0) :
    SameMem r (State.restoreGuards u0 defects) := by
  unfold State.restoreGuards
  try dsimp only
  repeat' first
      | with_reducible assumption | with_reducible apply State.modFabric_same | with_reducible apply State.modCluster_same
      | with_reducible apply State.buildGuards_same | with_reducible apply State.logLost_same | simp only [↓same_mk]
      | with_reducible apply same_ite | with_reducible apply same_foldl | intro _ | with_reducible apply same_foldl_snd | split
      | dsimp only

theorem State.atNs_same {u0 : State} (ns)
    (h0 : SameMem r u0) :
    SameMem r (State.atNs u0 ns) := by
  unfold State.atNs
  try dsimp only
  repeat' first
      | with_reducible assumption | with_reducible apply State.advance_same | with_reducible apply same_ite | intro _ | split
      | dsimp only

theorem State.modServer_same {u0 : State} (f)
    (h0 : SameMem r u0) :
    SameMem r (State.modServer u0 f) := by
  unfold State.modServer
  try dsimp only
  repeat' first | with_reducible assumption | simp only [↓same_mk] | intro _ | dsimp only

theorem stallEffect_same (p) {u1 : State}
    (h1 : SameMem r u1) :
    SameMem r (stallEffect p u1) := by
  unfold stallEffect
  try dsimp only
  repeat' first
      | with_reducible assumption | with_reducible apply State.atNs_same | with_reducible apply State.raiseEvent_same
      | with_reducible apply State.modServer_same | simp only [↓same_mk] | with_reducible apply same_ite | intro _ | split | dsimp only

theorem State.modTime_same {u0 : State} (f)
    (h0 : SameMem r u0) :
    SameMem r (State.modTime u0 f) := by
  unfold State.modTime
  try dsimp only
  repeat' first | with_reducible assumption | simp only [↓same_mk] | intro _ | dsimp only

theorem State.timeEvent_same {u0 : State}
    (h0 : SameMem r u0) :
    SameMem r (State.timeEvent u0) := by
  unfold State.timeEvent
  try dsimp only
  repeat' first | with_reducible assumption | with_reducible apply State.raiseEvent_same | intro _ | dsimp only

theorem State.setHoldover_same {u0 : State} (v)
    (h0 : SameMem r u0) :
    SameMem r (State.setHoldover u0 v) := by
  unfold State.setHoldover
  try dsimp only
  repeat' first
      | with_reducible assumption | with_reducible apply State.modTime_same | with_reducible apply State.timeEvent_same
      | simp only [↓same_mk] | with_reducible apply same_ite | intro _ | split | dsimp only

theorem State.selectParent_same {u0 : State}
    (h0 : SameMem r u0) :
    SameMem r (State.selectParent u0) := by
  unfold State.selectParent
  try dsimp only
  repeat' first
      | with_reducible assumption | with_reducible apply State.modTime_same | with_reducible apply State.setHoldover_same
      | simp only [↓same_mk] | with_reducible apply same_ite | intro _ | split | dsimp only

theorem State.sessionLost_same {u0 : State} (n)
    (h0 : SameMem r u0) :
    SameMem r (State.sessionLost u0 n) := by
  unfold State.sessionLost
  try dsimp only
  repeat' first
      | with_reducible assumption | with_reducible apply State.modCtx_same | with_reducible apply State.modPort_same
      | with_reducible apply State.log_same | with_reducible apply State.selectParent_same | with_reducible apply State.modBind_same
      | simp only [↓same_mk] | with_reducible apply same_ite | with_reducible apply same_foldl | intro _
      | with_reducible apply same_foldl_snd | split | dsimp only

theorem State.dropSession_same {u0 : State} (n)
    (h0 : SameMem r u0) :
    SameMem r (State.dropSession u0 n) := by
  unfold State.dropSession
  try dsimp only
  repeat' first
      | with_reducible assumption | with_reducible apply State.sessionLost_same | with_reducible apply same_ite | intro _ | split
      | dsimp only

theorem State.markElement_same {u0 : State} (element) (part) (cause) (detail)
    (h0 : SameMem r u0) :
    SameMem r (State.markElement u0 element part cause detail) := by
  unfold State.markElement
  try dsimp only
  repeat' first | with_reducible assumption | with_reducible apply State.log_same | simp only [↓same_mk] | intro _ | dsimp only

theorem State.elementEvent_same {u0 : State} (element) (kind) (uncorr) (part) (cause) (action) (detail)
    (h0 : SameMem r u0) :
    SameMem r (State.elementEvent u0 element kind uncorr part cause action detail).1 := by
  unfold State.elementEvent
  try dsimp only
  repeat' first
      | with_reducible assumption | with_reducible apply State.count_same | with_reducible apply State.log_same
      | with_reducible apply State.markElement_same | simp only [↓same_mk] | with_reducible apply same_ite | intro _ | split
      | dsimp only

theorem State.portLost_same {u0 : State} (n)
    (h0 : SameMem r u0) :
    SameMem r (State.portLost u0 n) := by
  unfold State.portLost
  try dsimp only
  repeat' first
      | with_reducible assumption | with_reducible apply State.modPort_same | with_reducible apply State.dropSession_same
      | with_reducible apply State.elementEvent_same | simp only [↓same_mk] | intro _ | dsimp only

theorem State.modMaunvo_same {u0 : State} (f)
    (h0 : SameMem r u0) :
    SameMem r (State.modMaunvo u0 f) := by
  unfold State.modMaunvo
  try dsimp only
  repeat' first | with_reducible assumption | simp only [↓same_mk] | intro _ | dsimp only

theorem State.setSession_same {u0 : State} (id) (x)
    (h0 : SameMem r u0) :
    SameMem r (State.setSession u0 id x) := by
  unfold State.setSession
  try dsimp only
  repeat' first | with_reducible assumption | with_reducible apply State.modMaunvo_same | simp only [↓same_mk] | intro _ | dsimp only

theorem State.modSession_same {u0 : State} (id) (f)
    (h0 : SameMem r u0) :
    SameMem r (State.modSession u0 id f) := by
  unfold State.modSession
  try dsimp only
  repeat' first
      | with_reducible assumption | with_reducible apply State.setSession_same | simp only [↓same_mk] | with_reducible apply same_ite
      | intro _ | split | dsimp only

theorem State.lightPorts_same {u0 : State}
    (h0 : SameMem r u0) :
    SameMem r (State.lightPorts u0) := by
  unfold State.lightPorts
  try dsimp only
  repeat' first
      | with_reducible assumption | simp only [↓same_mk] | with_reducible apply same_ite | with_reducible apply same_foldl | intro _
      | with_reducible apply same_foldl_snd | split | dsimp only

theorem State.askWake_same {u0 : State}
    (h0 : SameMem r u0) :
    SameMem r (State.askWake u0) := by
  unfold State.askWake
  try dsimp only
  repeat' first
      | with_reducible assumption | with_reducible apply State.lightPorts_same | simp only [↓same_mk] | with_reducible apply same_ite
      | intro _ | split | dsimp only

theorem State.noteRefuse_same {u0 : State} (image)
    (h0 : SameMem r u0) :
    SameMem r (State.noteRefuse u0 image) := by
  unfold State.noteRefuse
  try dsimp only
  repeat' first | with_reducible assumption | simp only [↓same_mk] | with_reducible apply same_ite | intro _ | split | dsimp only

theorem State.modClk_same {u0 : State} (f)
    (h0 : SameMem r u0) :
    SameMem r (State.modClk u0 f) := by
  unfold State.modClk
  try dsimp only
  repeat' first | with_reducible assumption | simp only [↓same_mk] | intro _ | dsimp only

theorem State.guarded_same {u0 : State} (w) {u2 : State}
    (h0 : SameMem r u0) (h2 : SameMem r u2) :
    SameMem r (State.guarded u0 w u2) := by
  unfold State.guarded
  try dsimp only
  repeat' first | with_reducible assumption | simp only [↓same_mk] | with_reducible apply same_ite | intro _ | split | dsimp only

theorem State.pmapWrite_same {u0 : State} (image) (who) (reply)
    (h0 : SameMem r u0) :
    SameMem r (State.pmapWrite u0 image who reply).2 := by
  unfold State.pmapWrite
  try dsimp only
  repeat' first
      | with_reducible assumption | with_reducible apply State.noteRefuse_same | with_reducible apply State.nvRequest_same
      | simp only [↓same_mk] | with_reducible apply same_ite | intro _ | split | dsimp only

theorem State.modTrust_same {u0 : State} (f)
    (h0 : SameMem r u0) :
    SameMem r (State.modTrust u0 f) := by
  unfold State.modTrust
  try dsimp only
  repeat' first | with_reducible assumption | simp only [↓same_mk] | intro _ | dsimp only

theorem State.modPinGroup_same {u0 : State} (g) (f)
    (h0 : SameMem r u0) :
    SameMem r (State.modPinGroup u0 g f) := by
  unfold State.modPinGroup
  try dsimp only
  repeat' first
      | with_reducible assumption | simp only [↓same_mk] | with_reducible apply same_ite | with_reducible apply same_foldl | intro _
      | with_reducible apply same_foldl_snd | split | dsimp only

theorem State.enterLifecycle_same {u0 : State} (v)
    (h0 : SameMem r u0) :
    SameMem r (State.enterLifecycle u0 v) := by
  unfold State.enterLifecycle
  try dsimp only
  repeat' first
      | with_reducible assumption | with_reducible apply State.modPinGroup_same | with_reducible apply State.modTrust_same
      | with_reducible apply State.raiseEvent_same | with_reducible apply State.nvPut_same | simp only [↓same_mk]
      | with_reducible apply same_ite | intro _ | split | dsimp only

theorem State.resetTest_same {u0 : State}
    (h0 : SameMem r u0) :
    SameMem r (State.resetTest u0) := by
  unfold State.resetTest
  try dsimp only
  repeat' first | with_reducible assumption | simp only [↓same_mk] | intro _ | dsimp only

theorem State.overClusters_same {u0 : State} (p) (f)
    (h0 : SameMem r u0) (h2 : ∀ x0 x1, SameMem r x0 → SameMem r (f x0 x1)) :
    SameMem r (State.overClusters u0 p f) := by
  unfold State.overClusters
  try dsimp only
  repeat' first
      | with_reducible assumption | with_reducible apply h2 | with_reducible apply same_foldl | intro _
      | with_reducible apply same_foldl_snd | dsimp only

theorem State.asOf_same {u0 : State} (fab) (f)
    (h0 : SameMem r u0) (h2 : ∀ x0, SameMem r x0 → SameMem r (f x0)) :
    SameMem r (State.asOf u0 fab f) := by
  unfold State.asOf
  try dsimp only
  repeat' first | with_reducible assumption | with_reducible apply h2 | simp only [↓same_mk] | intro _ | dsimp only

theorem foldOps_same (ops) (i) (f) {u3 : State}
    (h2 : ∀ x0 x1 x2, SameMem r x0 → SameMem r (f x0 x1 x2)) (h3 : SameMem r u3) :
    SameMem r (foldOps ops i f u3) := by
  induction ops generalizing i u3 with
  | nil => exact h3
  | cons o os ih => exact ih _ (h2 _ _ _ h3)

theorem State.noteRead_same {u0 : State} (c) (w)
    (h0 : SameMem r u0) :
    SameMem r (State.noteRead u0 c w) := by
  unfold State.noteRead
  try dsimp only
  repeat' first
      | with_reducible assumption | with_reducible apply State.modCluster_same | with_reducible apply State.count_same
      | with_reducible apply State.elementEvent_same | simp only [↓same_mk] | with_reducible apply same_ite | intro _ | split
      | dsimp only

theorem State.readWords_same {u0 : State} (c) (ws)
    (h0 : SameMem r u0) :
    SameMem r (State.readWords u0 c ws).2 := by
  unfold State.readWords
  try dsimp only
  repeat' first
      | with_reducible assumption | with_reducible apply State.noteRead_same | simp only [↓same_mk] | with_reducible apply same_foldl
      | intro _ | with_reducible apply same_foldl_snd | dsimp only

theorem State.takeBanks_same {u0 : State} (c) (ws)
    (h0 : SameMem r u0) :
    SameMem r (State.takeBanks u0 c ws) := by
  unfold State.takeBanks
  try dsimp only
  repeat' first
      | with_reducible assumption | with_reducible apply State.modCluster_same | simp only [↓same_mk] | with_reducible apply same_ite
      | intro _ | split | dsimp only

theorem State.modCirc_same {u0 : State} (c) (a2) (f)
    (h0 : SameMem r u0) :
    SameMem r (State.modCirc u0 c a2 f) := by
  unfold State.modCirc
  try dsimp only
  repeat' first | with_reducible assumption | with_reducible apply State.modCluster_same | simp only [↓same_mk] | intro _ | dsimp only

theorem State.circRead_same {u0 : State} (c) (a2) (n) (sel)
    (h0 : SameMem r u0) :
    SameMem r (State.circRead u0 c a2 n sel).2 := by
  unfold State.circRead
  try dsimp only
  repeat' first
      | with_reducible assumption | with_reducible apply State.readWords_same | with_reducible apply State.modCirc_same
      | simp only [↓same_mk] | intro _ | dsimp only

theorem State.testRead_same {u0 : State} (c) (a2) (n)
    (h0 : SameMem r u0) :
    SameMem r (State.testRead u0 c a2 n) := by
  unfold State.testRead
  try dsimp only
  repeat' first | with_reducible assumption | with_reducible apply State.modCirc_same | intro _ | dsimp only

theorem State.clusterFaultIn_same {u0 : State} (c) (cause) (desc) (delay)
    (h0 : SameMem r u0) :
    SameMem r (State.clusterFaultIn u0 c cause desc delay) := by
  unfold State.clusterFaultIn
  try dsimp only
  repeat' first
      | with_reducible assumption | with_reducible apply State.asOf_same | with_reducible apply State.clusterFault_same | intro _
      | dsimp only

theorem State.circFault_same {u0 : State} (c) (a2) (cause) (desc)
    (h0 : SameMem r u0) :
    SameMem r (State.circFault u0 c a2 cause desc) := by
  unfold State.circFault
  try dsimp only
  repeat' first
      | with_reducible assumption | with_reducible apply State.clusterFaultIn_same | with_reducible apply State.modCluster_same
      | simp only [↓same_mk] | intro _ | dsimp only

theorem State.bankConflict_same {u0 : State} (c) (desc) (delay)
    (h0 : SameMem r u0) :
    SameMem r (State.bankConflict u0 c desc delay) := by
  unfold State.bankConflict
  try dsimp only
  repeat' first
      | with_reducible assumption | with_reducible apply State.clusterFaultIn_same | with_reducible apply State.modCluster_same
      | simp only [↓same_mk] | intro _ | dsimp only

theorem State.xbarEvent_same {u0 : State} (c) (cause) (action)
    (h0 : SameMem r u0) :
    SameMem r (State.xbarEvent u0 c cause action) := by
  unfold State.xbarEvent
  try dsimp only
  repeat' first
      | with_reducible assumption | with_reducible apply State.count_same | with_reducible apply State.elementEvent_same | intro _
      | dsimp only

theorem State.befallRead_same {u0 : State} (c) (o) (slot) (off) (delay) (vs)
    (h0 : SameMem r u0) :
    SameMem r (State.befallRead u0 c o slot off delay vs).2 := by
  unfold State.befallRead
  try dsimp only
  repeat' first
      | with_reducible assumption | with_reducible apply State.bankConflict_same | with_reducible apply State.xbarEvent_same
      | simp only [↓same_mk] | with_reducible apply same_ite | intro _ | split | dsimp only

theorem State.modOpAt_same {u0 : State} (c) (i) (f)
    (h0 : SameMem r u0) :
    SameMem r (State.modOpAt u0 c i f) := by
  unfold State.modOpAt
  try dsimp only
  repeat' first | with_reducible assumption | with_reducible apply State.modCluster_same | simp only [↓same_mk] | intro _ | dsimp only

theorem State.doRead_same {u0 : State} (c) (i) (o) (b) (ok)
    (h0 : SameMem r u0) :
    SameMem r (State.doRead u0 c i o b ok) := by
  unfold State.doRead
  try dsimp only
  repeat' first
      | with_reducible assumption | with_reducible apply State.readWords_same | with_reducible apply State.takeBanks_same
      | with_reducible apply State.circRead_same | with_reducible apply State.testRead_same | with_reducible apply State.circFault_same
      | with_reducible apply State.befallRead_same | with_reducible apply State.modOpAt_same | simp only [↓same_mk]
      | with_reducible apply same_ite | intro _ | split | dsimp only

theorem State.takeFree_same {u0 : State} (n)
    (h0 : SameMem r u0) :
    SameMem r (State.takeFree u0 n) := by
  unfold State.takeFree
  try dsimp only
  repeat' first | with_reducible assumption | simp only [↓same_mk] | intro _ | dsimp only

theorem State.form_same {u0 : State} (c) (i) (o)
    (h0 : SameMem r u0) :
    SameMem r (State.form u0 c i o) := by
  unfold State.form
  try dsimp only
  repeat' first
      | with_reducible assumption | with_reducible apply State.takeFree_same | with_reducible apply State.modOpAt_same
      | with_reducible apply State.modCluster_same | simp only [↓same_mk] | with_reducible apply same_ite | intro _ | split | dsimp only

theorem State.engineError_same {u0 : State} (c) (o)
    (h0 : SameMem r u0) :
    SameMem r (State.engineError u0 c o) := by
  unfold State.engineError
  try dsimp only
  repeat' first
      | with_reducible assumption | with_reducible apply State.modCluster_same | with_reducible apply State.count_same
      | with_reducible apply State.elementEvent_same | with_reducible apply State.clusterFault_same | simp only [↓same_mk]
      | with_reducible apply same_ite | intro _ | split | dsimp only

theorem State.befallWrite_same {u0 : State} (c) (o) (b) (delay)
    (h0 : SameMem r u0) :
    SameMem r (State.befallWrite u0 c o b delay) := by
  unfold State.befallWrite
  try dsimp only
  repeat' first
      | with_reducible assumption | with_reducible apply State.bankConflict_same | with_reducible apply State.clusterFaultIn_same
      | with_reducible apply State.xbarEvent_same | simp only [↓same_mk] | with_reducible apply same_ite | intro _ | split | dsimp only

theorem State.headPast_same {u0 : State} (c) (a2) (n)
    (h0 : SameMem r u0) :
    SameMem r (State.headPast u0 c a2 n) := by
  unfold State.headPast
  try dsimp only
  repeat' first | with_reducible assumption | with_reducible apply State.modCirc_same | simp only [↓same_mk] | intro _ | dsimp only

theorem State.testWrite_same {u0 : State} (c) (a2) (n)
    (h0 : SameMem r u0) :
    SameMem r (State.testWrite u0 c a2 n) := by
  unfold State.testWrite
  try dsimp only
  repeat' first | with_reducible assumption | with_reducible apply State.modCirc_same | simp only [↓same_mk] | intro _ | dsimp only

theorem State.doWrite_same {u0 : State} (c) (o) (b) (ok) (acc)
    (h0 : SameMem r u0) :
    SameMem r (State.doWrite u0 c o b ok acc).1 := by
  unfold State.doWrite
  try dsimp only
  repeat' first
      | with_reducible assumption | with_reducible apply State.befallWrite_same | with_reducible apply State.takeFree_same
      | with_reducible apply State.headPast_same | with_reducible apply State.testWrite_same | with_reducible apply State.circFault_same
      | simp only [↓same_mk] | with_reducible apply same_ite | intro _ | split | dsimp only

theorem State.modIdle_same {u0 : State} (p) (f)
    (h0 : SameMem r u0) :
    SameMem r (State.modIdle u0 p f) := by
  unfold State.modIdle
  try dsimp only
  repeat' first
      | with_reducible assumption | simp only [↓same_mk] | with_reducible apply same_ite | with_reducible apply same_foldl | intro _
      | with_reducible apply same_foldl_snd | split | dsimp only

theorem State.endWait_same {u0 : State} (c) (why)
    (h0 : SameMem r u0) :
    SameMem r (State.endWait u0 c why) := by
  unfold State.endWait
  try dsimp only
  repeat' first
      | with_reducible assumption | with_reducible apply State.modIdle_same | simp only [↓same_mk] | with_reducible apply same_ite
      | intro _ | split | dsimp only

theorem State.eachCluster_same {u0 : State} (p) (f)
    (h0 : SameMem r u0) :
    SameMem r (State.eachCluster u0 p f) := by
  unfold State.eachCluster
  try dsimp only
  repeat' first | with_reducible assumption | simp only [↓same_mk] | with_reducible apply same_ite | intro _ | split | dsimp only

theorem State.eachCtx_same {u0 : State} (p) (f)
    (h0 : SameMem r u0) :
    SameMem r (State.eachCtx u0 p f) := by
  unfold State.eachCtx
  try dsimp only
  repeat' first | with_reducible assumption | simp only [↓same_mk] | with_reducible apply same_ite | intro _ | split | dsimp only

theorem State.settleFlit_same {u0 : State} (p) (x)
    (h0 : SameMem r u0) :
    SameMem r (State.settleFlit u0 p x) := by
  unfold State.settleFlit
  try dsimp only
  repeat' first
      | with_reducible assumption | with_reducible apply State.modCtx_same | with_reducible apply State.modStore_same
      | with_reducible apply State.queueFrame_same | with_reducible apply State.stageWrite_same | simp only [↓same_mk]
      | with_reducible apply same_ite | intro _ | split | dsimp only

theorem State.settleElastic_same {u0 : State} (p)
    (h0 : SameMem r u0) :
    SameMem r (State.settleElastic u0 p) := by
  unfold State.settleElastic
  try dsimp only
  repeat' first
      | with_reducible assumption | with_reducible apply State.modFabric_same | with_reducible apply State.settleFlit_same
      | simp only [↓same_mk] | with_reducible apply same_foldl | intro _ | with_reducible apply same_foldl_snd | dsimp only

theorem State.modOwner_same {u0 : State} (p) (f)
    (h0 : SameMem r u0) :
    SameMem r (State.modOwner u0 p f) := by
  unfold State.modOwner
  try dsimp only
  repeat' first
      | with_reducible assumption | simp only [↓same_mk] | with_reducible apply same_ite | with_reducible apply same_foldl | intro _
      | with_reducible apply same_foldl_snd | split | dsimp only

theorem State.nvErase_same {u0 : State} (ty) (a2)
    (h0 : SameMem r u0) :
    SameMem r (State.nvErase u0 ty a2) := by
  unfold State.nvErase
  try dsimp only
  repeat' first | with_reducible assumption | simp only [↓same_mk] | intro _ | dsimp only

theorem State.modSync_same {u0 : State} (o) (f)
    (h0 : SameMem r u0) :
    SameMem r (State.modSync u0 o f) := by
  unfold State.modSync
  try dsimp only
  repeat' first
      | with_reducible assumption | simp only [↓same_mk] | with_reducible apply same_ite | with_reducible apply same_foldl | intro _
      | with_reducible apply same_foldl_snd | split | dsimp only

theorem State.modColl_same {u0 : State} (g) (f)
    (h0 : SameMem r u0) :
    SameMem r (State.modColl u0 g f) := by
  unfold State.modColl
  try dsimp only
  repeat' first
      | with_reducible assumption | simp only [↓same_mk] | with_reducible apply same_ite | with_reducible apply same_foldl | intro _
      | with_reducible apply same_foldl_snd | split | dsimp only

theorem State.modGroup_same {u0 : State} (g) (f)
    (h0 : SameMem r u0) :
    SameMem r (State.modGroup u0 g f) := by
  unfold State.modGroup
  try dsimp only
  repeat' first
      | with_reducible assumption | simp only [↓same_mk] | with_reducible apply same_ite | with_reducible apply same_foldl | intro _
      | with_reducible apply same_foldl_snd | split | dsimp only

theorem State.releaseStacks_same {u0 : State}
    (h0 : SameMem r u0) :
    SameMem r (State.releaseStacks u0) := by
  unfold State.releaseStacks
  try dsimp only
  repeat' first
      | with_reducible assumption | with_reducible apply State.applyStack_same | with_reducible apply same_ite
      | with_reducible apply same_foldl | intro _ | with_reducible apply same_foldl_snd | split | dsimp only

theorem ownerZeroedEffect_same (p) {u1 : State}
    (h1 : SameMem r u1) :
    SameMem r (ownerZeroedEffect p u1) := by
  unfold ownerZeroedEffect
  try dsimp only
  repeat' first
      | with_reducible assumption | with_reducible apply State.atNs_same | with_reducible apply State.modOwner_same
      | simp only [↓same_mk] | with_reducible apply same_ite | intro _ | split | dsimp only

theorem State.lightsOut_same {u0 : State}
    (h0 : SameMem r u0) :
    SameMem r (State.lightsOut u0) := by
  unfold State.lightsOut
  try dsimp only
  repeat' first
      | with_reducible assumption | with_reducible apply State.dropSession_same | simp only [↓same_mk] | with_reducible apply same_ite
      | with_reducible apply same_foldl | intro _ | with_reducible apply same_foldl_snd | split | dsimp only

theorem State.writeStore_same {u0 : State} (stack) (off) (v) (hw) (who)
    (h0 : SameMem r u0) :
    SameMem r (State.writeStore u0 stack off v hw who) := by
  unfold State.writeStore
  try dsimp only
  repeat' first
      | with_reducible assumption | with_reducible apply State.modPage_same | with_reducible apply State.modStore_same
      | with_reducible apply State.modStack_same | simp only [↓same_mk] | with_reducible apply same_ite | intro _ | split | dsimp only

theorem setEntry_same (c) (a1) (slot) (v) {u4 : State}
    (h4 : SameMem r u4) :
    SameMem r (setEntry c a1 slot v u4) := by
  unfold setEntry
  try dsimp only
  repeat' first | with_reducible assumption | with_reducible apply State.modFabric_same | simp only [↓same_mk] | intro _ | dsimp only

theorem fabricWriteEffect_same (addr) (v) (who) {u3 : State}
    (h3 : SameMem r u3) :
    SameMem r (fabricWriteEffect addr v who u3) := by
  unfold fabricWriteEffect
  try dsimp only
  repeat' first
      | with_reducible assumption | with_reducible apply setEntry_same | with_reducible apply State.modSync_same
      | with_reducible apply State.modGroup_same | simp only [↓same_mk] | with_reducible apply same_ite | intro _ | split | dsimp only

theorem State.cfgRefused_same {u0 : State} (c)
    (h0 : SameMem r u0) :
    SameMem r (State.cfgRefused u0 c) := by
  unfold State.cfgRefused
  try dsimp only
  repeat' first | with_reducible assumption | with_reducible apply State.modCluster_same | simp only [↓same_mk] | intro _ | dsimp only

theorem flipWriteEffect_same (c) (which) (v) (who) {u4 : State}
    (h4 : SameMem r u4) :
    SameMem r (flipWriteEffect c which v who u4) := by
  unfold flipWriteEffect
  try dsimp only
  repeat' first
      | with_reducible assumption | with_reducible apply State.cfgRefused_same | with_reducible apply State.modCluster_same
      | simp only [↓same_mk] | with_reducible apply same_ite | intro _ | split | dsimp only

theorem circWriteEffect_same (c) (a1) (which) (v) (who) {u5 : State}
    (h5 : SameMem r u5) :
    SameMem r (circWriteEffect c a1 which v who u5) := by
  unfold circWriteEffect
  try dsimp only
  repeat' first
      | with_reducible assumption | with_reducible apply State.cfgRefused_same | with_reducible apply State.modCirc_same
      | simp only [↓same_mk] | with_reducible apply same_ite | intro _ | split | dsimp only

theorem resWriteEffect_same (c) (n) (which) (v) (who) {u5 : State}
    (h5 : SameMem r u5) :
    SameMem r (resWriteEffect c n which v who u5) := by
  unfold resWriteEffect
  try dsimp only
  repeat' first
      | with_reducible assumption | with_reducible apply State.cfgRefused_same | with_reducible apply State.modCluster_same
      | simp only [↓same_mk] | with_reducible apply same_ite | intro _ | split | dsimp only

theorem State.writePort_same {u0 : State} (n) (off) (v) (who)
    (h0 : SameMem r u0) :
    SameMem r (State.writePort u0 n off v who) := by
  unfold State.writePort
  try dsimp only
  repeat' first
      | with_reducible assumption | with_reducible apply State.modPort_same | simp only [↓same_mk] | with_reducible apply same_ite
      | intro _ | split | dsimp only

theorem State.beginSession_same {u0 : State} (n)
    (h0 : SameMem r u0) :
    SameMem r (State.beginSession u0 n) := by
  unfold State.beginSession
  try dsimp only
  repeat' first
      | with_reducible assumption | with_reducible apply State.emit_same | with_reducible apply State.modPort_same
      | simp only [↓same_mk] | intro _ | dsimp only

theorem State.holdKey_same {u0 : State} (p) (key)
    (h0 : SameMem r u0) :
    SameMem r (State.holdKey u0 p key) := by
  unfold State.holdKey
  try dsimp only
  repeat' first
      | with_reducible assumption | with_reducible apply State.modOwner_same | with_reducible apply State.beginSession_same
      | simp only [↓same_mk] | with_reducible apply same_foldl | intro _ | with_reducible apply same_foldl_snd | dsimp only

theorem keyDeliveryEffect_same (p) (d) {u2 : State}
    (h2 : SameMem r u2) :
    SameMem r (keyDeliveryEffect p d u2) := by
  unfold keyDeliveryEffect
  try dsimp only
  repeat' first
      | with_reducible assumption | with_reducible apply State.holdKey_same | with_reducible apply State.nvRequest_same
      | with_reducible apply State.modOwner_same | simp only [↓same_mk] | with_reducible apply same_ite | intro _ | split | dsimp only

theorem State.modPower_same {u0 : State} (f)
    (h0 : SameMem r u0) :
    SameMem r (State.modPower u0 f) := by
  unfold State.modPower
  try dsimp only
  repeat' first | with_reducible assumption | simp only [↓same_mk] | intro _ | dsimp only

theorem State.beginRelock_same {u0 : State} (op)
    (h0 : SameMem r u0) :
    SameMem r (State.beginRelock u0 op) := by
  unfold State.beginRelock
  try dsimp only
  repeat' first
      | with_reducible assumption | with_reducible apply State.advance_same | with_reducible apply State.modClk_same
      | simp only [↓same_mk] | intro _ | dsimp only

theorem State.changeOpPoint_same {u0 : State} (op)
    (h0 : SameMem r u0) :
    SameMem r (State.changeOpPoint u0 op) := by
  unfold State.changeOpPoint
  try dsimp only
  repeat' first
      | with_reducible assumption | with_reducible apply State.modPower_same | with_reducible apply State.beginRelock_same
      | simp only [↓same_mk] | with_reducible apply same_ite | intro _ | split | dsimp only

theorem State.storedWrite_same {u0 : State} (index) (sub) (v) (who) (reply)
    (h0 : SameMem r u0) :
    SameMem r (State.storedWrite u0 index sub v who reply).2 := by
  unfold State.storedWrite
  try dsimp only
  repeat' first
      | with_reducible assumption | with_reducible apply State.changeOpPoint_same | with_reducible apply State.nvRequest_same
      | with_reducible apply same_ite | intro _ | split | dsimp only

theorem State.putCounter_same {u0 : State} (index) (sub) (v) (same)
    (h0 : SameMem r u0) :
    SameMem r (State.putCounter u0 index sub v same) := by
  unfold State.putCounter
  try dsimp only
  repeat' first | with_reducible assumption | simp only [↓same_mk] | intro _ | dsimp only

theorem State.setSetting_same {u0 : State} (index) (sub) (v)
    (h0 : SameMem r u0) :
    SameMem r (State.setSetting u0 index sub v) := by
  unfold State.setSetting
  try dsimp only
  repeat' first
      | with_reducible assumption | simp only [↓same_mk] | with_reducible apply same_ite | with_reducible apply same_foldl | intro _
      | with_reducible apply same_foldl_snd | split | dsimp only

theorem State.setPrio_same {u0 : State} (p) (v)
    (h0 : SameMem r u0) :
    SameMem r (State.setPrio u0 p v) := by
  unfold State.setPrio
  try dsimp only
  repeat' first
      | with_reducible assumption | with_reducible apply State.modStore_same | with_reducible apply State.setSetting_same
      | simp only [↓same_mk] | with_reducible apply same_ite | with_reducible apply same_foldl | intro _
      | with_reducible apply same_foldl_snd | split | dsimp only

theorem State.modWake_same {u0 : State} (p) (f)
    (h0 : SameMem r u0) :
    SameMem r (State.modWake u0 p f) := by
  unfold State.modWake
  try dsimp only
  repeat' first
      | with_reducible assumption | simp only [↓same_mk] | with_reducible apply same_ite | with_reducible apply same_foldl | intro _
      | with_reducible apply same_foldl_snd | split | dsimp only

theorem State.wakeUp_same {u0 : State} (p)
    (h0 : SameMem r u0) :
    SameMem r (State.wakeUp u0 p) := by
  unfold State.wakeUp
  try dsimp only
  repeat' first
      | with_reducible assumption | with_reducible apply State.modWake_same | simp only [↓same_mk] | with_reducible apply same_ite
      | intro _ | split | dsimp only

theorem State.raiseStart_same {u0 : State} (p)
    (h0 : SameMem r u0) :
    SameMem r (State.raiseStart u0 p) := by
  unfold State.raiseStart
  try dsimp only
  repeat' first
      | with_reducible assumption | with_reducible apply State.wakeUp_same | with_reducible apply State.modPart_same
      | simp only [↓same_mk] | intro _ | dsimp only

theorem State.askStart_same {u0 : State} (p)
    (h0 : SameMem r u0) :
    SameMem r (State.askStart u0 p) := by
  unfold State.askStart
  try dsimp only
  repeat' first
      | with_reducible assumption | with_reducible apply State.raiseStart_same | with_reducible apply same_ite | intro _ | split
      | dsimp only

theorem State.askRebind_same {u0 : State} (p)
    (h0 : SameMem r u0) :
    SameMem r (State.askRebind u0 p) := by
  unfold State.askRebind
  try dsimp only
  repeat' first
      | with_reducible assumption | with_reducible apply State.modBind_same | simp only [↓same_mk] | with_reducible apply same_ite
      | intro _ | split | dsimp only

theorem State.eachUep_same {u0 : State} (p) (f)
    (h0 : SameMem r u0) :
    SameMem r (State.eachUep u0 p f) := by
  unfold State.eachUep
  try dsimp only
  repeat' first | with_reducible assumption | simp only [↓same_mk] | with_reducible apply same_ite | intro _ | split | dsimp only

theorem State.modUep_same {u0 : State} (stack) (p) (f)
    (h0 : SameMem r u0) :
    SameMem r (State.modUep u0 stack p f) := by
  unfold State.modUep
  try dsimp only
  repeat' first
      | with_reducible assumption | simp only [↓same_mk] | with_reducible apply same_ite | with_reducible apply same_foldl | intro _
      | with_reducible apply same_foldl_snd | split | dsimp only

theorem State.setUeFlags_same {u0 : State} (stack) (b)
    (h0 : SameMem r u0) :
    SameMem r (State.setUeFlags u0 stack b) := by
  unfold State.setUeFlags
  try dsimp only
  repeat' first | with_reducible assumption | with_reducible apply State.modStack_same | simp only [↓same_mk] | intro _ | dsimp only

theorem State.beginSteps_same {u0 : State} (p) (go)
    (h0 : SameMem r u0) :
    SameMem r (State.beginSteps u0 p go) := by
  unfold State.beginSteps
  try dsimp only
  repeat' first
      | with_reducible assumption | with_reducible apply State.modUep_same | with_reducible apply State.setUeFlags_same
      | with_reducible apply same_foldl | intro _ | with_reducible apply same_foldl_snd | dsimp only

theorem State.boundary_same {u0 : State} (p)
    (h0 : SameMem r u0) :
    SameMem r (State.boundary u0 p) := by
  unfold State.boundary
  try dsimp only
  repeat' first
      | with_reducible assumption | with_reducible apply State.raiseStop_same | with_reducible apply same_ite | intro _ | split
      | dsimp only

theorem State.sendNotice_same {u0 : State} (p) (n)
    (h0 : SameMem r u0) :
    SameMem r (State.sendNotice u0 p n) := by
  unfold State.sendNotice
  try dsimp only
  repeat' first | with_reducible assumption | with_reducible apply State.queueFrame_same | intro _ | dsimp only

theorem State.sendNotices_same {u0 : State} (p)
    (h0 : SameMem r u0) :
    SameMem r (State.sendNotices u0 p) := by
  unfold State.sendNotices
  try dsimp only
  repeat' first
      | with_reducible assumption | with_reducible apply State.sendNotice_same | with_reducible apply same_foldl | intro _
      | with_reducible apply same_foldl_snd | dsimp only

theorem State.afterCommit_same {u0 : State} (p) (doubt)
    (h0 : SameMem r u0) :
    SameMem r (State.afterCommit u0 p doubt) := by
  unfold State.afterCommit
  try dsimp only
  repeat' first
      | with_reducible assumption | with_reducible apply State.eachUep_same | with_reducible apply State.beginSteps_same
      | with_reducible apply State.boundary_same | with_reducible apply State.modBind_same | with_reducible apply State.sendNotices_same
      | simp only [↓same_mk] | with_reducible apply same_ite | intro _ | split | dsimp only

theorem State.writeRecords_same {u0 : State} (p) (doubt)
    (h0 : SameMem r u0) :
    SameMem r (State.writeRecords u0 p doubt) := by
  unfold State.writeRecords
  try dsimp only
  repeat' first | with_reducible assumption | simp only [↓same_mk] | with_reducible apply same_ite | intro _ | split | dsimp only

theorem State.rollForward_same {u0 : State} (p)
    (h0 : SameMem r u0) :
    SameMem r (State.rollForward u0 p) := by
  unfold State.rollForward
  try dsimp only
  repeat' first
      | with_reducible assumption | with_reducible apply State.afterCommit_same | with_reducible apply State.writeRecords_same
      | with_reducible apply same_ite | intro _ | split | dsimp only

theorem State.rollBack_same {u0 : State} (p)
    (h0 : SameMem r u0) :
    SameMem r (State.rollBack u0 p) := by
  unfold State.rollBack
  try dsimp only
  repeat' first
      | with_reducible assumption | with_reducible apply State.eachUep_same | with_reducible apply same_ite | intro _ | split
      | dsimp only

theorem State.clearBlocked_same {u0 : State} (p)
    (h0 : SameMem r u0) :
    SameMem r (State.clearBlocked u0 p) := by
  unfold State.clearBlocked
  try dsimp only
  repeat' first
      | with_reducible assumption | with_reducible apply State.eachUep_same | simp only [↓same_mk] | with_reducible apply same_ite
      | intro _ | split | dsimp only

theorem State.control_same {u0 : State} (p) (v)
    (h0 : SameMem r u0) :
    SameMem r (State.control u0 p v) := by
  unfold State.control
  try dsimp only
  repeat' first
      | with_reducible assumption | with_reducible apply State.askStart_same | with_reducible apply State.raiseStop_same
      | with_reducible apply State.askRebind_same | with_reducible apply State.rollForward_same
      | with_reducible apply State.rollBack_same | with_reducible apply State.clearBlocked_same | simp only [↓same_mk]
      | with_reducible apply same_ite | intro _ | split | dsimp only

theorem clkmonEffect_same (v) {u1 : State}
    (h1 : SameMem r u1) :
    SameMem r (clkmonEffect v u1) := by
  unfold clkmonEffect
  try dsimp only
  repeat' first
      | with_reducible assumption | with_reducible apply State.modClk_same | simp only [↓same_mk] | with_reducible apply same_ite
      | intro _ | split | dsimp only

theorem State.retrain_same {u0 : State} (n)
    (h0 : SameMem r u0) :
    SameMem r (State.retrain u0 n) := by
  unfold State.retrain
  try dsimp only
  repeat' first
      | with_reducible assumption | with_reducible apply State.count_same | with_reducible apply State.modPort_same
      | simp only [↓same_mk] | intro _ | dsimp only

theorem State.clearPort_same {u0 : State} (v)
    (h0 : SameMem r u0) :
    SameMem r (State.clearPort u0 v) := by
  unfold State.clearPort
  try dsimp only
  repeat' first | with_reducible assumption | with_reducible apply State.modPort_same | simp only [↓same_mk] | intro _ | dsimp only

theorem retirementClearEffect_same (element) {u1 : State}
    (h1 : SameMem r u1) :
    SameMem r (retirementClearEffect element u1) := by
  unfold retirementClearEffect
  try dsimp only
  repeat' first
      | with_reducible assumption | with_reducible apply State.nvErase_same | simp only [↓same_mk] | with_reducible apply same_ite
      | intro _ | split | dsimp only

theorem State.respond_same {u0 : State} (session) (a2)
    (h0 : SameMem r u0) :
    SameMem r (State.respond u0 session a2) := by
  unfold State.respond
  try dsimp only
  repeat' first
      | with_reducible assumption | with_reducible apply State.emit_same | simp only [↓same_mk] | with_reducible apply same_ite
      | intro _ | split | dsimp only

theorem State.answerLater_same {u0 : State} (reply) (status)
    (h0 : SameMem r u0) :
    SameMem r (State.answerLater u0 reply status) := by
  unfold State.answerLater
  try dsimp only
  repeat' first
      | with_reducible assumption | with_reducible apply State.emit_same | with_reducible apply State.respond_same
      | simp only [↓same_mk] | with_reducible apply same_ite | intro _ | split | dsimp only

theorem State.pinBegin_same {u0 : State} (g) (w)
    (h0 : SameMem r u0) :
    SameMem r (State.pinBegin u0 g w) := by
  unfold State.pinBegin
  try dsimp only
  repeat' first
      | with_reducible assumption | with_reducible apply State.answerLater_same | with_reducible apply State.modPinGroup_same
      | simp only [↓same_mk] | with_reducible apply same_ite | intro _ | split | dsimp only

theorem State.pinNext_same (fuel) (g) {u2 : State}
    (h2 : SameMem r u2) :
    SameMem r (State.pinNext fuel g u2) := by
  induction fuel generalizing u2 with
  | zero => exact h2
  | succ k ih =>
    unfold State.pinNext
    dsimp only
    split
    · exact ih (State.pinBegin_same _ _ (State.modPinGroup_same _ _ h2))
    · exact h2

theorem State.pinWrite_same {u0 : State} (g) (code) (reply)
    (h0 : SameMem r u0) :
    SameMem r (State.pinWrite u0 g code reply) := by
  unfold State.pinWrite
  try dsimp only
  repeat' first
      | with_reducible assumption | with_reducible apply State.modPinGroup_same | with_reducible apply State.pinNext_same
      | simp only [↓same_mk] | intro _ | dsimp only

theorem State.actWrite_same {u0 : State} (index) (sub) (v) (reply)
    (h0 : SameMem r u0) :
    SameMem r (State.actWrite u0 index sub v reply).2 := by
  unfold State.actWrite
  try dsimp only
  repeat' first
      | with_reducible assumption | with_reducible apply State.putCounter_same | with_reducible apply State.setPrio_same
      | with_reducible apply State.control_same | with_reducible apply State.askWake_same | with_reducible apply clkmonEffect_same
      | with_reducible apply State.modTime_same | with_reducible apply State.retrain_same | with_reducible apply State.clearPort_same
      | with_reducible apply retirementClearEffect_same | with_reducible apply State.pinWrite_same
      | with_reducible apply State.setSetting_same | simp only [↓same_mk] | with_reducible apply same_ite | intro _ | split | dsimp only

theorem State.modLease_same {u0 : State} (f)
    (h0 : SameMem r u0) :
    SameMem r (State.modLease u0 f) := by
  unfold State.modLease
  try dsimp only
  repeat' first | with_reducible assumption | simp only [↓same_mk] | intro _ | dsimp only

theorem State.disableAll_same {u0 : State} (cause)
    (h0 : SameMem r u0) :
    SameMem r (State.disableAll u0 cause) := by
  unfold State.disableAll
  try dsimp only
  repeat' first
      | with_reducible assumption | with_reducible apply State.disableQueue_same | with_reducible apply same_foldl | intro _
      | with_reducible apply same_foldl_snd | dsimp only

theorem State.setModule_same {u0 : State} (v)
    (h0 : SameMem r u0) :
    SameMem r (State.setModule u0 v) := by
  unfold State.setModule
  try dsimp only
  repeat' first
      | with_reducible assumption | with_reducible apply State.raiseEvent_same | simp only [↓same_mk] | with_reducible apply same_ite
      | intro _ | split | dsimp only

theorem State.setHolder_same {u0 : State} (a1)
    (h0 : SameMem r u0) :
    SameMem r (State.setHolder u0 a1) := by
  unfold State.setHolder
  try dsimp only
  repeat' first
      | with_reducible assumption | with_reducible apply State.modLease_same | with_reducible apply State.raiseEvent_same
      | simp only [↓same_mk] | with_reducible apply same_ite | intro _ | split | dsimp only

theorem State.nvCut_same {u0 : State} (ty) (a2)
    (h0 : SameMem r u0) :
    SameMem r (State.nvCut u0 ty a2) := by
  unfold State.nvCut
  try dsimp only
  repeat' first | with_reducible assumption | simp only [↓same_mk] | intro _ | dsimp only

theorem State.newIdentity_same {u0 : State}
    (h0 : SameMem r u0) :
    SameMem r (State.newIdentity u0) := by
  unfold State.newIdentity
  try dsimp only
  repeat' first
      | with_reducible assumption | with_reducible apply State.dropSession_same | simp only [↓same_mk] | with_reducible apply same_ite
      | with_reducible apply same_foldl | intro _ | with_reducible apply same_foldl_snd | split | dsimp only

theorem State.abandonServer_same {u0 : State} (p) (k)
    (h0 : SameMem r u0) :
    SameMem r (State.abandonServer u0 p k) := by
  unfold State.abandonServer
  try dsimp only
  repeat' first | with_reducible assumption | with_reducible apply State.modSrv_same | simp only [↓same_mk] | intro _ | dsimp only

theorem State.nvStore_same {u0 : State} (w)
    (h0 : SameMem r u0) :
    SameMem r (State.nvStore u0 w) := by
  unfold State.nvStore
  try dsimp only
  repeat' first
      | with_reducible assumption | with_reducible apply State.nvPut_same | simp only [↓same_mk] | with_reducible apply same_ite
      | intro _ | split | dsimp only

theorem State.linkEvent_same {u0 : State} (c) (d)
    (h0 : SameMem r u0) :
    SameMem r (State.linkEvent u0 c d) := by
  unfold State.linkEvent
  try dsimp only
  repeat' first
      | with_reducible assumption | with_reducible apply State.count_same | with_reducible apply State.modFabric_same
      | simp only [↓same_mk] | intro _ | dsimp only

theorem State.fabricFault_same {u0 : State} (p) (cause) (at_) (element)
    (h0 : SameMem r u0) :
    SameMem r (State.fabricFault u0 p cause at_ element) := by
  unfold State.fabricFault
  try dsimp only
  repeat' first
      | with_reducible assumption | with_reducible apply State.clusterFault_same | with_reducible apply State.raiseStop_same
      | with_reducible apply State.log_same | simp only [↓same_mk] | with_reducible apply same_ite | intro _ | split | dsimp only

theorem State.loseLink_same {u0 : State} (c) (d) (out)
    (h0 : SameMem r u0) :
    SameMem r (State.loseLink u0 c d out) := by
  unfold State.loseLink
  try dsimp only
  repeat' first
      | with_reducible assumption | with_reducible apply State.modFabric_same | with_reducible apply State.log_same
      | with_reducible apply State.fabricFault_same | simp only [↓same_mk] | with_reducible apply same_ite
      | with_reducible apply same_foldl | intro _ | with_reducible apply same_foldl_snd | split | dsimp only

theorem State.landWord_same {u0 : State} (c) (d) (out) (i) (w) (err)
    (h0 : SameMem r u0) :
    SameMem r (State.landWord u0 c d out i w err).2 := by
  unfold State.landWord
  try dsimp only
  repeat' first
      | with_reducible assumption | with_reducible apply State.elementEvent_same | with_reducible apply State.linkEvent_same
      | with_reducible apply State.loseLink_same | simp only [↓same_mk] | with_reducible apply same_ite | intro _ | split | dsimp only

theorem State.landWords_same {u0 : State} (c) (d) (out) (i) (ws) (err)
    (h0 : SameMem r u0) :
    SameMem r (State.landWords u0 c d out i ws err).2 := by
  induction ws generalizing i u0 with
  | nil => exact h0
  | cons w ws ih => exact ih _ (State.landWord_same _ _ _ _ _ _ h0)

theorem State.pageEvent_same {u0 : State} (stack) (page) (blk) (uncorr) (retried)
    (h0 : SameMem r u0) :
    SameMem r (State.pageEvent u0 stack page blk uncorr retried) := by
  unfold State.pageEvent
  try dsimp only
  repeat' first
      | with_reducible assumption | with_reducible apply State.modStack_same | with_reducible apply State.count_same
      | with_reducible apply State.elementEvent_same | simp only [↓same_mk] | with_reducible apply same_ite | intro _ | split
      | dsimp only

theorem State.poisonRead_same {u0 : State} (stack)
    (h0 : SameMem r u0) :
    SameMem r (State.poisonRead u0 stack) := by
  unfold State.poisonRead
  try dsimp only
  repeat' first
      | with_reducible assumption | with_reducible apply State.count_same | with_reducible apply State.modStack_same
      | simp only [↓same_mk] | intro _ | dsimp only

theorem State.noteBlocks_same {u0 : State} (stack) (page) (phys) (b) (n) (retry)
    (h0 : SameMem r u0) :
    SameMem r (State.noteBlocks u0 stack page phys b n retry).2 := by
  unfold State.noteBlocks
  try dsimp only
  repeat' first
      | with_reducible assumption | with_reducible apply State.pageEvent_same | with_reducible apply State.poisonRead_same
      | with_reducible apply State.count_same | simp only [↓same_mk] | with_reducible apply same_ite | with_reducible apply same_foldl
      | intro _ | with_reducible apply same_foldl_snd | split | dsimp only

theorem State.dbgReadBlock_same {u0 : State} (a)
    (h0 : SameMem r u0) :
    SameMem r (State.dbgReadBlock u0 a).2 := by
  unfold State.dbgReadBlock
  try dsimp only
  repeat' first
      | with_reducible assumption | with_reducible apply State.noteBlocks_same | with_reducible apply State.count_same
      | simp only [↓same_mk] | with_reducible apply same_ite | intro _ | split | dsimp only

theorem State.readStore_same {u0 : State} (stack) (off)
    (h0 : SameMem r u0) :
    SameMem r (State.readStore u0 stack off) := by
  unfold State.readStore
  try dsimp only
  repeat' first
      | with_reducible assumption | with_reducible apply State.modStack_same | with_reducible apply State.modUep_same
      | simp only [↓same_mk] | with_reducible apply same_ite | intro _ | split | dsimp only

theorem clearLinkEvents_same (slot) (d) {u2 : State}
    (h2 : SameMem r u2) :
    SameMem r (clearLinkEvents slot d u2) := by
  unfold clearLinkEvents
  try dsimp only
  repeat' first | with_reducible assumption | with_reducible apply State.modFabric_same | simp only [↓same_mk] | intro _ | dsimp only

theorem State.readFabric_same {u0 : State} (addr)
    (h0 : SameMem r u0) :
    SameMem r (State.readFabric u0 addr) := by
  unfold State.readFabric
  try dsimp only
  repeat' first
      | with_reducible assumption | with_reducible apply clearLinkEvents_same | with_reducible apply same_ite | intro _ | split
      | dsimp only

theorem State.readCluster_same {u0 : State} (c) (off)
    (h0 : SameMem r u0) :
    SameMem r (State.readCluster u0 c off) := by
  unfold State.readCluster
  try dsimp only
  repeat' first
      | with_reducible assumption | with_reducible apply State.modCluster_same | simp only [↓same_mk] | with_reducible apply same_ite
      | intro _ | split | dsimp only

theorem State.readPort_same {u0 : State} (n) (off)
    (h0 : SameMem r u0) :
    SameMem r (State.readPort u0 n off) := by
  unfold State.readPort
  try dsimp only
  repeat' first
      | with_reducible assumption | with_reducible apply State.modPort_same | simp only [↓same_mk] | with_reducible apply same_ite
      | intro _ | split | dsimp only

theorem State.reportIssued_same {u0 : State} (nonce) (scope)
    (h0 : SameMem r u0) :
    SameMem r (State.reportIssued u0 nonce scope) := by
  unfold State.reportIssued
  try dsimp only
  repeat' first
      | with_reducible assumption | with_reducible apply State.modTrust_same | with_reducible apply State.modOwner_same
      | simp only [↓same_mk] | with_reducible apply same_ite | intro _ | split | dsimp only

theorem State.setLatch_same {u0 : State} (session) (index) (sub) (v)
    (h0 : SameMem r u0) :
    SameMem r (State.setLatch u0 session index sub v) := by
  unfold State.setLatch
  try dsimp only
  repeat' first | with_reducible assumption | simp only [↓same_mk] | with_reducible apply same_ite | intro _ | split | dsimp only

theorem State.modPins_same {u0 : State} (f)
    (h0 : SameMem r u0) :
    SameMem r (State.modPins u0 f) := by
  unfold State.modPins
  try dsimp only
  repeat' first | with_reducible assumption | simp only [↓same_mk] | intro _ | dsimp only

theorem State.takeEntry_same {u0 : State} (q) (op) (e)
    (h0 : SameMem r u0) :
    SameMem r (State.takeEntry u0 q op e) := by
  unfold State.takeEntry
  try dsimp only
  repeat' first | with_reducible assumption | with_reducible apply State.modHostQ_same | simp only [↓same_mk] | intro _ | dsimp only

theorem State.raiseStopAll_same {u0 : State} (why)
    (h0 : SameMem r u0) :
    SameMem r (State.raiseStopAll u0 why) := by
  unfold State.raiseStopAll
  try dsimp only
  repeat' first
      | with_reducible assumption | with_reducible apply State.raiseStop_same | with_reducible apply same_foldl | intro _
      | with_reducible apply same_foldl_snd | dsimp only

theorem State.atPart_same {u0 : State} (p) (pc)
    (h0 : SameMem r u0) :
    SameMem r (State.atPart u0 p pc) := by
  unfold State.atPart
  try dsimp only
  repeat' first
      | with_reducible assumption | with_reducible apply State.advance_same | with_reducible apply same_ite | intro _ | split
      | dsimp only

theorem State.raiseHold_same {u0 : State} (c)
    (h0 : SameMem r u0) :
    SameMem r (State.raiseHold u0 c) := by
  unfold State.raiseHold
  try dsimp only
  repeat' first
      | with_reducible assumption | with_reducible apply State.modCluster_same | with_reducible apply State.modPart_same
      | simp only [↓same_mk] | with_reducible apply same_ite | intro _ | split | dsimp only

theorem State.modOp_same {u0 : State} (c) (p) (f)
    (h0 : SameMem r u0) :
    SameMem r (State.modOp u0 c p f) := by
  unfold State.modOp
  try dsimp only
  repeat' first | with_reducible assumption | with_reducible apply State.modCluster_same | simp only [↓same_mk] | intro _ | dsimp only

theorem State.mismatch_same {u0 : State} (c) (a2)
    (h0 : SameMem r u0) :
    SameMem r (State.mismatch u0 c a2) := by
  unfold State.mismatch
  try dsimp only
  repeat' first
      | with_reducible assumption | with_reducible apply State.modCluster_same | with_reducible apply State.count_same
      | with_reducible apply State.elementEvent_same | simp only [↓same_mk] | with_reducible apply same_ite | intro _ | split
      | dsimp only

theorem touchedClearEffect_same (p) {u1 : State}
    (h1 : SameMem r u1) :
    SameMem r (touchedClearEffect p u1) := by
  unfold touchedClearEffect
  try dsimp only
  repeat' first | with_reducible assumption | simp only [↓same_mk] | with_reducible apply same_ite | intro _ | split | dsimp only

theorem State.dropOp_same {u0 : State} (c) (p)
    (h0 : SameMem r u0) :
    SameMem r (State.dropOp u0 c p) := by
  unfold State.dropOp
  try dsimp only
  repeat' first | with_reducible assumption | with_reducible apply State.modCluster_same | simp only [↓same_mk] | intro _ | dsimp only

theorem State.refuseSession_same {u0 : State} (n) (code)
    (h0 : SameMem r u0) :
    SameMem r (State.refuseSession u0 n code) := by
  unfold State.refuseSession
  try dsimp only
  repeat' first | with_reducible assumption | with_reducible apply State.modPort_same | simp only [↓same_mk] | intro _ | dsimp only

theorem helloEffect_same (n) (a1) {u2 : State}
    (h2 : SameMem r u2) :
    SameMem r (helloEffect n a1 u2) := by
  unfold helloEffect
  try dsimp only
  repeat' first
      | with_reducible assumption | with_reducible apply State.sessionLost_same | with_reducible apply State.modPort_same
      | with_reducible apply State.refuseSession_same | with_reducible apply State.emit_same | simp only [↓same_mk]
      | with_reducible apply same_ite | intro _ | split | dsimp only

theorem State.tableParity_same {u0 : State} (c) (owner) (far)
    (h0 : SameMem r u0) :
    SameMem r (State.tableParity u0 c owner far) := by
  unfold State.tableParity
  try dsimp only
  repeat' first
      | with_reducible assumption | with_reducible apply State.fabricFault_same | with_reducible apply State.log_same
      | simp only [↓same_mk] | with_reducible apply same_ite | intro _ | split | dsimp only

theorem State.checkIdle_same {u0 : State} (k) (c) (a3) (far) (upset)
    (h0 : SameMem r u0) :
    SameMem r (State.checkIdle u0 k c a3 far upset) := by
  unfold State.checkIdle
  try dsimp only
  repeat' first
      | with_reducible assumption | with_reducible apply State.tableParity_same | simp only [↓same_mk] | with_reducible apply same_ite
      | intro _ | split | dsimp only

theorem State.popQueue_same {u0 : State} (c) (i) (p) (fab)
    (h0 : SameMem r u0) :
    SameMem r (State.popQueue u0 c i p fab) := by
  unfold State.popQueue
  try dsimp only
  repeat' first | with_reducible assumption | with_reducible apply State.modFabric_same | simp only [↓same_mk] | intro _ | dsimp only

theorem State.enterCtx_same {u0 : State} (ctx) (idx) (ws) (last)
    (h0 : SameMem r u0) :
    SameMem r (State.enterCtx u0 ctx idx ws last) := by
  unfold State.enterCtx
  try dsimp only
  repeat' first
      | with_reducible assumption | with_reducible apply State.modCtx_same | simp only [↓same_mk] | with_reducible apply same_ite
      | intro _ | split | dsimp only

theorem State.landElastic_same {u0 : State} (c) (circ) (x) (ws)
    (h0 : SameMem r u0) :
    SameMem r (State.landElastic u0 c circ x ws) := by
  unfold State.landElastic
  try dsimp only
  repeat' first
      | with_reducible assumption | with_reducible apply State.stageWrite_same | with_reducible apply State.enterPort_same
      | with_reducible apply State.enterCtx_same | simp only [↓same_mk] | with_reducible apply same_ite | intro _ | split | dsimp only

theorem elasticLandEffect_same (c) (d) (upset) (err) {u4 : State}
    (h4 : SameMem r u4) :
    SameMem r (elasticLandEffect c d upset err u4) := by
  unfold elasticLandEffect
  try dsimp only
  repeat' first
      | with_reducible assumption | with_reducible apply State.checkIdle_same | with_reducible apply State.tableParity_same
      | with_reducible apply State.advance_same | with_reducible apply State.popQueue_same | with_reducible apply State.landWords_same
      | with_reducible apply State.landElastic_same | simp only [↓same_mk] | with_reducible apply same_ite | intro _ | split
      | dsimp only

theorem State.hostDone_same {u0 : State} (q) (idx) (a3)
    (h0 : SameMem r u0) :
    SameMem r (State.hostDone u0 q idx a3) := by
  unfold State.hostDone
  try dsimp only
  repeat' first
      | with_reducible assumption | with_reducible apply State.modStore_same | with_reducible apply State.modHostQ_same
      | simp only [↓same_mk] | with_reducible apply same_ite | intro _ | split | dsimp only

theorem State.loadFabric_same {u0 : State} (p) (b)
    (h0 : SameMem r u0) :
    SameMem r (State.loadFabric u0 p b) := by
  unfold State.loadFabric
  try dsimp only
  repeat' first
      | with_reducible assumption | with_reducible apply State.modFabric_same | with_reducible apply State.modColl_same
      | with_reducible apply State.modGroup_same | simp only [↓same_mk] | with_reducible apply same_ite
      | with_reducible apply same_foldl | intro _ | with_reducible apply same_foldl_snd | split | dsimp only

theorem State.loadFlows_same {u0 : State} (p) (b)
    (h0 : SameMem r u0) :
    SameMem r (State.loadFlows u0 p b) := by
  unfold State.loadFlows
  try dsimp only
  repeat' first
      | with_reducible assumption | with_reducible apply State.modPort_same | simp only [↓same_mk] | with_reducible apply same_ite
      | with_reducible apply same_foldl | intro _ | with_reducible apply same_foldl_snd | split | dsimp only

theorem State.readPlane_same {u0 : State} (stack) (pl) (step) (copy) (n) (skip)
    (h0 : SameMem r u0) :
    SameMem r (State.readPlane u0 stack pl step copy n skip).2 := by
  unfold State.readPlane
  try dsimp only
  repeat' first
      | with_reducible assumption | with_reducible apply State.noteBlocks_same | simp only [↓same_mk] | with_reducible apply same_ite
      | with_reducible apply same_foldl | intro _ | with_reducible apply same_foldl_snd | split | dsimp only

theorem State.readAll_same {u0 : State} (stack) (pl) (step) (copy) (n)
    (h0 : SameMem r u0) :
    SameMem r (State.readAll u0 stack pl step copy n).2 := by
  unfold State.readAll
  try dsimp only
  repeat' first | with_reducible assumption | with_reducible apply State.readPlane_same | intro _ | dsimp only

theorem onMessage_same (a0) (act) {u2 : State}
    (h1 : ∀ x0 x1, SameMem r x1 → SameMem r (act x0 x1)) (h2 : SameMem r u2) :
    SameMem r (onMessage a0 act u2) := by
  unfold onMessage
  try dsimp only
  repeat' first
      | with_reducible assumption | with_reducible apply h1 | with_reducible apply State.setSession_same | simp only [↓same_mk]
      | with_reducible apply same_ite | intro _ | split | dsimp only

theorem State.restoreOverdrive_same {u0 : State}
    (h0 : SameMem r u0) :
    SameMem r (State.restoreOverdrive u0) := by
  unfold State.restoreOverdrive
  try dsimp only
  repeat' first | with_reducible assumption | simp only [↓same_mk] | with_reducible apply same_ite | intro _ | split | dsimp only

theorem State.tryPhase_same {u0 : State} (o) (why)
    (h0 : SameMem r u0) :
    SameMem r (State.tryPhase u0 o why) := by
  unfold State.tryPhase
  try dsimp only
  repeat' first
      | with_reducible assumption | with_reducible apply State.modSync_same | simp only [↓same_mk] | with_reducible apply same_ite
      | intro _ | split | dsimp only

theorem State.arrive_same {u0 : State} (o) (fromSeq) (why)
    (h0 : SameMem r u0) :
    SameMem r (State.arrive u0 o fromSeq why) := by
  unfold State.arrive
  try dsimp only
  repeat' first
      | with_reducible assumption | with_reducible apply State.clusterFault_same | with_reducible apply State.tryPhase_same
      | with_reducible apply State.modSync_same | simp only [↓same_mk] | with_reducible apply same_ite | intro _ | split | dsimp only

theorem State.advancePc_same {u0 : State} (c) (d)
    (h0 : SameMem r u0) :
    SameMem r (State.advancePc u0 c d) := by
  unfold State.advancePc
  try dsimp only
  repeat' first
      | with_reducible assumption | with_reducible apply State.modCluster_same | with_reducible apply State.clusterFaultIn_same
      | simp only [↓same_mk] | with_reducible apply same_ite | intro _ | split | dsimp only

theorem State.finishIssue_same {u0 : State} (c) (d)
    (h0 : SameMem r u0) :
    SameMem r (State.finishIssue u0 c d) := by
  unfold State.finishIssue
  try dsimp only
  repeat' first
      | with_reducible assumption | with_reducible apply State.arrive_same | with_reducible apply State.advancePc_same
      | with_reducible apply same_ite | intro _ | split | dsimp only

theorem State.beginIssue_same {u0 : State} (c)
    (h0 : SameMem r u0) :
    SameMem r (State.beginIssue u0 c) := by
  unfold State.beginIssue
  try dsimp only
  repeat' first | with_reducible assumption | with_reducible apply State.modCluster_same | simp only [↓same_mk] | intro _ | dsimp only

theorem State.issueNow_same {u0 : State} (c) (d) (effect)
    (h0 : SameMem r u0) (h3 : ∀ x0 x1, SameMem r x1 → SameMem r (effect x0 x1)) :
    SameMem r (State.issueNow u0 c d effect) := by
  unfold State.issueNow
  try dsimp only
  repeat' first
      | with_reducible assumption | with_reducible apply h3 | with_reducible apply State.clusterFault_same
      | with_reducible apply State.finishIssue_same | with_reducible apply State.beginIssue_same | with_reducible apply same_ite
      | intro _ | split | dsimp only

theorem State.markSlot_same {u0 : State} (c) (a2) (fab)
    (h0 : SameMem r u0) :
    SameMem r (State.markSlot u0 c a2 fab) := by
  unfold State.markSlot
  try dsimp only
  repeat' first | with_reducible assumption | with_reducible apply State.modFabric_same | intro _ | dsimp only

theorem State.lineConflict_same {u0 : State} (c) (a2) (line)
    (h0 : SameMem r u0) :
    SameMem r (State.lineConflict u0 c a2 line) := by
  unfold State.lineConflict
  try dsimp only
  repeat' first
      | with_reducible assumption | with_reducible apply State.bankConflict_same | simp only [↓same_mk] | with_reducible apply same_ite
      | intro _ | split | dsimp only

theorem State.depart_same {u0 : State} (p) (c) (d) (a4) (e) (conflict)
    (h0 : SameMem r u0) :
    SameMem r (State.depart u0 p c d a4 e conflict) := by
  unfold State.depart
  try dsimp only
  repeat' first
      | with_reducible assumption | with_reducible apply State.clusterFault_same | with_reducible apply State.circRead_same
      | with_reducible apply State.testRead_same | with_reducible apply State.takeBanks_same | with_reducible apply State.markSlot_same
      | with_reducible apply State.lineConflict_same | with_reducible apply State.modFabric_same | simp only [↓same_mk]
      | with_reducible apply same_ite | with_reducible apply same_foldl | intro _ | with_reducible apply same_foldl_snd | split
      | dsimp only

theorem State.checkEnd_same {u0 : State} (c)
    (h0 : SameMem r u0) :
    SameMem r (State.checkEnd u0 c) := by
  unfold State.checkEnd
  try dsimp only
  repeat' first
      | with_reducible assumption | with_reducible apply State.modCluster_same | simp only [↓same_mk] | with_reducible apply same_ite
      | intro _ | split | dsimp only

theorem State.modJob_same {u0 : State} (q) (f)
    (h0 : SameMem r u0) :
    SameMem r (State.modJob u0 q f) := by
  unfold State.modJob
  try dsimp only
  repeat' first | with_reducible assumption | with_reducible apply State.modHostQ_same | simp only [↓same_mk] | intro _ | dsimp only

theorem State.hostRequests_same {u0 : State} (q) (num) (op) (a) (n) (ws) (first)
    (h0 : SameMem r u0) :
    SameMem r (State.hostRequests u0 q num op a n ws first) := by
  unfold State.hostRequests
  try dsimp only
  repeat' first
      | with_reducible assumption | with_reducible apply State.modJob_same | with_reducible apply State.modStore_same
      | simp only [↓same_mk] | intro _ | dsimp only

theorem State.sendDatagram_same {u0 : State} (port) (ty) (p) (peer) (stack) (id) (offset) (ackId) (last) (data)
    (h0 : SameMem r u0) :
    SameMem r (State.sendDatagram u0 port ty p peer stack id offset ackId last data) := by
  unfold State.sendDatagram
  try dsimp only
  repeat' first
      | with_reducible assumption | with_reducible apply State.emit_same | with_reducible apply State.modSrv_same | simp only [↓same_mk]
      | intro _ | dsimp only

theorem psDataEffect_same (d) {u1 : State}
    (h1 : SameMem r u1) :
    SameMem r (psDataEffect d u1) := by
  unfold psDataEffect
  try dsimp only
  repeat' first
      | with_reducible assumption | with_reducible apply State.modJob_same | with_reducible apply State.hostRequests_same
      | with_reducible apply State.sendDatagram_same | simp only [↓same_mk] | with_reducible apply same_ite | intro _ | split
      | dsimp only

theorem entryCompleteEffect_same (q) {u1 : State}
    (h1 : SameMem r u1) :
    SameMem r (entryCompleteEffect q u1) := by
  unfold entryCompleteEffect
  try dsimp only
  repeat' first
      | with_reducible assumption | with_reducible apply State.emit_same | with_reducible apply State.count_same
      | with_reducible apply State.writeCompletion_same | simp only [↓same_mk] | with_reducible apply same_ite | intro _ | split
      | dsimp only

theorem State.haltCtx_same {u0 : State} (c) (k) (cause)
    (h0 : SameMem r u0) :
    SameMem r (State.haltCtx u0 c k cause) := by
  unfold State.haltCtx
  try dsimp only
  repeat' first
      | with_reducible assumption | with_reducible apply State.modCtx_same | with_reducible apply State.log_same
      | with_reducible apply State.clusterFault_same | simp only [↓same_mk] | with_reducible apply same_ite | intro _ | split
      | dsimp only

theorem State.addPend_same {u0 : State} (c) (k) (w)
    (h0 : SameMem r u0) :
    SameMem r (State.addPend u0 c k w) := by
  unfold State.addPend
  try dsimp only
  repeat' first
      | with_reducible assumption | with_reducible apply State.haltCtx_same | with_reducible apply State.modCtx_same
      | simp only [↓same_mk] | with_reducible apply same_ite | intro _ | split | dsimp only

theorem State.wake_same {u0 : State} (c) (why)
    (h0 : SameMem r u0) :
    SameMem r (State.wake u0 c why) := by
  unfold State.wake
  try dsimp only
  repeat' first
      | with_reducible assumption | with_reducible apply State.modCluster_same | with_reducible apply State.endWait_same
      | simp only [↓same_mk] | intro _ | dsimp only

theorem State.retest_same {u0 : State} (c) (obj) (ctx) (why)
    (h0 : SameMem r u0) :
    SameMem r (State.retest u0 c obj ctx why) := by
  unfold State.retest
  try dsimp only
  repeat' first
      | with_reducible assumption | with_reducible apply State.wake_same | simp only [↓same_mk] | with_reducible apply same_ite
      | intro _ | split | dsimp only

theorem State.deliverPhase_same {u0 : State} (c) (obj) (why)
    (h0 : SameMem r u0) :
    SameMem r (State.deliverPhase u0 c obj why) := by
  unfold State.deliverPhase
  try dsimp only
  repeat' first
      | with_reducible assumption | with_reducible apply State.modSync_same | with_reducible apply State.addPend_same
      | with_reducible apply State.retest_same | simp only [↓same_mk] | with_reducible apply same_ite | with_reducible apply same_foldl
      | intro _ | with_reducible apply same_foldl_snd | split | dsimp only

theorem State.deliverTotal_same {u0 : State} (stack) (p) (a3)
    (h0 : SameMem r u0) :
    SameMem r (State.deliverTotal u0 stack p a3) := by
  unfold State.deliverTotal
  try dsimp only
  repeat' first
      | with_reducible assumption | with_reducible apply State.modUep_same | with_reducible apply State.setUeFlags_same
      | simp only [↓same_mk] | with_reducible apply same_ite | intro _ | split | dsimp only

theorem State.releaseEngines_same {u0 : State} (p) (g) (a3) (fl)
    (h0 : SameMem r u0) :
    SameMem r (State.releaseEngines u0 p g a3 fl) := by
  unfold State.releaseEngines
  try dsimp only
  repeat' first
      | with_reducible assumption | with_reducible apply State.deliverTotal_same | with_reducible apply State.setUeFlags_same
      | with_reducible apply State.modUep_same | simp only [↓same_mk] | with_reducible apply same_ite | with_reducible apply same_foldl
      | intro _ | with_reducible apply same_foldl_snd | split | dsimp only

theorem spineReleaseEffect_same (g) {u1 : State}
    (h1 : SameMem r u1) :
    SameMem r (spineReleaseEffect g u1) := by
  unfold spineReleaseEffect
  try dsimp only
  repeat' first
      | with_reducible assumption | with_reducible apply State.atPart_same | with_reducible apply State.modGroup_same
      | with_reducible apply State.modColl_same | with_reducible apply State.deliverPhase_same
      | with_reducible apply State.tryPhase_same | with_reducible apply State.releaseEngines_same | simp only [↓same_mk]
      | with_reducible apply same_ite | with_reducible apply same_foldl | intro _ | with_reducible apply same_foldl_snd | split
      | dsimp only

theorem zeroingCompleteEffect_same (c) {u1 : State}
    (h1 : SameMem r u1) :
    SameMem r (zeroingCompleteEffect c u1) := by
  unfold zeroingCompleteEffect
  try dsimp only
  repeat' first
      | with_reducible assumption | with_reducible apply State.atFab_same | with_reducible apply State.lightPorts_same
      | with_reducible apply State.modCluster_same | simp only [↓same_mk] | with_reducible apply same_ite | intro _ | split | dsimp only

theorem gateEffect_same (count) {u1 : State}
    (h1 : SameMem r u1) :
    SameMem r (gateEffect count u1) := by
  unfold gateEffect
  try dsimp only
  repeat' first
      | with_reducible assumption | with_reducible apply State.atNs_same | with_reducible apply State.modClk_same | simp only [↓same_mk]
      | with_reducible apply same_ite | intro _ | split | dsimp only

theorem State.replayLimit_same {u0 : State} (c) (a2) (sel) (desc)
    (h0 : SameMem r u0) :
    SameMem r (State.replayLimit u0 c a2 sel desc) := by
  unfold State.replayLimit
  try dsimp only
  repeat' first
      | with_reducible assumption | with_reducible apply State.markElement_same | with_reducible apply State.clusterFault_same
      | with_reducible apply State.dropOp_same | with_reducible apply same_ite | intro _ | split | dsimp only

theorem groupStageEffect_same (g) {u1 : State}
    (h1 : SameMem r u1) :
    SameMem r (groupStageEffect g u1) := by
  unfold groupStageEffect
  try dsimp only
  repeat' first
      | with_reducible assumption | with_reducible apply State.atNs_same | with_reducible apply State.modPower_same
      | simp only [↓same_mk] | with_reducible apply same_ite | intro _ | split | dsimp only

theorem State.countPoison_same {u0 : State} (c) (k) (n)
    (h0 : SameMem r u0) :
    SameMem r (State.countPoison u0 c k n) := by
  unfold State.countPoison
  try dsimp only
  repeat' first
      | with_reducible assumption | with_reducible apply State.count_same | with_reducible apply State.modCtx_same
      | simp only [↓same_mk] | with_reducible apply same_ite | intro _ | split | dsimp only

theorem State.laneRetired_same {u0 : State} (n) (send)
    (h0 : SameMem r u0) :
    SameMem r (State.laneRetired u0 n send) := by
  unfold State.laneRetired
  try dsimp only
  repeat' first
      | with_reducible assumption | with_reducible apply State.portLost_same | with_reducible apply State.retrain_same
      | simp only [↓same_mk] | with_reducible apply same_ite | intro _ | split | dsimp only

theorem State.codewordBad_same {u0 : State} (n) (lane)
    (h0 : SameMem r u0) :
    SameMem r (State.codewordBad u0 n lane) := by
  unfold State.codewordBad
  try dsimp only
  repeat' first
      | with_reducible assumption | with_reducible apply State.count_same | with_reducible apply State.modPort_same
      | with_reducible apply State.elementEvent_same | with_reducible apply State.laneRetired_same | simp only [↓same_mk]
      | with_reducible apply same_ite | intro _ | split | dsimp only

theorem pinCompleteEffect_same (g) {u1 : State}
    (h1 : SameMem r u1) :
    SameMem r (pinCompleteEffect g u1) := by
  unfold pinCompleteEffect
  try dsimp only
  repeat' first
      | with_reducible assumption | with_reducible apply State.atNs_same | with_reducible apply State.answerLater_same
      | with_reducible apply State.modPinGroup_same | with_reducible apply State.pinNext_same | simp only [↓same_mk]
      | with_reducible apply same_ite | intro _ | split | dsimp only

theorem State.submit_same {u0 : State} (c) (a2) (o)
    (h0 : SameMem r u0) :
    SameMem r (State.submit u0 c a2 o) := by
  unfold State.submit
  try dsimp only
  repeat' first
      | with_reducible assumption | with_reducible apply State.clusterFault_same | with_reducible apply State.modCluster_same
      | simp only [↓same_mk] | with_reducible apply same_ite | intro _ | split | dsimp only

theorem walkEffect_same (c) (a1) (d) {u3 : State}
    (h3 : SameMem r u3) :
    SameMem r (walkEffect c a1 d u3) := by
  unfold walkEffect
  try dsimp only
  repeat' first
      | with_reducible assumption | with_reducible apply State.modCluster_same | with_reducible apply State.submit_same
      | simp only [↓same_mk] | intro _ | dsimp only

theorem State.i3cSay_same {u0 : State} (st) (data)
    (h0 : SameMem r u0) :
    SameMem r (State.i3cSay u0 st data) := by
  unfold State.i3cSay
  try dsimp only
  repeat' first | with_reducible assumption | with_reducible apply State.emit_same | intro _ | dsimp only

theorem checkCrc_same (crcOk) (act) {u2 : State}
    (h1 : ∀ x0, SameMem r x0 → SameMem r (act x0)) (h2 : SameMem r u2) :
    SameMem r (checkCrc crcOk act u2) := by
  unfold checkCrc
  try dsimp only
  repeat' first
      | with_reducible assumption | with_reducible apply h1 | with_reducible apply State.i3cSay_same | simp only [↓same_mk]
      | with_reducible apply same_ite | intro _ | split | dsimp only

theorem State.selfTestFail_same {u0 : State} (e)
    (h0 : SameMem r u0) :
    SameMem r (State.selfTestFail u0 e) := by
  unfold State.selfTestFail
  try dsimp only
  repeat' first
      | with_reducible assumption | with_reducible apply State.markElement_same | simp only [↓same_mk] | with_reducible apply same_ite
      | intro _ | split | dsimp only

theorem State.replayAgain_same {u0 : State} (c)
    (h0 : SameMem r u0) :
    SameMem r (State.replayAgain u0 c) := by
  unfold State.replayAgain
  try dsimp only
  repeat' first | with_reducible assumption | with_reducible apply State.modCluster_same | simp only [↓same_mk] | intro _ | dsimp only

theorem State.feedEdge_same {u0 : State} (k)
    (h0 : SameMem r u0) :
    SameMem r (State.feedEdge u0 k) := by
  unfold State.feedEdge
  try dsimp only
  repeat' first
      | with_reducible assumption | with_reducible apply State.modFabric_same | simp only [↓same_mk] | with_reducible apply same_ite
      | with_reducible apply same_foldl | intro _ | with_reducible apply same_foldl_snd | split | dsimp only

theorem State.ingestFlits_same {u0 : State} (q) (f) (ws)
    (h0 : SameMem r u0) :
    SameMem r (State.ingestFlits u0 q f ws) := by
  unfold State.ingestFlits
  try dsimp only
  repeat' first
      | with_reducible assumption | with_reducible apply State.feedEdge_same | with_reducible apply State.modFabric_same
      | simp only [↓same_mk] | intro _ | dsimp only

theorem State.sayStatus_same {u0 : State} (id) (a2)
    (h0 : SameMem r u0) :
    SameMem r (State.sayStatus u0 id a2) := by
  unfold State.sayStatus
  try dsimp only
  repeat' first
      | with_reducible assumption | with_reducible apply State.emit_same | with_reducible apply State.setSession_same
      | simp only [↓same_mk] | with_reducible apply same_ite | intro _ | split | dsimp only

theorem State.restoreCounters_same {u0 : State}
    (h0 : SameMem r u0) :
    SameMem r (State.restoreCounters u0) := by
  unfold State.restoreCounters
  try dsimp only
  repeat' first
      | with_reducible assumption | with_reducible apply State.logLost_same | with_reducible apply State.nvPut_same
      | simp only [↓same_mk] | with_reducible apply same_ite | intro _ | split | dsimp only

theorem State.setRc_same {u0 : State} (a1) (n)
    (h0 : SameMem r u0) :
    SameMem r (State.setRc u0 a1 n) := by
  unfold State.setRc
  try dsimp only
  repeat' first
      | with_reducible assumption | with_reducible apply State.modCluster_same | with_reducible apply State.modCtx_same
      | with_reducible apply State.modFabric_same | with_reducible apply State.modStack_same | with_reducible apply State.modUep_same
      | with_reducible apply State.modPort_same | simp only [↓same_mk] | with_reducible apply same_ite | intro _ | split | dsimp only

theorem rcReadEffect_same (a0) (event) {u2 : State}
    (h2 : SameMem r u2) :
    SameMem r (rcReadEffect a0 event u2) := by
  unfold rcReadEffect
  try dsimp only
  repeat' first
      | with_reducible assumption | with_reducible apply State.setRc_same | with_reducible apply State.emit_same | simp only [↓same_mk]
      | intro _ | dsimp only

theorem State.setGen_same {u0 : State} (c) (k) (v)
    (h0 : SameMem r u0) :
    SameMem r (State.setGen u0 c k v) := by
  unfold State.setGen
  try dsimp only
  repeat' first | with_reducible assumption | with_reducible apply State.modCtx_same | simp only [↓same_mk] | intro _ | dsimp only

theorem State.thawGens_same {u0 : State} (c)
    (h0 : SameMem r u0) :
    SameMem r (State.thawGens u0 c) := by
  unfold State.thawGens
  try dsimp only
  repeat' first
      | with_reducible assumption | with_reducible apply State.setGen_same | with_reducible apply State.modCluster_same
      | simp only [↓same_mk] | with_reducible apply same_foldl | intro _ | with_reducible apply same_foldl_snd | dsimp only

theorem loReadEffect_same (a0) (hi) {u2 : State}
    (h2 : SameMem r u2) :
    SameMem r (loReadEffect a0 hi u2) := by
  unfold loReadEffect
  try dsimp only
  repeat' first
      | with_reducible assumption | with_reducible apply State.emit_same | with_reducible apply State.readCluster_same
      | with_reducible apply State.modCtx_same | with_reducible apply State.readStore_same | with_reducible apply State.readPort_same
      | simp only [↓same_mk] | with_reducible apply same_ite | intro _ | split | dsimp only

theorem State.sendStage_same {u0 : State} (p) (d) (es)
    (h0 : SameMem r u0) :
    SameMem r (State.sendStage u0 p d es) := by
  unfold State.sendStage
  try dsimp only
  repeat' first
      | with_reducible assumption | with_reducible apply State.modPort_same | simp only [↓same_mk] | with_reducible apply same_ite
      | intro _ | split | dsimp only

theorem State.enterStage_same {u0 : State} (p) (g) (axis) (v)
    (h0 : SameMem r u0) :
    SameMem r (State.enterStage u0 p g axis v) := by
  unfold State.enterStage
  try dsimp only
  repeat' first
      | with_reducible assumption | with_reducible apply State.modColl_same | with_reducible apply State.sendStage_same
      | simp only [↓same_mk] | with_reducible apply same_ite | intro _ | split | dsimp only

theorem State.endColl_same {u0 : State} (g) (v)
    (h0 : SameMem r u0) :
    SameMem r (State.endColl u0 g v) := by
  unfold State.endColl
  try dsimp only
  repeat' first | with_reducible assumption | with_reducible apply State.modColl_same | simp only [↓same_mk] | intro _ | dsimp only

theorem State.nextStage_same {u0 : State} (p) (g) (axes) (v)
    (h0 : SameMem r u0) :
    SameMem r (State.nextStage u0 p g axes v) := by
  unfold State.nextStage
  try dsimp only
  repeat' first
      | with_reducible assumption | with_reducible apply State.enterStage_same | with_reducible apply State.endColl_same
      | simp only [↓same_mk] | with_reducible apply same_ite | intro _ | split | dsimp only

theorem State.closeStage_same {u0 : State} (p) (g)
    (h0 : SameMem r u0) :
    SameMem r (State.closeStage u0 p g) := by
  unfold State.closeStage
  try dsimp only
  repeat' first
      | with_reducible assumption | with_reducible apply State.modColl_same | with_reducible apply State.nextStage_same
      | simp only [↓same_mk] | with_reducible apply same_ite | intro _ | split | dsimp only

theorem State.closeStages_same {u0 : State} (p) (g)
    (h0 : SameMem r u0) :
    SameMem r (State.closeStages u0 p g) := by
  unfold State.closeStages
  try dsimp only
  repeat' first | with_reducible assumption | with_reducible apply State.closeStage_same | intro _ | dsimp only

theorem State.takeStage_same {u0 : State} (p) (d) (es)
    (h0 : SameMem r u0) :
    SameMem r (State.takeStage u0 p d es) := by
  unfold State.takeStage
  try dsimp only
  repeat' first
      | with_reducible assumption | with_reducible apply State.sendStage_same | with_reducible apply State.closeStages_same
      | with_reducible apply State.modColl_same | simp only [↓same_mk] | with_reducible apply same_ite | with_reducible apply same_foldl
      | intro _ | with_reducible apply same_foldl_snd | split | dsimp only

theorem State.discontinuity_same {u0 : State} (refNs)
    (h0 : SameMem r u0) :
    SameMem r (State.discontinuity u0 refNs) := by
  unfold State.discontinuity
  try dsimp only
  repeat' first
      | with_reducible assumption | with_reducible apply State.modTime_same | with_reducible apply State.timeEvent_same
      | simp only [↓same_mk] | with_reducible apply same_ite | intro _ | split | dsimp only

theorem opPointEffect_same (v) (who) (reply) {u3 : State}
    (h3 : SameMem r u3) :
    SameMem r (opPointEffect v who reply u3) := by
  unfold opPointEffect
  try dsimp only
  repeat' first
      | with_reducible assumption | with_reducible apply State.changeOpPoint_same | with_reducible apply State.nvRequest_same
      | with_reducible apply same_ite | intro _ | split | dsimp only

theorem State.request_same {u0 : State} (a1) (x) (index) (sub) (write) (act)
    (h0 : SameMem r u0) (h6 : ∀ x0, SameMem r x0 → SameMem r (act x0)) :
    SameMem r (State.request u0 a1 x index sub write act) := by
  unfold State.request
  try dsimp only
  repeat' first
      | with_reducible assumption | with_reducible apply h6 | with_reducible apply State.sayStatus_same
      | with_reducible apply State.respond_same | simp only [↓same_mk] | with_reducible apply same_ite | intro _ | split | dsimp only

theorem State.bridgeSlot_same {u0 v : State} (p key) (h0 : SameMem r u0) (hv : u0.bridgeSlot p key = some v) : SameMem r v := by
  unfold State.bridgeSlot at hv
  simp only [Option.map_eq_some_iff] at hv
  obtain ⟨i, _, rfl⟩ := hv
  exact State.modStore_same _ h0

theorem State.cross_same {u0 v : State} (p a b) (h0 : SameMem r u0) (hv : u0.cross p a b = some v) : SameMem r v := by
  unfold State.cross at hv
  split at hv
  · cases hv; exact h0
  · split at hv
    · cases hv
    · rename_i w hw
      split at hv
      · cases hv; exact State.bridgeSlot_same _ _ h0 hw
      · exact State.bridgeSlot_same _ _ (State.bridgeSlot_same _ _ h0 hw) hv

theorem State.fromHost_same {u0 v : State} (p edge n) (h0 : SameMem r u0) (hv : u0.fromHost p edge n = some v) : SameMem r v := by
  unfold State.fromHost at hv
  revert hv
  generalize List.range ((n + 511) / 512) = xs
  suffices h : ∀ (acc : Option State), (∀ w, acc = some w → SameMem r w) → ∀ v, xs.foldl (fun acc _ => acc.bind (fun t =>
      if edge = 0 ∨ edge = 3 then (t.bridgeSlot p 4).bind (fun u => u.cross p 3 edge)
      else (t.bridgeSlot p 7).bind (fun u => u.cross p 2 edge))) acc = some v → SameMem r v from
    fun hv => h (some u0) (fun _ hw => by cases hw; exact h0) v hv
  induction xs with
  | nil => exact fun acc ha v hv => ha v hv
  | cons x xs ih =>
    intro acc ha v hv
    refine ih _ (fun w hw => ?_) v hv
    simp only [Option.bind_eq_some_iff] at hw
    obtain ⟨t, ht, hw⟩ := hw
    split at hw
    all_goals
      simp only [Option.bind_eq_some_iff] at hw
      obtain ⟨y, hy, hw⟩ := hw
      exact State.cross_same _ _ _ (State.bridgeSlot_same _ _ (ha _ ht) hy) hw

theorem laneLossEffect_same (n) (send) (pos) {u3 : State}
    (h3 : SameMem r u3) :
    SameMem r (laneLossEffect n send pos u3) := by
  unfold laneLossEffect
  try dsimp only
  repeat' first
      | with_reducible assumption | with_reducible apply State.elementEvent_same | with_reducible apply State.laneRetired_same
      | with_reducible apply same_ite | intro _ | split | dsimp only

theorem State.setFlags_same {u0 : State} (c) (unit) (b)
    (h0 : SameMem r u0) :
    SameMem r (State.setFlags u0 c unit b) := by
  unfold State.setFlags
  try dsimp only
  repeat' first | with_reducible assumption | with_reducible apply State.modCluster_same | simp only [↓same_mk] | intro _ | dsimp only

theorem State.endEntry_same {u0 : State} (q) (status)
    (h0 : SameMem r u0) :
    SameMem r (State.endEntry u0 q status) := by
  unfold State.endEntry
  try dsimp only
  repeat' first | with_reducible assumption | with_reducible apply State.modJob_same | simp only [↓same_mk] | intro _ | dsimp only

theorem psAckEffect_same (d) {u1 : State}
    (h1 : SameMem r u1) :
    SameMem r (psAckEffect d u1) := by
  unfold psAckEffect
  try dsimp only
  repeat' first
      | with_reducible assumption | with_reducible apply State.modJob_same | simp only [↓same_mk] | with_reducible apply same_ite
      | intro _ | split | dsimp only

theorem creditReturnEffect_same (c) (d) (p) {u3 : State}
    (h3 : SameMem r u3) :
    SameMem r (creditReturnEffect c d p u3) := by
  unfold creditReturnEffect
  try dsimp only
  repeat' first
      | with_reducible assumption | with_reducible apply State.feedEdge_same | with_reducible apply State.modFabric_same
      | with_reducible apply State.atFab_same | simp only [↓same_mk] | with_reducible apply same_ite | intro _ | split | dsimp only

theorem coolantEffect_same (flow) (inlet) (outlet) {u3 : State}
    (h3 : SameMem r u3) :
    SameMem r (coolantEffect flow inlet outlet u3) := by
  unfold coolantEffect
  try dsimp only
  repeat' first
      | with_reducible assumption | with_reducible apply State.modPower_same | with_reducible apply State.raiseEvent_same
      | simp only [↓same_mk] | with_reducible apply same_ite | intro _ | split | dsimp only

theorem State.restoreOwners_same {u0 : State}
    (h0 : SameMem r u0) :
    SameMem r (State.restoreOwners u0) := by
  unfold State.restoreOwners
  try dsimp only
  repeat' first
      | with_reducible assumption | with_reducible apply State.modOwner_same | simp only [↓same_mk] | with_reducible apply same_ite
      | with_reducible apply same_foldl | intro _ | with_reducible apply same_foldl_snd | split | dsimp only

theorem State.actOn_same {u0 : State} (x) (o)
    (h0 : SameMem r u0) :
    SameMem r (State.actOn u0 x o) := by
  unfold State.actOn
  try dsimp only
  repeat' first
      | with_reducible assumption | with_reducible apply State.clusterFault_same | with_reducible apply State.modFabric_same
      | simp only [↓same_mk] | with_reducible apply same_ite | intro _ | split | dsimp only

theorem flitArrivalEffect_same (c) (d) (upset) {u3 : State}
    (h3 : SameMem r u3) :
    SameMem r (flitArrivalEffect c d upset u3) := by
  unfold flitArrivalEffect
  try dsimp only
  repeat' first
      | with_reducible assumption | with_reducible apply State.modFabric_same | with_reducible apply State.atFab_same
      | with_reducible apply State.fabricFault_same | with_reducible apply State.actOn_same
      | with_reducible apply State.tableParity_same | simp only [↓same_mk] | with_reducible apply same_ite
      | with_reducible apply same_foldl | intro _ | with_reducible apply same_foldl_snd | split | dsimp only

theorem laneMapEffect_same (slot) (d) (i) (lane) {u4 : State}
    (h4 : SameMem r u4) :
    SameMem r (laneMapEffect slot d i lane u4) := by
  unfold laneMapEffect
  try dsimp only
  repeat' first
      | with_reducible assumption | with_reducible apply State.advance_same | with_reducible apply State.closeRecord_same
      | with_reducible apply State.modFabric_same | simp only [↓same_mk] | with_reducible apply same_ite | intro _ | split | dsimp only

theorem sqWriteEffect_same (q) (e) (data) (tags) {u4 : State}
    (h4 : SameMem r u4) :
    SameMem r (sqWriteEffect q e data tags u4) := by
  unfold sqWriteEffect
  try dsimp only
  repeat' first
      | with_reducible assumption | with_reducible apply State.takeEntry_same | with_reducible apply State.endEntry_same
      | with_reducible apply State.hostRequests_same | with_reducible apply State.useSeal_same | with_reducible apply same_ite | intro _
      | split | dsimp only

theorem State.tileGens_same {u0 : State} (c)
    (h0 : SameMem r u0) :
    SameMem r (State.tileGens u0 c) := by
  unfold State.tileGens
  try dsimp only
  repeat' first
      | with_reducible assumption | with_reducible apply State.modCluster_same | with_reducible apply State.setGen_same
      | simp only [↓same_mk] | with_reducible apply same_ite | with_reducible apply same_foldl | intro _
      | with_reducible apply same_foldl_snd | split | dsimp only

theorem fastClampEffect_same (s0) (s1) (s2) {u3 : State}
    (h3 : SameMem r u3) :
    SameMem r (fastClampEffect s0 s1 s2 u3) := by
  unfold fastClampEffect
  try dsimp only
  repeat' first
      | with_reducible assumption | with_reducible apply State.modPower_same | with_reducible apply State.powerEvent_same
      | simp only [↓same_mk] | with_reducible apply same_ite | intro _ | split | dsimp only

theorem finishEffect_same (n) (opens) (cipher) {u3 : State}
    (h3 : SameMem r u3) :
    SameMem r (finishEffect n opens cipher u3) := by
  unfold finishEffect
  try dsimp only
  repeat' first
      | with_reducible assumption | with_reducible apply State.refuseSession_same | with_reducible apply State.modPort_same
      | with_reducible apply State.emit_same | with_reducible apply State.sendNotice_same | simp only [↓same_mk]
      | with_reducible apply same_ite | intro _ | split | dsimp only

theorem State.select_same {u0 : State} (sel) (src)
    (h0 : SameMem r u0) :
    SameMem r (State.select u0 sel src) := by
  unfold State.select
  try dsimp only
  repeat' first
      | with_reducible assumption | with_reducible apply State.modClk_same | simp only [↓same_mk] | with_reducible apply same_ite
      | intro _ | split | dsimp only

theorem switchEffect_same (sel) (src) {u2 : State}
    (h2 : SameMem r u2) :
    SameMem r (switchEffect sel src u2) := by
  unfold switchEffect
  try dsimp only
  repeat' first
      | with_reducible assumption | with_reducible apply State.modClk_same | with_reducible apply State.select_same
      | simp only [↓same_mk] | with_reducible apply same_ite | intro _ | split | dsimp only

theorem State.seeTag_same {u0 : State} (tag) (depth)
    (h0 : SameMem r u0) :
    SameMem r (State.seeTag u0 tag depth) := by
  unfold State.seeTag
  try dsimp only
  repeat' first
      | with_reducible assumption | with_reducible apply State.modTime_same | simp only [↓same_mk] | with_reducible apply same_ite
      | intro _ | split | dsimp only

theorem State.rewalk_same {u0 : State} (c) (x)
    (h0 : SameMem r u0) :
    SameMem r (State.rewalk u0 c x).2 := by
  unfold State.rewalk
  try dsimp only
  repeat' first
      | with_reducible assumption | with_reducible apply State.readWords_same | with_reducible apply same_ite | intro _ | split
      | dsimp only

theorem State.modReq_same {u0 : State} (i) (f)
    (h0 : SameMem r u0) :
    SameMem r (State.modReq u0 i f) := by
  unfold State.modReq
  try dsimp only
  repeat' first | with_reducible assumption | with_reducible apply State.modStore_same | simp only [↓same_mk] | intro _ | dsimp only

theorem State.ueFault_same {u0 : State} (stack) (p) (cause)
    (h0 : SameMem r u0) :
    SameMem r (State.ueFault u0 stack p cause) := by
  unfold State.ueFault
  try dsimp only
  repeat' first
      | with_reducible assumption | with_reducible apply State.modUep_same | with_reducible apply State.modStack_same
      | with_reducible apply State.raiseStop_same | with_reducible apply State.log_same | simp only [↓same_mk]
      | with_reducible apply same_ite | intro _ | split | dsimp only

theorem State.ageOthers_same {u0 : State} (stack) (pch) (p) (i)
    (h0 : SameMem r u0) :
    SameMem r (State.ageOthers u0 stack pch p i) := by
  unfold State.ageOthers
  try dsimp only
  repeat' first
      | with_reducible assumption | with_reducible apply State.modStore_same | simp only [↓same_mk] | with_reducible apply same_ite
      | intro _ | split | dsimp only

theorem State.setRound_same {u0 : State} (stack) (pch) (n)
    (h0 : SameMem r u0) :
    SameMem r (State.setRound u0 stack pch n) := by
  unfold State.setRound
  try dsimp only
  repeat' first | with_reducible assumption | with_reducible apply State.modStore_same | simp only [↓same_mk] | intro _ | dsimp only

theorem State.takeRound_same {u0 : State} (stack) (pch) (p) (i)
    (h0 : SameMem r u0) :
    SameMem r (State.takeRound u0 stack pch p i) := by
  unfold State.takeRound
  try dsimp only
  repeat' first
      | with_reducible assumption | with_reducible apply State.ageOthers_same | with_reducible apply State.setRound_same | intro _
      | dsimp only

theorem State.ueMismatches_same {u0 : State} (stack) (p) (n)
    (h0 : SameMem r u0) :
    SameMem r (State.ueMismatches u0 stack p n).2 := by
  unfold State.ueMismatches
  try dsimp only
  repeat' first
      | with_reducible assumption | with_reducible apply State.modStack_same | with_reducible apply State.elementEvent_same
      | with_reducible apply State.count_same | with_reducible apply State.ueFault_same | simp only [↓same_mk]
      | with_reducible apply same_ite | with_reducible apply same_foldl | intro _ | with_reducible apply same_foldl_snd | split
      | dsimp only

theorem psPushEffect_same (q) (e) {u2 : State}
    (h2 : SameMem r u2) :
    SameMem r (psPushEffect q e u2) := by
  unfold psPushEffect
  try dsimp only
  repeat' first
      | with_reducible assumption | with_reducible apply State.takeEntry_same | with_reducible apply State.endEntry_same
      | with_reducible apply State.hostRequests_same | with_reducible apply same_ite | intro _ | split | dsimp only

theorem refusedRetryEffect_same (n) {u1 : State}
    (h1 : SameMem r u1) :
    SameMem r (refusedRetryEffect n u1) := by
  unfold refusedRetryEffect
  try dsimp only
  repeat' first
      | with_reducible assumption | with_reducible apply State.atNs_same | with_reducible apply State.modPort_same
      | simp only [↓same_mk] | with_reducible apply same_ite | intro _ | split | dsimp only

theorem State.atTorus_same {u0 : State} (ns)
    (h0 : SameMem r u0) :
    SameMem r (State.atTorus u0 ns) := by
  unfold State.atTorus
  try dsimp only
  repeat' first
      | with_reducible assumption | with_reducible apply State.advance_same | with_reducible apply same_ite | intro _ | split
      | dsimp only

theorem intervalEndEffect_same (p) {u1 : State}
    (h1 : SameMem r u1) :
    SameMem r (intervalEndEffect p u1) := by
  unfold intervalEndEffect
  try dsimp only
  repeat' first
      | with_reducible assumption | with_reducible apply State.atTorus_same | with_reducible apply State.modIdle_same
      | with_reducible apply same_ite | intro _ | split | dsimp only

theorem flagReadEffect_same (session) (index) (sub) {u3 : State}
    (h3 : SameMem r u3) :
    SameMem r (flagReadEffect session index sub u3) := by
  unfold flagReadEffect
  try dsimp only
  repeat' first
      | with_reducible assumption | with_reducible apply State.setLatch_same | with_reducible apply State.emit_same
      | simp only [↓same_mk] | with_reducible apply same_ite | intro _ | split | dsimp only

theorem streamEffect_same (c) (a1) (d) {u3 : State}
    (h3 : SameMem r u3) :
    SameMem r (streamEffect c a1 d u3) := by
  unfold streamEffect
  try dsimp only
  repeat' first | with_reducible assumption | with_reducible apply State.submit_same | intro _ | dsimp only

theorem State.listPoison_same {u0 : State} (stack) (p) (page) (blk)
    (h0 : SameMem r u0) :
    SameMem r (State.listPoison u0 stack p page blk) := by
  unfold State.listPoison
  try dsimp only
  repeat' first
      | with_reducible assumption | with_reducible apply State.modUep_same | simp only [↓same_mk] | with_reducible apply same_ite
      | intro _ | split | dsimp only

theorem State.noteCopySel_same {u0 : State} (a1)
    (h0 : SameMem r u0) :
    SameMem r (State.noteCopySel u0 a1) := by
  unfold State.noteCopySel
  try dsimp only
  repeat' first
      | with_reducible assumption | with_reducible apply State.modHostQ_same | simp only [↓same_mk] | with_reducible apply same_ite
      | intro _ | split | dsimp only

theorem State.refuseReq_same {u0 : State} (i) (a2)
    (h0 : SameMem r u0) :
    SameMem r (State.refuseReq u0 i a2) := by
  unfold State.refuseReq
  try dsimp only
  repeat' first
      | with_reducible assumption | with_reducible apply State.modReq_same | with_reducible apply State.count_same
      | with_reducible apply State.modStack_same | simp only [↓same_mk] | intro _ | dsimp only

theorem State.sendUnseq_same {u0 : State} (n) (ty) (len) (pl)
    (h0 : SameMem r u0) :
    SameMem r (State.sendUnseq u0 n ty len pl) := by
  unfold State.sendUnseq
  try dsimp only
  repeat' first
      | with_reducible assumption | with_reducible apply State.emit_same | with_reducible apply State.modPort_same
      | simp only [↓same_mk] | with_reducible apply same_ite | intro _ | split | dsimp only

theorem State.sendNak_same {u0 : State} (n)
    (h0 : SameMem r u0) :
    SameMem r (State.sendNak u0 n) := by
  unfold State.sendNak
  try dsimp only
  repeat' first
      | with_reducible assumption | with_reducible apply State.modPort_same | with_reducible apply State.sendUnseq_same
      | simp only [↓same_mk] | intro _ | dsimp only

theorem nakRepeatEffect_same (n) {u1 : State}
    (h1 : SameMem r u1) :
    SameMem r (nakRepeatEffect n u1) := by
  unfold nakRepeatEffect
  try dsimp only
  repeat' first
      | with_reducible assumption | with_reducible apply State.sendNak_same | with_reducible apply State.atNs_same
      | simp only [↓same_mk] | with_reducible apply same_ite | intro _ | split | dsimp only

theorem counterReadEffect_same (session) (index) (sub) {u3 : State}
    (h3 : SameMem r u3) :
    SameMem r (counterReadEffect session index sub u3) := by
  unfold counterReadEffect
  try dsimp only
  repeat' first
      | with_reducible assumption | with_reducible apply State.emit_same | with_reducible apply State.setLatch_same
      | simp only [↓same_mk] | intro _ | dsimp only

theorem State.block_same {u0 : State} (p) (cause)
    (h0 : SameMem r u0) :
    SameMem r (State.block u0 p cause) := by
  unfold State.block
  try dsimp only
  repeat' first | with_reducible assumption | with_reducible apply State.modBind_same | simp only [↓same_mk] | intro _ | dsimp only

theorem State.arriveMany_same {u0 : State} (o) (k)
    (h0 : SameMem r u0) :
    SameMem r (State.arriveMany u0 o k) := by
  unfold State.arriveMany
  try dsimp only
  repeat' first
      | with_reducible assumption | with_reducible apply State.arrive_same | with_reducible apply same_foldl | intro _
      | with_reducible apply same_foldl_snd | dsimp only

theorem State.addLanded_same {u0 : State} (a1) (n)
    (h0 : SameMem r u0) :
    SameMem r (State.addLanded u0 a1 n) := by
  unfold State.addLanded
  try dsimp only
  repeat' first
      | with_reducible assumption | with_reducible apply State.modPort_same | simp only [↓same_mk] | with_reducible apply same_ite
      | intro _ | split | dsimp only

theorem State.afterLanding_same {u0 : State} (c) (a2) (n) (last)
    (h0 : SameMem r u0) :
    SameMem r (State.afterLanding u0 c a2 n last) := by
  unfold State.afterLanding
  try dsimp only
  repeat' first
      | with_reducible assumption | with_reducible apply State.arriveMany_same | with_reducible apply State.addLanded_same
      | with_reducible apply State.modHostQ_same | with_reducible apply State.modPort_same | with_reducible apply State.queueFrame_same
      | simp only [↓same_mk] | with_reducible apply same_ite | intro _ | split | dsimp only

theorem lossEffect_same (n) {u1 : State}
    (h1 : SameMem r u1) :
    SameMem r (lossEffect n u1) := by
  unfold lossEffect
  try dsimp only
  repeat' first
      | with_reducible assumption | with_reducible apply State.count_same | with_reducible apply State.modPort_same
      | simp only [↓same_mk] | with_reducible apply same_ite | intro _ | split | dsimp only

theorem State.replayTile_same {u0 : State} (c) (o) (kept) (poison)
    (h0 : SameMem r u0) :
    SameMem r (State.replayTile u0 c o kept poison).2 := by
  unfold State.replayTile
  try dsimp only
  repeat' first
      | with_reducible assumption | with_reducible apply State.readWords_same | simp only [↓same_mk] | with_reducible apply same_ite
      | with_reducible apply same_foldl | intro _ | with_reducible apply same_foldl_snd | split | dsimp only

theorem State.replayMatched_same {u0 : State} (c) (p)
    (h0 : SameMem r u0) :
    SameMem r (State.replayMatched u0 c p) := by
  unfold State.replayMatched
  try dsimp only
  repeat' first
      | with_reducible assumption | with_reducible apply State.modCluster_same | with_reducible apply State.tileGens_same
      | with_reducible apply State.modPart_same | simp only [↓same_mk] | with_reducible apply same_ite | intro _ | split | dsimp only

theorem replayGroupEffect_same (c) (p) (a2) (o) (g) {u5 : State}
    (h5 : SameMem r u5) :
    SameMem r (replayGroupEffect c p a2 o g u5) := by
  unfold replayGroupEffect
  try dsimp only
  repeat' first
      | with_reducible assumption | with_reducible apply State.count_same | with_reducible apply State.atFab_same
      | with_reducible apply State.mismatch_same | with_reducible apply State.replayLimit_same
      | with_reducible apply State.replayAgain_same | with_reducible apply State.modOp_same
      | with_reducible apply State.replayMatched_same | simp only [↓same_mk] | with_reducible apply same_ite | intro _ | split
      | dsimp only

theorem stageEntryEffect_same (p) (g) {u2 : State}
    (h2 : SameMem r u2) :
    SameMem r (stageEntryEffect p g u2) := by
  unfold stageEntryEffect
  try dsimp only
  repeat' first
      | with_reducible assumption | with_reducible apply State.modColl_same | with_reducible apply State.modGroup_same
      | with_reducible apply State.closeStages_same | with_reducible apply State.nextStage_same | simp only [↓same_mk]
      | with_reducible apply same_ite | intro _ | split | dsimp only

theorem exportWaitEffect_same (stack) (p) {u2 : State}
    (h2 : SameMem r u2) :
    SameMem r (exportWaitEffect stack p u2) := by
  unfold exportWaitEffect
  try dsimp only
  repeat' first
      | with_reducible assumption | with_reducible apply State.modUep_same | simp only [↓same_mk] | with_reducible apply same_ite
      | intro _ | split | dsimp only

theorem State.enterRing_same {u0 : State} (p) (ctx) (idx) (link) (ws) (last)
    (h0 : SameMem r u0) :
    SameMem r (State.enterRing u0 p ctx idx link ws last) := by
  unfold State.enterRing
  try dsimp only
  repeat' first
      | with_reducible assumption | with_reducible apply State.modCtx_same | with_reducible apply State.modStore_same
      | simp only [↓same_mk] | with_reducible apply same_ite | intro _ | split | dsimp only

theorem State.sendElastic_same {u0 : State} (c) (d) (p) (e) (x) (err)
    (h0 : SameMem r u0) :
    SameMem r (State.sendElastic u0 c d p e x err) := by
  unfold State.sendElastic
  try dsimp only
  repeat' first
      | with_reducible assumption | with_reducible apply State.modFabric_same | with_reducible apply State.popQueue_same
      | with_reducible apply State.landWords_same | with_reducible apply State.enterRing_same | simp only [↓same_mk]
      | with_reducible apply same_ite | with_reducible apply same_foldl | intro _ | with_reducible apply same_foldl_snd | split
      | dsimp only

theorem elasticSendEffect_same (c) (d) (upset) (err) {u4 : State}
    (h4 : SameMem r u4) :
    SameMem r (elasticSendEffect c d upset err u4) := by
  unfold elasticSendEffect
  try dsimp only
  repeat' first
      | with_reducible assumption | with_reducible apply State.checkIdle_same | with_reducible apply State.markSlot_same
      | with_reducible apply State.advance_same | with_reducible apply State.tableParity_same
      | with_reducible apply State.sendElastic_same | simp only [↓same_mk] | with_reducible apply same_ite | intro _ | split
      | dsimp only

theorem holdReleaseEffect_same (p) {u1 : State}
    (h1 : SameMem r u1) :
    SameMem r (holdReleaseEffect p u1) := by
  unfold holdReleaseEffect
  try dsimp only
  repeat' first
      | with_reducible assumption | with_reducible apply State.atFab_same | with_reducible apply State.eachCluster_same
      | with_reducible apply State.overClusters_same | with_reducible apply State.thawGens_same
      | with_reducible apply State.modPart_same | simp only [↓same_mk] | with_reducible apply same_ite | intro _ | split | dsimp only

theorem timerExpiryEffect_same (c) (k) {u2 : State}
    (h2 : SameMem r u2) :
    SameMem r (timerExpiryEffect c k u2) := by
  unfold timerExpiryEffect
  try dsimp only
  repeat' first
      | with_reducible assumption | with_reducible apply State.haltCtx_same | with_reducible apply State.modCtx_same
      | with_reducible apply State.atPart_same | simp only [↓same_mk] | with_reducible apply same_ite | intro _ | split | dsimp only

theorem losTimeoutEffect_same (n) {u1 : State}
    (h1 : SameMem r u1) :
    SameMem r (losTimeoutEffect n u1) := by
  unfold losTimeoutEffect
  try dsimp only
  repeat' first
      | with_reducible assumption | with_reducible apply State.sessionLost_same | with_reducible apply State.atNs_same
      | with_reducible apply same_ite | intro _ | split | dsimp only

theorem State.sendLast_same {u0 : State} (c) (o)
    (h0 : SameMem r u0) :
    SameMem r (State.sendLast u0 c o) := by
  unfold State.sendLast
  try dsimp only
  repeat' first
      | with_reducible assumption | with_reducible apply State.arrive_same | with_reducible apply State.atPart_same
      | simp only [↓same_mk] | with_reducible apply same_ite | intro _ | split | dsimp only

theorem cHelloEffect_same (client) (frag) (count) (keyHash) (nonce) {u5 : State}
    (h5 : SameMem r u5) :
    SameMem r (cHelloEffect client frag count keyHash nonce u5) := by
  unfold cHelloEffect
  try dsimp only
  repeat' first
      | with_reducible assumption | with_reducible apply State.modMaunvo_same | with_reducible apply State.emit_same
      | simp only [↓same_mk] | with_reducible apply same_ite | intro _ | split | dsimp only

theorem abortEffect_same (a0) (target) {u2 : State}
    (h2 : SameMem r u2) :
    SameMem r (abortEffect a0 target u2) := by
  unfold abortEffect
  try dsimp only
  repeat' first
      | with_reducible assumption | with_reducible apply State.modMaunvo_same | with_reducible apply State.modSession_same
      | with_reducible apply State.respond_same | simp only [↓same_mk] | with_reducible apply same_ite | intro _ | split | dsimp only

theorem retrainTimeoutEffect_same (n) {u1 : State}
    (h1 : SameMem r u1) :
    SameMem r (retrainTimeoutEffect n u1) := by
  unfold retrainTimeoutEffect
  try dsimp only
  repeat' first
      | with_reducible assumption | with_reducible apply State.portLost_same | with_reducible apply State.atNs_same
      | with_reducible apply same_ite | intro _ | split | dsimp only

theorem setBoundary_same (v) {u1 : State}
    (h1 : SameMem r u1) :
    SameMem r (setBoundary v u1) := by
  unfold setBoundary
  try dsimp only
  repeat' first | with_reducible assumption | with_reducible apply State.modPins_same | simp only [↓same_mk] | intro _ | dsimp only

theorem relockTimeoutEffect_same {u0 : State}
    (h0 : SameMem r u0) :
    SameMem r (relockTimeoutEffect u0) := by
  unfold relockTimeoutEffect
  try dsimp only
  repeat' first
      | with_reducible assumption | with_reducible apply State.modClk_same | with_reducible apply State.atNs_same | simp only [↓same_mk]
      | with_reducible apply same_ite | intro _ | split | dsimp only

theorem State.hostLinkOff_same {u0 : State}
    (h0 : SameMem r u0) :
    SameMem r (State.hostLinkOff u0) := by
  unfold State.hostLinkOff
  try dsimp only
  repeat' first | with_reducible assumption | with_reducible apply State.disableAll_same | simp only [↓same_mk] | intro _ | dsimp only

theorem State.drive_same {u0 : State}
    (h0 : SameMem r u0) :
    SameMem r (State.drive u0) := by
  unfold State.drive
  try dsimp only
  repeat' first
      | with_reducible assumption | with_reducible apply State.hostLinkOff_same | with_reducible apply same_ite | intro _ | split
      | dsimp only

theorem requestArrivalEffect_same (stack) (p) {u2 : State}
    (h2 : SameMem r u2) :
    SameMem r (requestArrivalEffect stack p u2) := by
  unfold requestArrivalEffect
  dsimp only
  split
  · exact h2
  split
  · exact h2
  rename_i hv
  exact State.modReq_same _ _ (State.cross_same _ _ _ h2 hv)

theorem State.finishOp_same {u0 : State} (c) (unit) (o)
    (h0 : SameMem r u0) :
    SameMem r (State.finishOp u0 c unit o) := by
  unfold State.finishOp
  try dsimp only
  repeat' first
      | with_reducible assumption | with_reducible apply State.checkEnd_same | with_reducible apply State.sendLast_same
      | with_reducible apply State.setFlags_same | with_reducible apply State.dropOp_same | intro _ | dsimp only

theorem State.holdUp_same {u0 : State}
    (h0 : SameMem r u0) :
    SameMem r (State.holdUp u0) := by
  unfold State.holdUp
  try dsimp only
  repeat' first
      | with_reducible assumption | with_reducible apply State.nvStore_same | with_reducible apply State.nvCut_same
      | simp only [↓same_mk] | with_reducible apply same_ite | intro _ | split | dsimp only

theorem State.domainOff_same {u0 : State} (d)
    (h0 : SameMem r u0) :
    SameMem r (State.domainOff u0 d) := by
  unfold State.domainOff
  try dsimp only
  repeat' first
      | with_reducible assumption | with_reducible apply State.modDomain_same | with_reducible apply State.clusterFault_same
      | simp only [↓same_mk] | with_reducible apply same_foldl | intro _ | with_reducible apply same_foldl_snd | dsimp only

theorem State.passMismatches_same {u0 : State} (stack) (p) (ns)
    (h0 : SameMem r u0) :
    SameMem r (State.passMismatches u0 stack p ns).2 := by
  induction ns generalizing u0 with
  | nil => exact h0
  | cons n ns ih =>
    unfold State.passMismatches
    dsimp only
    split
    · exact State.ueMismatches_same _ _ _ h0
    · exact ih (State.ueMismatches_same _ _ _ h0)

theorem gapEffect_same (session) (index) (sub) {u3 : State}
    (h3 : SameMem r u3) :
    SameMem r (gapEffect session index sub u3) := by
  unfold gapEffect
  try dsimp only
  repeat' first
      | with_reducible assumption | with_reducible apply State.modSession_same | with_reducible apply State.atNs_same
      | with_reducible apply State.respond_same | simp only [↓same_mk] | with_reducible apply same_ite | intro _ | split | dsimp only

theorem State.groupArrive_same {u0 : State} (g) (at_) (payload)
    (h0 : SameMem r u0) :
    SameMem r (State.groupArrive u0 g at_ payload) := by
  unfold State.groupArrive
  try dsimp only
  repeat' first
      | with_reducible assumption | with_reducible apply State.modGroup_same | simp only [↓same_mk] | with_reducible apply same_ite
      | intro _ | split | dsimp only

theorem groupArrivalEffect_same (o) {u1 : State}
    (h1 : SameMem r u1) :
    SameMem r (groupArrivalEffect o u1) := by
  unfold groupArrivalEffect
  try dsimp only
  repeat' first
      | with_reducible assumption | with_reducible apply State.groupArrive_same | with_reducible apply State.modSync_same
      | simp only [↓same_mk] | with_reducible apply same_ite | intro _ | split | dsimp only

theorem State.goBack_same {u0 : State} (n)
    (h0 : SameMem r u0) :
    SameMem r (State.goBack u0 n) := by
  unfold State.goBack
  try dsimp only
  repeat' first
      | with_reducible assumption | with_reducible apply State.retrain_same | with_reducible apply State.count_same
      | with_reducible apply State.modPort_same | with_reducible apply State.emit_same | simp only [↓same_mk]
      | with_reducible apply same_ite | with_reducible apply same_foldl | intro _ | with_reducible apply same_foldl_snd | split
      | dsimp only

theorem pinTimeoutEffect_same (g) {u1 : State}
    (h1 : SameMem r u1) :
    SameMem r (pinTimeoutEffect g u1) := by
  unfold pinTimeoutEffect
  try dsimp only
  repeat' first
      | with_reducible assumption | with_reducible apply State.atNs_same | with_reducible apply State.answerLater_same
      | with_reducible apply State.modPinGroup_same | with_reducible apply State.pinNext_same | simp only [↓same_mk]
      | with_reducible apply same_ite | intro _ | split | dsimp only

theorem State.prioArrives_same {u0 : State} (stack)
    (h0 : SameMem r u0) :
    SameMem r (State.prioArrives u0 stack) := by
  unfold State.prioArrives
  try dsimp only
  repeat' first
      | with_reducible assumption | with_reducible apply State.modStore_same | simp only [↓same_mk] | with_reducible apply same_ite
      | with_reducible apply same_foldl | intro _ | with_reducible apply same_foldl_snd | split | dsimp only

theorem drainCompleteEffect_same (c) (k) {u2 : State}
    (h2 : SameMem r u2) :
    SameMem r (drainCompleteEffect c k u2) := by
  unfold drainCompleteEffect
  try dsimp only
  repeat' first
      | with_reducible assumption | with_reducible apply State.modCtx_same | simp only [↓same_mk] | with_reducible apply same_ite
      | intro _ | split | dsimp only

theorem State.readIndex_same {u0 : State} (c) (w) (k)
    (h0 : SameMem r u0) :
    SameMem r (State.readIndex u0 c w k).2 := by
  unfold State.readIndex
  try dsimp only
  repeat' first | with_reducible assumption | with_reducible apply State.readWords_same | intro _ | dsimp only

theorem localReleaseEffect_same (o) {u1 : State}
    (h1 : SameMem r u1) :
    SameMem r (localReleaseEffect o u1) := by
  unfold localReleaseEffect
  try dsimp only
  repeat' first
      | with_reducible assumption | with_reducible apply State.modSync_same | with_reducible apply State.atPart_same
      | with_reducible apply State.deliverPhase_same | simp only [↓same_mk] | with_reducible apply same_ite | intro _ | split
      | dsimp only

theorem State.takeHeader_same {u0 : State} (n) (f)
    (h0 : SameMem r u0) :
    SameMem r (State.takeHeader u0 n f) := by
  unfold State.takeHeader
  try dsimp only
  repeat' first
      | with_reducible assumption | with_reducible apply State.modPort_same | simp only [↓same_mk] | with_reducible apply same_ite
      | intro _ | split | dsimp only

theorem resumeEffect_same (n) (f) (rx) {u3 : State}
    (h3 : SameMem r u3) :
    SameMem r (resumeEffect n f rx u3) := by
  unfold resumeEffect
  try dsimp only
  repeat' first
      | with_reducible assumption | with_reducible apply State.modPort_same | with_reducible apply State.takeHeader_same
      | with_reducible apply State.goBack_same | with_reducible apply State.sessionLost_same | simp only [↓same_mk]
      | with_reducible apply same_ite | intro _ | split | dsimp only

theorem State.steer_same {u0 : State} (n) (send) (bad)
    (h0 : SameMem r u0) :
    SameMem r (State.steer u0 n send bad) := by
  unfold State.steer
  try dsimp only
  repeat' first
      | with_reducible assumption | with_reducible apply State.modPort_same | with_reducible apply State.closeRecord_same
      | simp only [↓same_mk] | with_reducible apply same_ite | intro _ | split | dsimp only

theorem State.saveCounters_same {u0 : State}
    (h0 : SameMem r u0) :
    SameMem r (State.saveCounters u0) := by
  unfold State.saveCounters
  try dsimp only
  repeat' first
      | with_reducible assumption | with_reducible apply State.nvPut_same | simp only [↓same_mk] | with_reducible apply same_ite
      | intro _ | split | dsimp only

theorem State.keepHardware_same {u0 : State} {u1 : State}
    (h1 : SameMem r u1) :
    SameMem r (State.keepHardware u0 u1) := by
  unfold State.keepHardware
  try dsimp only
  repeat' first
      | with_reducible assumption | simp only [↓same_mk] | with_reducible apply same_ite | with_reducible apply same_foldl | intro _
      | with_reducible apply same_foldl_snd | split | dsimp only

theorem linkLostEffect_same (c) (d) {u2 : State}
    (h2 : SameMem r u2) :
    SameMem r (linkLostEffect c d u2) := by
  unfold linkLostEffect
  try dsimp only
  repeat' first
      | with_reducible assumption | with_reducible apply State.loseLink_same | simp only [↓same_mk] | with_reducible apply same_ite
      | intro _ | split | dsimp only

theorem phaseFaultEffect_same (c) (d) (separation) {u3 : State}
    (h3 : SameMem r u3) :
    SameMem r (phaseFaultEffect c d separation u3) := by
  unfold phaseFaultEffect
  try dsimp only
  repeat' first
      | with_reducible assumption | with_reducible apply linkLostEffect_same | with_reducible apply State.elementEvent_same
      | with_reducible apply same_ite | intro _ | split | dsimp only

theorem State.checkCurrent_same {u0 : State} (c) (k)
    (h0 : SameMem r u0) :
    SameMem r (State.checkCurrent u0 c k) := by
  unfold State.checkCurrent
  try dsimp only
  repeat' first
      | with_reducible assumption | with_reducible apply State.haltCtx_same | simp only [↓same_mk] | with_reducible apply same_ite
      | intro _ | split | dsimp only

theorem peerTimeoutEffect_same (q) {u1 : State}
    (h1 : SameMem r u1) :
    SameMem r (peerTimeoutEffect q u1) := by
  unfold peerTimeoutEffect
  try dsimp only
  repeat' first
      | with_reducible assumption | with_reducible apply State.atNs_same | with_reducible apply State.endEntry_same
      | with_reducible apply State.modStore_same | simp only [↓same_mk] | with_reducible apply same_ite | intro _ | split | dsimp only

theorem State.recoverClock_same {u0 : State} (n)
    (h0 : SameMem r u0) :
    SameMem r (State.recoverClock u0 n) := by
  unfold State.recoverClock
  try dsimp only
  repeat' first | with_reducible assumption | simp only [↓same_mk] | intro _ | dsimp only

theorem quantEffect_same (c) (a1) (d) {u3 : State}
    (h3 : SameMem r u3) :
    SameMem r (quantEffect c a1 d u3) := by
  unfold quantEffect
  try dsimp only
  repeat' first
      | with_reducible assumption | with_reducible apply State.setGen_same | with_reducible apply State.submit_same
      | simp only [↓same_mk] | intro _ | dsimp only

theorem State.sendPs_same {u0 : State} (port) (q) (off) (j)
    (h0 : SameMem r u0) :
    SameMem r (State.sendPs u0 port q off j) := by
  unfold State.sendPs
  try dsimp only
  repeat' first
      | with_reducible assumption | with_reducible apply State.modJob_same | with_reducible apply State.sendDatagram_same
      | simp only [↓same_mk] | with_reducible apply same_ite | intro _ | split | dsimp only

theorem State.failInput_same {u0 : State}
    (h0 : SameMem r u0) :
    SameMem r (State.failInput u0) := by
  unfold State.failInput
  try dsimp only
  repeat' first
      | with_reducible assumption | with_reducible apply State.lightsOut_same | with_reducible apply State.raiseStopAll_same
      | with_reducible apply State.holdUp_same | with_reducible apply State.nvPut_same | with_reducible apply State.modPower_same
      | simp only [↓same_mk] | intro _ | dsimp only

theorem State.nextPeriod_same {u0 : State} (period)
    (h0 : SameMem r u0) :
    SameMem r (State.nextPeriod u0 period) := by
  unfold State.nextPeriod
  try dsimp only
  repeat' first | with_reducible assumption | with_reducible apply State.atNs_same | intro _ | dsimp only

theorem powerTickEffect_same (vin) (pf) (tmax) {u3 : State}
    (h3 : SameMem r u3) :
    SameMem r (powerTickEffect vin pf tmax u3) := by
  unfold powerTickEffect
  try dsimp only
  repeat' first
      | with_reducible assumption | with_reducible apply State.nextPeriod_same | with_reducible apply State.raiseStopAll_same
      | with_reducible apply State.powerEvent_same | simp only [↓same_mk] | with_reducible apply same_ite | intro _ | split | dsimp only

theorem pendingEffect_same (session) (reqId) {u2 : State}
    (h2 : SameMem r u2) :
    SameMem r (pendingEffect session reqId u2) := by
  unfold pendingEffect
  try dsimp only
  repeat' first
      | with_reducible assumption | with_reducible apply State.atNs_same | with_reducible apply State.modSession_same
      | with_reducible apply State.sayStatus_same | simp only [↓same_mk] | with_reducible apply same_ite | intro _ | split | dsimp only

theorem resendEffect_same (session) {u1 : State}
    (h1 : SameMem r u1) :
    SameMem r (resendEffect session u1) := by
  unfold resendEffect
  try dsimp only
  repeat' first
      | with_reducible assumption | with_reducible apply State.atNs_same | with_reducible apply State.modSession_same
      | simp only [↓same_mk] | with_reducible apply same_ite | intro _ | split | dsimp only

theorem State.becomeRoot_same {u0 : State}
    (h0 : SameMem r u0) :
    SameMem r (State.becomeRoot u0) := by
  unfold State.becomeRoot
  try dsimp only
  repeat' first | with_reducible assumption | with_reducible apply State.modTime_same | simp only [↓same_mk] | intro _ | dsimp only

theorem storedWriteEffect_same (ty) (a1) (payload) (who) {u4 : State}
    (h4 : SameMem r u4) :
    SameMem r (storedWriteEffect ty a1 payload who u4) := by
  unfold storedWriteEffect
  try dsimp only
  repeat' first
      | with_reducible assumption | with_reducible apply State.nvRequest_same | with_reducible apply same_ite | intro _ | split
      | dsimp only

theorem State.tagFailed_same {u0 : State} (n)
    (h0 : SameMem r u0) :
    SameMem r (State.tagFailed u0 n) := by
  unfold State.tagFailed
  try dsimp only
  repeat' first
      | with_reducible assumption | with_reducible apply State.count_same | with_reducible apply State.modPort_same
      | with_reducible apply State.elementEvent_same | with_reducible apply State.sessionLost_same | simp only [↓same_mk]
      | with_reducible apply same_ite | intro _ | split | dsimp only

theorem State.screen_same {u0 : State} (n) (f) (rx) (sequenced)
    (h0 : SameMem r u0) :
    SameMem r (State.screen u0 n f rx sequenced).2 := by
  unfold State.screen
  try dsimp only
  repeat' first
      | with_reducible assumption | with_reducible apply State.sendNak_same | with_reducible apply State.codewordBad_same
      | with_reducible apply State.tagFailed_same | with_reducible apply State.takeHeader_same | with_reducible apply State.modPort_same
      | simp only [↓same_mk] | with_reducible apply same_ite | intro _ | split | dsimp only

theorem trainingEffect_same (n) (a1) {u2 : State}
    (h2 : SameMem r u2) :
    SameMem r (trainingEffect n a1 u2) := by
  unfold trainingEffect
  try dsimp only
  repeat' first
      | with_reducible assumption | with_reducible apply State.portLost_same | with_reducible apply State.modPort_same
      | with_reducible apply State.steer_same | with_reducible apply State.recoverClock_same | with_reducible apply State.sendUnseq_same
      | with_reducible apply State.beginSession_same | simp only [↓same_mk] | with_reducible apply same_ite | intro _ | split
      | dsimp only

theorem State.modExp_same {u0 : State} (stack) (p) (f)
    (h0 : SameMem r u0) :
    SameMem r (State.modExp u0 stack p f) := by
  unfold State.modExp
  try dsimp only
  repeat' first
      | with_reducible assumption | simp only [↓same_mk] | with_reducible apply same_ite | with_reducible apply same_foldl | intro _
      | with_reducible apply same_foldl_snd | split | dsimp only

theorem State.sendExport_same {u0 : State} (port) (stack) (p) (g)
    (h0 : SameMem r u0) :
    SameMem r (State.sendExport u0 port stack p g) := by
  unfold State.sendExport
  try dsimp only
  repeat' first
      | with_reducible assumption | with_reducible apply State.modExp_same | with_reducible apply State.sendDatagram_same
      | simp only [↓same_mk] | with_reducible apply same_ite | intro _ | split | dsimp only

theorem datagramSendEffect_same (port) (slot) {u2 : State}
    (h2 : SameMem r u2) :
    SameMem r (datagramSendEffect port slot u2) := by
  unfold datagramSendEffect
  try dsimp only
  repeat' first
      | with_reducible assumption | with_reducible apply State.modServer_same | with_reducible apply State.sendExport_same
      | with_reducible apply State.sendPs_same | simp only [↓same_mk] | with_reducible apply same_ite | intro _ | split | dsimp only

theorem w4WakeEffect_same {u0 : State}
    (h0 : SameMem r u0) :
    SameMem r (w4WakeEffect u0) := by
  unfold w4WakeEffect
  try dsimp only
  repeat' first
      | with_reducible assumption | with_reducible apply State.modPower_same | with_reducible apply State.setModule_same
      | simp only [↓same_mk] | with_reducible apply same_ite | intro _ | split | dsimp only

theorem ownerIdEffect_same (p) (owner) (who) (reply) {u4 : State}
    (h4 : SameMem r u4) :
    SameMem r (ownerIdEffect p owner who reply u4) := by
  unfold ownerIdEffect
  try dsimp only
  repeat' first
      | with_reducible assumption | with_reducible apply State.nvRequest_same | with_reducible apply same_ite | intro _ | split
      | dsimp only

theorem steeringEffect_same (sensors) {u1 : State}
    (h1 : SameMem r u1) :
    SameMem r (steeringEffect sensors u1) := by
  unfold steeringEffect
  try dsimp only
  repeat' first
      | with_reducible assumption | with_reducible apply State.nextPeriod_same | with_reducible apply State.modDomain_same
      | with_reducible apply same_ite | with_reducible apply same_foldl | intro _ | with_reducible apply same_foldl_snd | split
      | dsimp only

theorem State.modSrvPort_same {u0 : State} (k) (f)
    (h0 : SameMem r u0) :
    SameMem r (State.modSrvPort u0 k f) := by
  unfold State.modSrvPort
  try dsimp only
  repeat' first
      | with_reducible assumption | simp only [↓same_mk] | with_reducible apply same_ite | with_reducible apply same_foldl | intro _
      | with_reducible apply same_foldl_snd | split | dsimp only

theorem wakeEntryEffect_same (p) {u1 : State}
    (h1 : SameMem r u1) :
    SameMem r (wakeEntryEffect p u1) := by
  unfold wakeEntryEffect
  try dsimp only
  repeat' first
      | with_reducible assumption | with_reducible apply State.modWake_same | with_reducible apply State.modPower_same
      | simp only [↓same_mk] | with_reducible apply same_ite | with_reducible apply same_foldl | intro _
      | with_reducible apply same_foldl_snd | split | dsimp only

theorem timeSendEffect_same (n) {u1 : State}
    (h1 : SameMem r u1) :
    SameMem r (timeSendEffect n u1) := by
  unfold timeSendEffect
  try dsimp only
  repeat' first
      | with_reducible assumption | with_reducible apply State.atNs_same | with_reducible apply State.modPort_same
      | with_reducible apply State.sendUnseq_same | simp only [↓same_mk] | with_reducible apply same_ite | intro _ | split | dsimp only

theorem operatorPkEffect_same (pk) (who) (reply) {u3 : State}
    (h3 : SameMem r u3) :
    SameMem r (operatorPkEffect pk who reply u3) := by
  unfold operatorPkEffect
  try dsimp only
  repeat' first
      | with_reducible assumption | with_reducible apply State.nvRequest_same | with_reducible apply same_ite | intro _ | split
      | dsimp only

theorem State.startContexts_same {u0 : State} (p)
    (h0 : SameMem r u0) :
    SameMem r (State.startContexts u0 p) := by
  unfold State.startContexts
  try dsimp only
  repeat' first
      | with_reducible assumption | with_reducible apply State.checkCurrent_same | with_reducible apply State.eachCtx_same
      | with_reducible apply same_foldl | intro _ | with_reducible apply same_foldl_snd | dsimp only

theorem frameSendEffect_same (n) {u1 : State}
    (h1 : SameMem r u1) :
    SameMem r (frameSendEffect n u1) := by
  unfold frameSendEffect
  try dsimp only
  repeat' first
      | with_reducible assumption | with_reducible apply State.sendUnseq_same | with_reducible apply State.emit_same
      | with_reducible apply State.modPort_same | simp only [↓same_mk] | with_reducible apply same_ite | intro _ | split | dsimp only

theorem sqReadEffect_same (q) (e) {u2 : State}
    (h2 : SameMem r u2) :
    SameMem r (sqReadEffect q e u2) := by
  unfold sqReadEffect
  try dsimp only
  repeat' first
      | with_reducible assumption | with_reducible apply State.takeEntry_same | with_reducible apply State.endEntry_same
      | with_reducible apply State.hostRequests_same | with_reducible apply State.useSeal_same | with_reducible apply same_ite | intro _
      | split | dsimp only

theorem State.departFlits_same {u0 : State} (c) (k) (p) (ws) (cargo)
    (h0 : SameMem r u0) :
    SameMem r (State.departFlits u0 c k p ws cargo) := by
  unfold State.departFlits
  try dsimp only
  repeat' first | with_reducible assumption | with_reducible apply State.modFabric_same | simp only [↓same_mk] | intro _ | dsimp only

theorem regulationEffect_same (d) {u1 : State}
    (h1 : SameMem r u1) :
    SameMem r (regulationEffect d u1) := by
  unfold regulationEffect
  try dsimp only
  repeat' first
      | with_reducible assumption | with_reducible apply State.elementEvent_same | with_reducible apply State.domainOff_same
      | with_reducible apply State.modDomain_same | simp only [↓same_mk] | with_reducible apply same_ite | intro _ | split | dsimp only

theorem i3cSegmentEffect_same (index) (sub) (offset) {u3 : State}
    (h3 : SameMem r u3) :
    SameMem r (i3cSegmentEffect index sub offset u3) := by
  unfold i3cSegmentEffect
  try dsimp only
  repeat' first
      | with_reducible assumption | with_reducible apply State.i3cSay_same | simp only [↓same_mk] | with_reducible apply same_ite
      | intro _ | split | dsimp only

theorem sparseEffect_same (c) (a1) (d) {u3 : State}
    (h3 : SameMem r u3) :
    SameMem r (sparseEffect c a1 d u3) := by
  unfold sparseEffect
  try dsimp only
  repeat' first
      | with_reducible assumption | with_reducible apply State.clusterFault_same | with_reducible apply State.readIndex_same
      | with_reducible apply State.submit_same | simp only [↓same_mk] | with_reducible apply same_ite | intro _ | split | dsimp only

theorem psPullEffect_same (q) (e) {u2 : State}
    (h2 : SameMem r u2) :
    SameMem r (psPullEffect q e u2) := by
  unfold psPullEffect
  try dsimp only
  repeat' first
      | with_reducible assumption | with_reducible apply State.takeEntry_same | with_reducible apply State.endEntry_same
      | with_reducible apply same_ite | intro _ | split | dsimp only

theorem State.correct_same {u0 : State} (off)
    (h0 : SameMem r u0) :
    SameMem r (State.correct u0 off) := by
  unfold State.correct
  try dsimp only
  repeat' first
      | with_reducible assumption | with_reducible apply State.modTime_same | with_reducible apply State.setHoldover_same
      | with_reducible apply State.discontinuity_same | simp only [↓same_mk] | with_reducible apply same_ite | intro _ | split
      | dsimp only

theorem State.readLater_same {u0 : State} (id) (reqId) (index) (sub) (offset)
    (h0 : SameMem r u0) :
    SameMem r (State.readLater u0 id reqId index sub offset) := by
  unfold State.readLater
  try dsimp only
  repeat' first
      | with_reducible assumption | with_reducible apply State.respond_same | with_reducible apply State.modSession_same
      | simp only [↓same_mk] | with_reducible apply same_ite | intro _ | split | dsimp only

theorem streamActivate_same (op) (c) (k) {u3 : State}
    (h3 : SameMem r u3) :
    SameMem r (streamActivate op c k u3) := by
  unfold streamActivate
  try dsimp only
  repeat' first
      | with_reducible assumption | with_reducible apply State.haltCtx_same | with_reducible apply State.modCtx_same
      | simp only [↓same_mk] | with_reducible apply same_ite | intro _ | split | dsimp only

theorem eventAckEffect_same (a0) (seq) (x) {u3 : State}
    (h3 : SameMem r u3) :
    SameMem r (eventAckEffect a0 seq x u3) := by
  unfold eventAckEffect
  try dsimp only
  repeat' first
      | with_reducible assumption | with_reducible apply State.emit_same | with_reducible apply State.setSession_same
      | simp only [↓same_mk] | with_reducible apply same_ite | intro _ | split | dsimp only

theorem retransmitEffect_same (stack) (p) {u2 : State}
    (h2 : SameMem r u2) :
    SameMem r (retransmitEffect stack p u2) := by
  unfold retransmitEffect
  try dsimp only
  repeat' first
      | with_reducible assumption | with_reducible apply State.atNs_same | with_reducible apply State.modExp_same | simp only [↓same_mk]
      | with_reducible apply same_ite | intro _ | split | dsimp only

theorem State.freeResponse_same {u0 : State} (n) (f)
    (h0 : SameMem r u0) :
    SameMem r (State.freeResponse u0 n f) := by
  unfold State.freeResponse
  try dsimp only
  repeat' first | with_reducible assumption | with_reducible apply State.modPort_same | simp only [↓same_mk] | intro _ | dsimp only

theorem State.guardedBy_same {u0 : State} (w) {u2 : State}
    (h0 : SameMem r u0) (h2 : SameMem r u2) :
    SameMem r (State.guardedBy u0 w u2) := by
  unfold State.guardedBy
  try dsimp only
  repeat' first
      | with_reducible assumption | with_reducible apply State.guarded_same | simp only [↓same_mk] | with_reducible apply same_ite
      | intro _ | split | dsimp only

theorem State.returnData_same {u0 : State} (c) (k) (idx) (a4)
    (h0 : SameMem r u0) :
    SameMem r (State.returnData u0 c k idx a4) := by
  unfold State.returnData
  dsimp only
  refine same_ite (fun _ => State.modCtx_same _ _ _ h0) (fun _ => State.feedEdge_same _ (State.modFabric_same _ ?_))
  cases hx : u0.cross a4.part (a4.stack / 6) (a4.link / 64) with
  | none => exact h0
  | some v => exact State.cross_same _ _ _ h0 hx

theorem descriptorCompleteEffect_same (c) (k) {u2 : State}
    (h2 : SameMem r u2) :
    SameMem r (descriptorCompleteEffect c k u2) := by
  unfold descriptorCompleteEffect
  try dsimp only
  repeat' first
      | with_reducible assumption | with_reducible apply State.haltCtx_same | with_reducible apply State.modCtx_same
      | with_reducible apply State.arrive_same | with_reducible apply State.addPend_same | with_reducible apply State.retest_same
      | simp only [↓same_mk] | with_reducible apply same_ite | with_reducible apply same_foldl | intro _
      | with_reducible apply same_foldl_snd | split | dsimp only

theorem hqCfgEffect_same (q) (v) {u2 : State}
    (h2 : SameMem r u2) :
    SameMem r (hqCfgEffect q v u2) := by
  unfold hqCfgEffect
  try dsimp only
  repeat' first
      | with_reducible assumption | with_reducible apply State.modHostQ_same | simp only [↓same_mk] | with_reducible apply same_ite
      | intro _ | split | dsimp only

theorem streamResponseEffect_same (c) (k) {u2 : State}
    (h2 : SameMem r u2) :
    SameMem r (streamResponseEffect c k u2) := by
  unfold streamResponseEffect
  try dsimp only
  repeat' first
      | with_reducible assumption | with_reducible apply State.haltCtx_same | with_reducible apply State.modCtx_same
      | with_reducible apply State.countPoison_same | with_reducible apply State.stageWrite_same | simp only [↓same_mk]
      | with_reducible apply same_ite | intro _ | split | dsimp only

theorem cFinishEffect_same (client) (session) (pkHash) (sigOk) {u4 : State}
    (h4 : SameMem r u4) :
    SameMem r (cFinishEffect client session pkHash sigOk u4) := by
  unfold cFinishEffect
  try dsimp only
  repeat' first
      | with_reducible assumption | with_reducible apply State.modMaunvo_same | with_reducible apply State.emit_same
      | with_reducible apply State.setSession_same | simp only [↓same_mk] | with_reducible apply same_ite | intro _ | split | dsimp only

theorem readyLostEffect_same (sel) {u1 : State}
    (h1 : SameMem r u1) :
    SameMem r (readyLostEffect sel u1) := by
  unfold readyLostEffect
  try dsimp only
  repeat' first
      | with_reducible assumption | with_reducible apply State.modClk_same | with_reducible apply State.select_same
      | with_reducible apply State.beginRelock_same | with_reducible apply State.raiseStopAll_same
      | with_reducible apply State.raiseStop_same | with_reducible apply State.retrain_same | simp only [↓same_mk]
      | with_reducible apply same_ite | with_reducible apply same_foldl | intro _ | with_reducible apply same_foldl_snd | split
      | dsimp only

theorem reportEffect_same (nonce) (scope) {u2 : State}
    (h2 : SameMem r u2) :
    SameMem r (reportEffect nonce scope u2) := by
  unfold reportEffect
  try dsimp only
  repeat' first
      | with_reducible assumption | with_reducible apply State.reportIssued_same | with_reducible apply State.emit_same
      | with_reducible apply same_ite | intro _ | split | dsimp only

theorem expAckEffect_same (d) {u1 : State}
    (h1 : SameMem r u1) :
    SameMem r (expAckEffect d u1) := by
  unfold expAckEffect
  try dsimp only
  repeat' first
      | with_reducible assumption | with_reducible apply State.modExp_same | with_reducible apply State.modUep_same
      | with_reducible apply State.count_same | with_reducible apply State.raiseEvent_same | with_reducible apply State.modServer_same
      | simp only [↓same_mk] | with_reducible apply same_ite | with_reducible apply same_foldl | intro _
      | with_reducible apply same_foldl_snd | split | dsimp only

theorem State.takeTime_same {u0 : State} (n) (t4) (q)
    (h0 : SameMem r u0) :
    SameMem r (State.takeTime u0 n t4 q) := by
  unfold State.takeTime
  try dsimp only
  repeat' first
      | with_reducible assumption | with_reducible apply State.modPort_same | with_reducible apply State.selectParent_same
      | with_reducible apply State.seeTag_same | with_reducible apply State.correct_same | with_reducible apply State.modTime_same
      | simp only [↓same_mk] | with_reducible apply same_ite | intro _ | split | dsimp only

theorem burstCompleteEffect_same (stack) (pch) {u2 : State}
    (h2 : SameMem r u2) :
    SameMem r (burstCompleteEffect stack pch u2) := by
  unfold burstCompleteEffect
  try dsimp only
  repeat' first
      | with_reducible assumption | with_reducible apply State.modStore_same | with_reducible apply State.returnData_same
      | with_reducible apply State.modCtx_same | with_reducible apply State.modPort_same | with_reducible apply State.queueFrame_same
      | with_reducible apply State.hostDone_same | with_reducible apply State.emit_same | simp only [↓same_mk]
      | with_reducible apply same_ite | intro _ | split | dsimp only

theorem lightReturnEffect_same (n) {u1 : State}
    (h1 : SameMem r u1) :
    SameMem r (lightReturnEffect n u1) := by
  unfold lightReturnEffect
  try dsimp only
  repeat' first
      | with_reducible assumption | with_reducible apply State.modPort_same | with_reducible apply State.retrain_same
      | simp only [↓same_mk] | with_reducible apply same_ite | intro _ | split | dsimp only

theorem denseEffect_same (c) (a1) (d) {u3 : State}
    (h3 : SameMem r u3) :
    SameMem r (denseEffect c a1 d u3) := by
  unfold denseEffect
  try dsimp only
  repeat' first | with_reducible assumption | with_reducible apply State.submit_same | intro _ | dsimp only

theorem State.launch_same {u0 : State} (c) (k) (d) (ord) (i) (ws)
    (h0 : SameMem r u0) :
    SameMem r (State.launch u0 c k d ord i ws) := by
  unfold State.launch
  try dsimp only
  repeat' first
      | with_reducible assumption | with_reducible apply State.modCtx_same | with_reducible apply State.modPort_same
      | with_reducible apply State.queueFrame_same | with_reducible apply State.departFlits_same | simp only [↓same_mk]
      | with_reducible apply same_ite | intro _ | split | dsimp only

theorem replayTimeoutEffect_same (n) {u1 : State}
    (h1 : SameMem r u1) :
    SameMem r (replayTimeoutEffect n u1) := by
  unfold replayTimeoutEffect
  try dsimp only
  repeat' first
      | with_reducible assumption | with_reducible apply State.goBack_same | with_reducible apply State.atNs_same
      | with_reducible apply same_ite | intro _ | split | dsimp only

theorem State.endSession_same {u0 : State} (id)
    (h0 : SameMem r u0) :
    SameMem r (State.endSession u0 id) := by
  unfold State.endSession
  try dsimp only
  repeat' first | with_reducible assumption | with_reducible apply State.modMaunvo_same | simp only [↓same_mk] | intro _ | dsimp only

theorem ptpEffect_same (a0) {u1 : State}
    (h1 : SameMem r u1) :
    SameMem r (ptpEffect a0 u1) := by
  unfold ptpEffect
  try dsimp only
  repeat' first
      | with_reducible assumption | with_reducible apply State.modTime_same | with_reducible apply State.becomeRoot_same
      | with_reducible apply State.correct_same | simp only [↓same_mk] | with_reducible apply same_ite | intro _ | split | dsimp only

theorem acquireEffect_same (core) (both) {u2 : State}
    (h2 : SameMem r u2) :
    SameMem r (acquireEffect core both u2) := by
  unfold acquireEffect
  try dsimp only
  repeat' first
      | with_reducible assumption | with_reducible apply State.modLease_same | with_reducible apply State.setHolder_same
      | with_reducible apply State.nvPut_same | simp only [↓same_mk] | with_reducible apply same_ite | intro _ | split | dsimp only

theorem torusReleaseEffect_same (g) {u1 : State}
    (h1 : SameMem r u1) :
    SameMem r (torusReleaseEffect g u1) := by
  unfold torusReleaseEffect
  try dsimp only
  repeat' first
      | with_reducible assumption | with_reducible apply State.modGroup_same | simp only [↓same_mk] | with_reducible apply same_ite
      | intro _ | split | dsimp only

theorem State.takeResponse_same {u0 : State} (n) (f) (data)
    (h0 : SameMem r u0) :
    SameMem r (State.takeResponse u0 n f data) := by
  unfold State.takeResponse
  try dsimp only
  repeat' first
      | with_reducible assumption | with_reducible apply State.modPort_same | with_reducible apply State.modCtx_same
      | with_reducible apply State.departFlits_same | simp only [↓same_mk] | with_reducible apply same_ite | intro _ | split
      | dsimp only

theorem startDeliveredEffect_same (p) {u1 : State}
    (h1 : SameMem r u1) :
    SameMem r (startDeliveredEffect p u1) := by
  unfold startDeliveredEffect
  try dsimp only
  repeat' first
      | with_reducible assumption | with_reducible apply State.atFab_same | with_reducible apply State.eachCluster_same
      | with_reducible apply State.startContexts_same | with_reducible apply State.beginSteps_same
      | with_reducible apply State.modPart_same | with_reducible apply State.modIdle_same | with_reducible apply State.modBind_same
      | simp only [↓same_mk] | with_reducible apply same_ite | intro _ | split | dsimp only

theorem stepTimeoutEffect_same (p) {u1 : State}
    (h1 : SameMem r u1) :
    SameMem r (stepTimeoutEffect p u1) := by
  unfold stepTimeoutEffect
  try dsimp only
  repeat' first
      | with_reducible assumption | with_reducible apply State.raiseStop_same | with_reducible apply State.atNs_same
      | with_reducible apply same_ite | intro _ | split | dsimp only

theorem dropEffect_same (d) {u1 : State}
    (h1 : SameMem r u1) :
    SameMem r (dropEffect d u1) := by
  unfold dropEffect
  try dsimp only
  repeat' first
      | with_reducible assumption | with_reducible apply State.elementEvent_same | with_reducible apply State.modDomain_same
      | with_reducible apply State.domainOff_same | simp only [↓same_mk] | with_reducible apply same_ite | intro _ | split | dsimp only

theorem State.i3cGate_same {u0 : State} (cause) (act)
    (h0 : SameMem r u0) (h2 : ∀ x0, SameMem r x0 → SameMem r (act x0)) :
    SameMem r (State.i3cGate u0 cause act) := by
  unfold State.i3cGate
  try dsimp only
  repeat' first | with_reducible assumption | with_reducible apply h2 | with_reducible apply same_ite | intro _ | split | dsimp only

theorem rebindStartEffect_same (p) {u1 : State}
    (h1 : SameMem r u1) :
    SameMem r (rebindStartEffect p u1) := by
  unfold rebindStartEffect
  try dsimp only
  repeat' first
      | with_reducible assumption | with_reducible apply State.modBind_same | with_reducible apply State.raiseStart_same
      | simp only [↓same_mk] | with_reducible apply same_ite | intro _ | split | dsimp only

theorem pmapApplyEffect_same {u0 : State}
    (h0 : SameMem r u0) :
    SameMem r (pmapApplyEffect u0) := by
  unfold pmapApplyEffect
  try dsimp only
  repeat' first
      | with_reducible assumption | with_reducible apply State.atNs_same | simp only [↓same_mk] | with_reducible apply same_ite
      | intro _ | split | dsimp only

end Sys2Proof.Machine
end

