-- ==== Sys2Proof/Laws/State.lean ====
section
/-! SUPPORT. The updates of one part of State: every other field is left as it is, and what the updated element reads as. -/

namespace Sys2Proof.Machine

open Sys2Proof

/-! State.modLease -/

@[simp] theorem State.modLease_pending (s : State) (f : Lease → Lease) : (s.modLease f).pending = s.pending := rfl
@[simp] theorem State.modLease_clock (s : State) (f : Lease → Lease) : (s.modLease f).clock = s.clock := rfl
@[simp] theorem State.modLease_clusters (s : State) (f : Lease → Lease) : (s.modLease f).clusters = s.clusters := rfl
@[simp] theorem State.modLease_cmem (s : State) (f : Lease → Lease) : (s.modLease f).cmem = s.cmem := rfl
@[simp] theorem State.modLease_qmem (s : State) (f : Lease → Lease) : (s.modLease f).qmem = s.qmem := rfl
@[simp] theorem State.modLease_parts (s : State) (f : Lease → Lease) : (s.modLease f).parts = s.parts := rfl
@[simp] theorem State.modLease_syncs (s : State) (f : Lease → Lease) : (s.modLease f).syncs = s.syncs := rfl
@[simp] theorem State.modLease_groups (s : State) (f : Lease → Lease) : (s.modLease f).groups = s.groups := rfl
@[simp] theorem State.modLease_fabric (s : State) (f : Lease → Lease) : (s.modLease f).fabric = s.fabric := rfl
@[simp] theorem State.modLease_store (s : State) (f : Lease → Lease) : (s.modLease f).store = s.store := rfl
@[simp] theorem State.modLease_smem (s : State) (f : Lease → Lease) : (s.modLease f).smem = s.smem := rfl
@[simp] theorem State.modLease_ctxs (s : State) (f : Lease → Lease) : (s.modLease f).ctxs = s.ctxs := rfl
@[simp] theorem State.modLease_ueps (s : State) (f : Lease → Lease) : (s.modLease f).ueps = s.ueps := rfl
@[simp] theorem State.modLease_idles (s : State) (f : Lease → Lease) : (s.modLease f).idles = s.idles := rfl
@[simp] theorem State.modLease_pmap (s : State) (f : Lease → Lease) : (s.modLease f).pmap = s.pmap := rfl
@[simp] theorem State.modLease_pmapCtl (s : State) (f : Lease → Lease) : (s.modLease f).pmapCtl = s.pmapCtl := rfl
@[simp] theorem State.modLease_faults (s : State) (f : Lease → Lease) : (s.modLease f).faults = s.faults := rfl
@[simp] theorem State.modLease_counters (s : State) (f : Lease → Lease) : (s.modLease f).counters = s.counters := rfl
@[simp] theorem State.modLease_dict (s : State) (f : Lease → Lease) : (s.modLease f).dict = s.dict := rfl
@[simp] theorem State.modLease_binds (s : State) (f : Lease → Lease) : (s.modLease f).binds = s.binds := rfl
@[simp] theorem State.modLease_boot (s : State) (f : Lease → Lease) : (s.modLease f).boot = s.boot := rfl
@[simp] theorem State.modLease_nv (s : State) (f : Lease → Lease) : (s.modLease f).nv = s.nv := rfl
@[simp] theorem State.modLease_trust (s : State) (f : Lease → Lease) : (s.modLease f).trust = s.trust := rfl
@[simp] theorem State.modLease_ports (s : State) (f : Lease → Lease) : (s.modLease f).ports = s.ports := rfl
@[simp] theorem State.modLease_colls (s : State) (f : Lease → Lease) : (s.modLease f).colls = s.colls := rfl
@[simp] theorem State.modLease_host (s : State) (f : Lease → Lease) : (s.modLease f).host = s.host := rfl
@[simp] theorem State.modLease_server (s : State) (f : Lease → Lease) : (s.modLease f).server = s.server := rfl
@[simp] theorem State.modLease_torusTime (s : State) (f : Lease → Lease) : (s.modLease f).torusTime = s.torusTime := rfl
@[simp] theorem State.modLease_clk (s : State) (f : Lease → Lease) : (s.modLease f).clk = s.clk := rfl
@[simp] theorem State.modLease_power (s : State) (f : Lease → Lease) : (s.modLease f).power = s.power := rfl
@[simp] theorem State.modLease_maunvo (s : State) (f : Lease → Lease) : (s.modLease f).maunvo = s.maunvo := rfl
@[simp] theorem State.modLease_pins (s : State) (f : Lease → Lease) : (s.modLease f).pins = s.pins := rfl
@[simp] theorem State.modLease_out (s : State) (f : Lease → Lease) : (s.modLease f).out = s.out := rfl
@[simp] theorem State.modLease_free (s : State) (f : Lease → Lease) : (s.modLease f).free = s.free := rfl

/-! State.modClk -/

@[simp] theorem State.modClk_pending (s : State) (f : Clk → Clk) : (s.modClk f).pending = s.pending := rfl
@[simp] theorem State.modClk_clock (s : State) (f : Clk → Clk) : (s.modClk f).clock = s.clock := rfl
@[simp] theorem State.modClk_clusters (s : State) (f : Clk → Clk) : (s.modClk f).clusters = s.clusters := rfl
@[simp] theorem State.modClk_cmem (s : State) (f : Clk → Clk) : (s.modClk f).cmem = s.cmem := rfl
@[simp] theorem State.modClk_qmem (s : State) (f : Clk → Clk) : (s.modClk f).qmem = s.qmem := rfl
@[simp] theorem State.modClk_parts (s : State) (f : Clk → Clk) : (s.modClk f).parts = s.parts := rfl
@[simp] theorem State.modClk_syncs (s : State) (f : Clk → Clk) : (s.modClk f).syncs = s.syncs := rfl
@[simp] theorem State.modClk_groups (s : State) (f : Clk → Clk) : (s.modClk f).groups = s.groups := rfl
@[simp] theorem State.modClk_fabric (s : State) (f : Clk → Clk) : (s.modClk f).fabric = s.fabric := rfl
@[simp] theorem State.modClk_store (s : State) (f : Clk → Clk) : (s.modClk f).store = s.store := rfl
@[simp] theorem State.modClk_smem (s : State) (f : Clk → Clk) : (s.modClk f).smem = s.smem := rfl
@[simp] theorem State.modClk_ctxs (s : State) (f : Clk → Clk) : (s.modClk f).ctxs = s.ctxs := rfl
@[simp] theorem State.modClk_ueps (s : State) (f : Clk → Clk) : (s.modClk f).ueps = s.ueps := rfl
@[simp] theorem State.modClk_idles (s : State) (f : Clk → Clk) : (s.modClk f).idles = s.idles := rfl
@[simp] theorem State.modClk_pmap (s : State) (f : Clk → Clk) : (s.modClk f).pmap = s.pmap := rfl
@[simp] theorem State.modClk_pmapCtl (s : State) (f : Clk → Clk) : (s.modClk f).pmapCtl = s.pmapCtl := rfl
@[simp] theorem State.modClk_faults (s : State) (f : Clk → Clk) : (s.modClk f).faults = s.faults := rfl
@[simp] theorem State.modClk_counters (s : State) (f : Clk → Clk) : (s.modClk f).counters = s.counters := rfl
@[simp] theorem State.modClk_dict (s : State) (f : Clk → Clk) : (s.modClk f).dict = s.dict := rfl
@[simp] theorem State.modClk_lease (s : State) (f : Clk → Clk) : (s.modClk f).lease = s.lease := rfl
@[simp] theorem State.modClk_binds (s : State) (f : Clk → Clk) : (s.modClk f).binds = s.binds := rfl
@[simp] theorem State.modClk_boot (s : State) (f : Clk → Clk) : (s.modClk f).boot = s.boot := rfl
@[simp] theorem State.modClk_nv (s : State) (f : Clk → Clk) : (s.modClk f).nv = s.nv := rfl
@[simp] theorem State.modClk_trust (s : State) (f : Clk → Clk) : (s.modClk f).trust = s.trust := rfl
@[simp] theorem State.modClk_ports (s : State) (f : Clk → Clk) : (s.modClk f).ports = s.ports := rfl
@[simp] theorem State.modClk_colls (s : State) (f : Clk → Clk) : (s.modClk f).colls = s.colls := rfl
@[simp] theorem State.modClk_host (s : State) (f : Clk → Clk) : (s.modClk f).host = s.host := rfl
@[simp] theorem State.modClk_server (s : State) (f : Clk → Clk) : (s.modClk f).server = s.server := rfl
@[simp] theorem State.modClk_torusTime (s : State) (f : Clk → Clk) : (s.modClk f).torusTime = s.torusTime := rfl
@[simp] theorem State.modClk_power (s : State) (f : Clk → Clk) : (s.modClk f).power = s.power := rfl
@[simp] theorem State.modClk_maunvo (s : State) (f : Clk → Clk) : (s.modClk f).maunvo = s.maunvo := rfl
@[simp] theorem State.modClk_pins (s : State) (f : Clk → Clk) : (s.modClk f).pins = s.pins := rfl
@[simp] theorem State.modClk_out (s : State) (f : Clk → Clk) : (s.modClk f).out = s.out := rfl
@[simp] theorem State.modClk_free (s : State) (f : Clk → Clk) : (s.modClk f).free = s.free := rfl

/-! State.modMaunvo -/

@[simp] theorem State.modMaunvo_pending (s : State) (f : Maunvo → Maunvo) : (s.modMaunvo f).pending = s.pending := rfl
@[simp] theorem State.modMaunvo_clock (s : State) (f : Maunvo → Maunvo) : (s.modMaunvo f).clock = s.clock := rfl
@[simp] theorem State.modMaunvo_clusters (s : State) (f : Maunvo → Maunvo) : (s.modMaunvo f).clusters = s.clusters := rfl
@[simp] theorem State.modMaunvo_cmem (s : State) (f : Maunvo → Maunvo) : (s.modMaunvo f).cmem = s.cmem := rfl
@[simp] theorem State.modMaunvo_qmem (s : State) (f : Maunvo → Maunvo) : (s.modMaunvo f).qmem = s.qmem := rfl
@[simp] theorem State.modMaunvo_parts (s : State) (f : Maunvo → Maunvo) : (s.modMaunvo f).parts = s.parts := rfl
@[simp] theorem State.modMaunvo_syncs (s : State) (f : Maunvo → Maunvo) : (s.modMaunvo f).syncs = s.syncs := rfl
@[simp] theorem State.modMaunvo_groups (s : State) (f : Maunvo → Maunvo) : (s.modMaunvo f).groups = s.groups := rfl
@[simp] theorem State.modMaunvo_fabric (s : State) (f : Maunvo → Maunvo) : (s.modMaunvo f).fabric = s.fabric := rfl
@[simp] theorem State.modMaunvo_store (s : State) (f : Maunvo → Maunvo) : (s.modMaunvo f).store = s.store := rfl
@[simp] theorem State.modMaunvo_smem (s : State) (f : Maunvo → Maunvo) : (s.modMaunvo f).smem = s.smem := rfl
@[simp] theorem State.modMaunvo_ctxs (s : State) (f : Maunvo → Maunvo) : (s.modMaunvo f).ctxs = s.ctxs := rfl
@[simp] theorem State.modMaunvo_ueps (s : State) (f : Maunvo → Maunvo) : (s.modMaunvo f).ueps = s.ueps := rfl
@[simp] theorem State.modMaunvo_idles (s : State) (f : Maunvo → Maunvo) : (s.modMaunvo f).idles = s.idles := rfl
@[simp] theorem State.modMaunvo_pmap (s : State) (f : Maunvo → Maunvo) : (s.modMaunvo f).pmap = s.pmap := rfl
@[simp] theorem State.modMaunvo_pmapCtl (s : State) (f : Maunvo → Maunvo) : (s.modMaunvo f).pmapCtl = s.pmapCtl := rfl
@[simp] theorem State.modMaunvo_faults (s : State) (f : Maunvo → Maunvo) : (s.modMaunvo f).faults = s.faults := rfl
@[simp] theorem State.modMaunvo_counters (s : State) (f : Maunvo → Maunvo) : (s.modMaunvo f).counters = s.counters := rfl
@[simp] theorem State.modMaunvo_dict (s : State) (f : Maunvo → Maunvo) : (s.modMaunvo f).dict = s.dict := rfl
@[simp] theorem State.modMaunvo_lease (s : State) (f : Maunvo → Maunvo) : (s.modMaunvo f).lease = s.lease := rfl
@[simp] theorem State.modMaunvo_binds (s : State) (f : Maunvo → Maunvo) : (s.modMaunvo f).binds = s.binds := rfl
@[simp] theorem State.modMaunvo_boot (s : State) (f : Maunvo → Maunvo) : (s.modMaunvo f).boot = s.boot := rfl
@[simp] theorem State.modMaunvo_nv (s : State) (f : Maunvo → Maunvo) : (s.modMaunvo f).nv = s.nv := rfl
@[simp] theorem State.modMaunvo_trust (s : State) (f : Maunvo → Maunvo) : (s.modMaunvo f).trust = s.trust := rfl
@[simp] theorem State.modMaunvo_ports (s : State) (f : Maunvo → Maunvo) : (s.modMaunvo f).ports = s.ports := rfl
@[simp] theorem State.modMaunvo_colls (s : State) (f : Maunvo → Maunvo) : (s.modMaunvo f).colls = s.colls := rfl
@[simp] theorem State.modMaunvo_host (s : State) (f : Maunvo → Maunvo) : (s.modMaunvo f).host = s.host := rfl
@[simp] theorem State.modMaunvo_server (s : State) (f : Maunvo → Maunvo) : (s.modMaunvo f).server = s.server := rfl
@[simp] theorem State.modMaunvo_torusTime (s : State) (f : Maunvo → Maunvo) : (s.modMaunvo f).torusTime = s.torusTime := rfl
@[simp] theorem State.modMaunvo_clk (s : State) (f : Maunvo → Maunvo) : (s.modMaunvo f).clk = s.clk := rfl
@[simp] theorem State.modMaunvo_power (s : State) (f : Maunvo → Maunvo) : (s.modMaunvo f).power = s.power := rfl
@[simp] theorem State.modMaunvo_pins (s : State) (f : Maunvo → Maunvo) : (s.modMaunvo f).pins = s.pins := rfl
@[simp] theorem State.modMaunvo_out (s : State) (f : Maunvo → Maunvo) : (s.modMaunvo f).out = s.out := rfl
@[simp] theorem State.modMaunvo_free (s : State) (f : Maunvo → Maunvo) : (s.modMaunvo f).free = s.free := rfl

/-! State.modFabric -/

@[simp] theorem State.modFabric_pending (s : State) (f : Fabric → Fabric) : (s.modFabric f).pending = s.pending := rfl
@[simp] theorem State.modFabric_clock (s : State) (f : Fabric → Fabric) : (s.modFabric f).clock = s.clock := rfl
@[simp] theorem State.modFabric_clusters (s : State) (f : Fabric → Fabric) : (s.modFabric f).clusters = s.clusters := rfl
@[simp] theorem State.modFabric_cmem (s : State) (f : Fabric → Fabric) : (s.modFabric f).cmem = s.cmem := rfl
@[simp] theorem State.modFabric_qmem (s : State) (f : Fabric → Fabric) : (s.modFabric f).qmem = s.qmem := rfl
@[simp] theorem State.modFabric_parts (s : State) (f : Fabric → Fabric) : (s.modFabric f).parts = s.parts := rfl
@[simp] theorem State.modFabric_syncs (s : State) (f : Fabric → Fabric) : (s.modFabric f).syncs = s.syncs := rfl
@[simp] theorem State.modFabric_groups (s : State) (f : Fabric → Fabric) : (s.modFabric f).groups = s.groups := rfl
@[simp] theorem State.modFabric_store (s : State) (f : Fabric → Fabric) : (s.modFabric f).store = s.store := rfl
@[simp] theorem State.modFabric_smem (s : State) (f : Fabric → Fabric) : (s.modFabric f).smem = s.smem := rfl
@[simp] theorem State.modFabric_ctxs (s : State) (f : Fabric → Fabric) : (s.modFabric f).ctxs = s.ctxs := rfl
@[simp] theorem State.modFabric_ueps (s : State) (f : Fabric → Fabric) : (s.modFabric f).ueps = s.ueps := rfl
@[simp] theorem State.modFabric_idles (s : State) (f : Fabric → Fabric) : (s.modFabric f).idles = s.idles := rfl
@[simp] theorem State.modFabric_pmap (s : State) (f : Fabric → Fabric) : (s.modFabric f).pmap = s.pmap := rfl
@[simp] theorem State.modFabric_pmapCtl (s : State) (f : Fabric → Fabric) : (s.modFabric f).pmapCtl = s.pmapCtl := rfl
@[simp] theorem State.modFabric_faults (s : State) (f : Fabric → Fabric) : (s.modFabric f).faults = s.faults := rfl
@[simp] theorem State.modFabric_counters (s : State) (f : Fabric → Fabric) : (s.modFabric f).counters = s.counters := rfl
@[simp] theorem State.modFabric_dict (s : State) (f : Fabric → Fabric) : (s.modFabric f).dict = s.dict := rfl
@[simp] theorem State.modFabric_lease (s : State) (f : Fabric → Fabric) : (s.modFabric f).lease = s.lease := rfl
@[simp] theorem State.modFabric_binds (s : State) (f : Fabric → Fabric) : (s.modFabric f).binds = s.binds := rfl
@[simp] theorem State.modFabric_boot (s : State) (f : Fabric → Fabric) : (s.modFabric f).boot = s.boot := rfl
@[simp] theorem State.modFabric_nv (s : State) (f : Fabric → Fabric) : (s.modFabric f).nv = s.nv := rfl
@[simp] theorem State.modFabric_trust (s : State) (f : Fabric → Fabric) : (s.modFabric f).trust = s.trust := rfl
@[simp] theorem State.modFabric_ports (s : State) (f : Fabric → Fabric) : (s.modFabric f).ports = s.ports := rfl
@[simp] theorem State.modFabric_colls (s : State) (f : Fabric → Fabric) : (s.modFabric f).colls = s.colls := rfl
@[simp] theorem State.modFabric_host (s : State) (f : Fabric → Fabric) : (s.modFabric f).host = s.host := rfl
@[simp] theorem State.modFabric_server (s : State) (f : Fabric → Fabric) : (s.modFabric f).server = s.server := rfl
@[simp] theorem State.modFabric_torusTime (s : State) (f : Fabric → Fabric) : (s.modFabric f).torusTime = s.torusTime := rfl
@[simp] theorem State.modFabric_clk (s : State) (f : Fabric → Fabric) : (s.modFabric f).clk = s.clk := rfl
@[simp] theorem State.modFabric_power (s : State) (f : Fabric → Fabric) : (s.modFabric f).power = s.power := rfl
@[simp] theorem State.modFabric_maunvo (s : State) (f : Fabric → Fabric) : (s.modFabric f).maunvo = s.maunvo := rfl
@[simp] theorem State.modFabric_pins (s : State) (f : Fabric → Fabric) : (s.modFabric f).pins = s.pins := rfl
@[simp] theorem State.modFabric_out (s : State) (f : Fabric → Fabric) : (s.modFabric f).out = s.out := rfl
@[simp] theorem State.modFabric_free (s : State) (f : Fabric → Fabric) : (s.modFabric f).free = s.free := rfl

/-! State.modCluster -/

@[simp] theorem State.modCluster_pending (s : State) (c : Nat) (f : Cluster → Cluster) : (s.modCluster c f).pending = s.pending := rfl
@[simp] theorem State.modCluster_clock (s : State) (c : Nat) (f : Cluster → Cluster) : (s.modCluster c f).clock = s.clock := rfl
@[simp] theorem State.modCluster_cmem (s : State) (c : Nat) (f : Cluster → Cluster) : (s.modCluster c f).cmem = s.cmem := rfl
@[simp] theorem State.modCluster_qmem (s : State) (c : Nat) (f : Cluster → Cluster) : (s.modCluster c f).qmem = s.qmem := rfl
@[simp] theorem State.modCluster_parts (s : State) (c : Nat) (f : Cluster → Cluster) : (s.modCluster c f).parts = s.parts := rfl
@[simp] theorem State.modCluster_syncs (s : State) (c : Nat) (f : Cluster → Cluster) : (s.modCluster c f).syncs = s.syncs := rfl
@[simp] theorem State.modCluster_groups (s : State) (c : Nat) (f : Cluster → Cluster) : (s.modCluster c f).groups = s.groups := rfl
@[simp] theorem State.modCluster_fabric (s : State) (c : Nat) (f : Cluster → Cluster) : (s.modCluster c f).fabric = s.fabric := rfl
@[simp] theorem State.modCluster_store (s : State) (c : Nat) (f : Cluster → Cluster) : (s.modCluster c f).store = s.store := rfl
@[simp] theorem State.modCluster_smem (s : State) (c : Nat) (f : Cluster → Cluster) : (s.modCluster c f).smem = s.smem := rfl
@[simp] theorem State.modCluster_ctxs (s : State) (c : Nat) (f : Cluster → Cluster) : (s.modCluster c f).ctxs = s.ctxs := rfl
@[simp] theorem State.modCluster_ueps (s : State) (c : Nat) (f : Cluster → Cluster) : (s.modCluster c f).ueps = s.ueps := rfl
@[simp] theorem State.modCluster_idles (s : State) (c : Nat) (f : Cluster → Cluster) : (s.modCluster c f).idles = s.idles := rfl
@[simp] theorem State.modCluster_pmap (s : State) (c : Nat) (f : Cluster → Cluster) : (s.modCluster c f).pmap = s.pmap := rfl
@[simp] theorem State.modCluster_pmapCtl (s : State) (c : Nat) (f : Cluster → Cluster) : (s.modCluster c f).pmapCtl = s.pmapCtl := rfl
@[simp] theorem State.modCluster_faults (s : State) (c : Nat) (f : Cluster → Cluster) : (s.modCluster c f).faults = s.faults := rfl
@[simp] theorem State.modCluster_counters (s : State) (c : Nat) (f : Cluster → Cluster) : (s.modCluster c f).counters = s.counters := rfl
@[simp] theorem State.modCluster_dict (s : State) (c : Nat) (f : Cluster → Cluster) : (s.modCluster c f).dict = s.dict := rfl
@[simp] theorem State.modCluster_lease (s : State) (c : Nat) (f : Cluster → Cluster) : (s.modCluster c f).lease = s.lease := rfl
@[simp] theorem State.modCluster_binds (s : State) (c : Nat) (f : Cluster → Cluster) : (s.modCluster c f).binds = s.binds := rfl
@[simp] theorem State.modCluster_boot (s : State) (c : Nat) (f : Cluster → Cluster) : (s.modCluster c f).boot = s.boot := rfl
@[simp] theorem State.modCluster_nv (s : State) (c : Nat) (f : Cluster → Cluster) : (s.modCluster c f).nv = s.nv := rfl
@[simp] theorem State.modCluster_trust (s : State) (c : Nat) (f : Cluster → Cluster) : (s.modCluster c f).trust = s.trust := rfl
@[simp] theorem State.modCluster_ports (s : State) (c : Nat) (f : Cluster → Cluster) : (s.modCluster c f).ports = s.ports := rfl
@[simp] theorem State.modCluster_colls (s : State) (c : Nat) (f : Cluster → Cluster) : (s.modCluster c f).colls = s.colls := rfl
@[simp] theorem State.modCluster_host (s : State) (c : Nat) (f : Cluster → Cluster) : (s.modCluster c f).host = s.host := rfl
@[simp] theorem State.modCluster_server (s : State) (c : Nat) (f : Cluster → Cluster) : (s.modCluster c f).server = s.server := rfl
@[simp] theorem State.modCluster_torusTime (s : State) (c : Nat) (f : Cluster → Cluster) : (s.modCluster c f).torusTime = s.torusTime := rfl
@[simp] theorem State.modCluster_clk (s : State) (c : Nat) (f : Cluster → Cluster) : (s.modCluster c f).clk = s.clk := rfl
@[simp] theorem State.modCluster_power (s : State) (c : Nat) (f : Cluster → Cluster) : (s.modCluster c f).power = s.power := rfl
@[simp] theorem State.modCluster_maunvo (s : State) (c : Nat) (f : Cluster → Cluster) : (s.modCluster c f).maunvo = s.maunvo := rfl
@[simp] theorem State.modCluster_pins (s : State) (c : Nat) (f : Cluster → Cluster) : (s.modCluster c f).pins = s.pins := rfl
@[simp] theorem State.modCluster_out (s : State) (c : Nat) (f : Cluster → Cluster) : (s.modCluster c f).out = s.out := rfl
@[simp] theorem State.modCluster_free (s : State) (c : Nat) (f : Cluster → Cluster) : (s.modCluster c f).free = s.free := rfl
theorem State.modCluster_self (s : State) (c : Nat) (f : Cluster → Cluster) : (s.modCluster c f).cluster c = f (s.cluster c) :=
  mapGet_mod_self _ _ _ _
theorem State.modCluster_ne (s : State) (c : Nat) (f : Cluster → Cluster) (c' : Nat) (h : c' ≠ c) :
    (s.modCluster c f).cluster c' = s.cluster c' := mapGet_mod_ne _ _ _ h

/-! State.modPart -/

@[simp] theorem State.modPart_pending (s : State) (p : Nat) (f : Part → Part) : (s.modPart p f).pending = s.pending := rfl
@[simp] theorem State.modPart_clock (s : State) (p : Nat) (f : Part → Part) : (s.modPart p f).clock = s.clock := rfl
@[simp] theorem State.modPart_clusters (s : State) (p : Nat) (f : Part → Part) : (s.modPart p f).clusters = s.clusters := rfl
@[simp] theorem State.modPart_cmem (s : State) (p : Nat) (f : Part → Part) : (s.modPart p f).cmem = s.cmem := rfl
@[simp] theorem State.modPart_qmem (s : State) (p : Nat) (f : Part → Part) : (s.modPart p f).qmem = s.qmem := rfl
@[simp] theorem State.modPart_syncs (s : State) (p : Nat) (f : Part → Part) : (s.modPart p f).syncs = s.syncs := rfl
@[simp] theorem State.modPart_groups (s : State) (p : Nat) (f : Part → Part) : (s.modPart p f).groups = s.groups := rfl
@[simp] theorem State.modPart_fabric (s : State) (p : Nat) (f : Part → Part) : (s.modPart p f).fabric = s.fabric := rfl
@[simp] theorem State.modPart_store (s : State) (p : Nat) (f : Part → Part) : (s.modPart p f).store = s.store := rfl
@[simp] theorem State.modPart_smem (s : State) (p : Nat) (f : Part → Part) : (s.modPart p f).smem = s.smem := rfl
@[simp] theorem State.modPart_ctxs (s : State) (p : Nat) (f : Part → Part) : (s.modPart p f).ctxs = s.ctxs := rfl
@[simp] theorem State.modPart_ueps (s : State) (p : Nat) (f : Part → Part) : (s.modPart p f).ueps = s.ueps := rfl
@[simp] theorem State.modPart_idles (s : State) (p : Nat) (f : Part → Part) : (s.modPart p f).idles = s.idles := rfl
@[simp] theorem State.modPart_pmap (s : State) (p : Nat) (f : Part → Part) : (s.modPart p f).pmap = s.pmap := rfl
@[simp] theorem State.modPart_pmapCtl (s : State) (p : Nat) (f : Part → Part) : (s.modPart p f).pmapCtl = s.pmapCtl := rfl
@[simp] theorem State.modPart_faults (s : State) (p : Nat) (f : Part → Part) : (s.modPart p f).faults = s.faults := rfl
@[simp] theorem State.modPart_counters (s : State) (p : Nat) (f : Part → Part) : (s.modPart p f).counters = s.counters := rfl
@[simp] theorem State.modPart_dict (s : State) (p : Nat) (f : Part → Part) : (s.modPart p f).dict = s.dict := rfl
@[simp] theorem State.modPart_lease (s : State) (p : Nat) (f : Part → Part) : (s.modPart p f).lease = s.lease := rfl
@[simp] theorem State.modPart_binds (s : State) (p : Nat) (f : Part → Part) : (s.modPart p f).binds = s.binds := rfl
@[simp] theorem State.modPart_boot (s : State) (p : Nat) (f : Part → Part) : (s.modPart p f).boot = s.boot := rfl
@[simp] theorem State.modPart_nv (s : State) (p : Nat) (f : Part → Part) : (s.modPart p f).nv = s.nv := rfl
@[simp] theorem State.modPart_trust (s : State) (p : Nat) (f : Part → Part) : (s.modPart p f).trust = s.trust := rfl
@[simp] theorem State.modPart_ports (s : State) (p : Nat) (f : Part → Part) : (s.modPart p f).ports = s.ports := rfl
@[simp] theorem State.modPart_colls (s : State) (p : Nat) (f : Part → Part) : (s.modPart p f).colls = s.colls := rfl
@[simp] theorem State.modPart_host (s : State) (p : Nat) (f : Part → Part) : (s.modPart p f).host = s.host := rfl
@[simp] theorem State.modPart_server (s : State) (p : Nat) (f : Part → Part) : (s.modPart p f).server = s.server := rfl
@[simp] theorem State.modPart_torusTime (s : State) (p : Nat) (f : Part → Part) : (s.modPart p f).torusTime = s.torusTime := rfl
@[simp] theorem State.modPart_clk (s : State) (p : Nat) (f : Part → Part) : (s.modPart p f).clk = s.clk := rfl
@[simp] theorem State.modPart_power (s : State) (p : Nat) (f : Part → Part) : (s.modPart p f).power = s.power := rfl
@[simp] theorem State.modPart_maunvo (s : State) (p : Nat) (f : Part → Part) : (s.modPart p f).maunvo = s.maunvo := rfl
@[simp] theorem State.modPart_pins (s : State) (p : Nat) (f : Part → Part) : (s.modPart p f).pins = s.pins := rfl
@[simp] theorem State.modPart_out (s : State) (p : Nat) (f : Part → Part) : (s.modPart p f).out = s.out := rfl
@[simp] theorem State.modPart_free (s : State) (p : Nat) (f : Part → Part) : (s.modPart p f).free = s.free := rfl
theorem State.modPart_self (s : State) (p : Nat) (f : Part → Part) : (s.modPart p f).part p = f (s.part p) :=
  mapGet_mod_self _ _ _ _
theorem State.modPart_ne (s : State) (p : Nat) (f : Part → Part) (p' : Nat) (h : p' ≠ p) :
    (s.modPart p f).part p' = s.part p' := mapGet_mod_ne _ _ _ h

/-! State.modSync -/

@[simp] theorem State.modSync_pending (s : State) (o : Nat) (f : SyncObj → SyncObj) : (s.modSync o f).pending = s.pending := rfl
@[simp] theorem State.modSync_clock (s : State) (o : Nat) (f : SyncObj → SyncObj) : (s.modSync o f).clock = s.clock := rfl
@[simp] theorem State.modSync_clusters (s : State) (o : Nat) (f : SyncObj → SyncObj) : (s.modSync o f).clusters = s.clusters := rfl
@[simp] theorem State.modSync_cmem (s : State) (o : Nat) (f : SyncObj → SyncObj) : (s.modSync o f).cmem = s.cmem := rfl
@[simp] theorem State.modSync_qmem (s : State) (o : Nat) (f : SyncObj → SyncObj) : (s.modSync o f).qmem = s.qmem := rfl
@[simp] theorem State.modSync_parts (s : State) (o : Nat) (f : SyncObj → SyncObj) : (s.modSync o f).parts = s.parts := rfl
@[simp] theorem State.modSync_groups (s : State) (o : Nat) (f : SyncObj → SyncObj) : (s.modSync o f).groups = s.groups := rfl
@[simp] theorem State.modSync_fabric (s : State) (o : Nat) (f : SyncObj → SyncObj) : (s.modSync o f).fabric = s.fabric := rfl
@[simp] theorem State.modSync_store (s : State) (o : Nat) (f : SyncObj → SyncObj) : (s.modSync o f).store = s.store := rfl
@[simp] theorem State.modSync_smem (s : State) (o : Nat) (f : SyncObj → SyncObj) : (s.modSync o f).smem = s.smem := rfl
@[simp] theorem State.modSync_ctxs (s : State) (o : Nat) (f : SyncObj → SyncObj) : (s.modSync o f).ctxs = s.ctxs := rfl
@[simp] theorem State.modSync_ueps (s : State) (o : Nat) (f : SyncObj → SyncObj) : (s.modSync o f).ueps = s.ueps := rfl
@[simp] theorem State.modSync_idles (s : State) (o : Nat) (f : SyncObj → SyncObj) : (s.modSync o f).idles = s.idles := rfl
@[simp] theorem State.modSync_pmap (s : State) (o : Nat) (f : SyncObj → SyncObj) : (s.modSync o f).pmap = s.pmap := rfl
@[simp] theorem State.modSync_pmapCtl (s : State) (o : Nat) (f : SyncObj → SyncObj) : (s.modSync o f).pmapCtl = s.pmapCtl := rfl
@[simp] theorem State.modSync_faults (s : State) (o : Nat) (f : SyncObj → SyncObj) : (s.modSync o f).faults = s.faults := rfl
@[simp] theorem State.modSync_counters (s : State) (o : Nat) (f : SyncObj → SyncObj) : (s.modSync o f).counters = s.counters := rfl
@[simp] theorem State.modSync_dict (s : State) (o : Nat) (f : SyncObj → SyncObj) : (s.modSync o f).dict = s.dict := rfl
@[simp] theorem State.modSync_lease (s : State) (o : Nat) (f : SyncObj → SyncObj) : (s.modSync o f).lease = s.lease := rfl
@[simp] theorem State.modSync_binds (s : State) (o : Nat) (f : SyncObj → SyncObj) : (s.modSync o f).binds = s.binds := rfl
@[simp] theorem State.modSync_boot (s : State) (o : Nat) (f : SyncObj → SyncObj) : (s.modSync o f).boot = s.boot := rfl
@[simp] theorem State.modSync_nv (s : State) (o : Nat) (f : SyncObj → SyncObj) : (s.modSync o f).nv = s.nv := rfl
@[simp] theorem State.modSync_trust (s : State) (o : Nat) (f : SyncObj → SyncObj) : (s.modSync o f).trust = s.trust := rfl
@[simp] theorem State.modSync_ports (s : State) (o : Nat) (f : SyncObj → SyncObj) : (s.modSync o f).ports = s.ports := rfl
@[simp] theorem State.modSync_colls (s : State) (o : Nat) (f : SyncObj → SyncObj) : (s.modSync o f).colls = s.colls := rfl
@[simp] theorem State.modSync_host (s : State) (o : Nat) (f : SyncObj → SyncObj) : (s.modSync o f).host = s.host := rfl
@[simp] theorem State.modSync_server (s : State) (o : Nat) (f : SyncObj → SyncObj) : (s.modSync o f).server = s.server := rfl
@[simp] theorem State.modSync_torusTime (s : State) (o : Nat) (f : SyncObj → SyncObj) : (s.modSync o f).torusTime = s.torusTime := rfl
@[simp] theorem State.modSync_clk (s : State) (o : Nat) (f : SyncObj → SyncObj) : (s.modSync o f).clk = s.clk := rfl
@[simp] theorem State.modSync_power (s : State) (o : Nat) (f : SyncObj → SyncObj) : (s.modSync o f).power = s.power := rfl
@[simp] theorem State.modSync_maunvo (s : State) (o : Nat) (f : SyncObj → SyncObj) : (s.modSync o f).maunvo = s.maunvo := rfl
@[simp] theorem State.modSync_pins (s : State) (o : Nat) (f : SyncObj → SyncObj) : (s.modSync o f).pins = s.pins := rfl
@[simp] theorem State.modSync_out (s : State) (o : Nat) (f : SyncObj → SyncObj) : (s.modSync o f).out = s.out := rfl
@[simp] theorem State.modSync_free (s : State) (o : Nat) (f : SyncObj → SyncObj) : (s.modSync o f).free = s.free := rfl
theorem State.modSync_self (s : State) (o : Nat) (f : SyncObj → SyncObj) : (s.modSync o f).sync o = f (s.sync o) :=
  mapGet_mod_self _ _ _ _
theorem State.modSync_ne (s : State) (o : Nat) (f : SyncObj → SyncObj) (o' : Nat) (h : o' ≠ o) :
    (s.modSync o f).sync o' = s.sync o' := mapGet_mod_ne _ _ _ h

/-! State.modGroup -/

@[simp] theorem State.modGroup_pending (s : State) (g : Nat) (f : Group → Group) : (s.modGroup g f).pending = s.pending := rfl
@[simp] theorem State.modGroup_clock (s : State) (g : Nat) (f : Group → Group) : (s.modGroup g f).clock = s.clock := rfl
@[simp] theorem State.modGroup_clusters (s : State) (g : Nat) (f : Group → Group) : (s.modGroup g f).clusters = s.clusters := rfl
@[simp] theorem State.modGroup_cmem (s : State) (g : Nat) (f : Group → Group) : (s.modGroup g f).cmem = s.cmem := rfl
@[simp] theorem State.modGroup_qmem (s : State) (g : Nat) (f : Group → Group) : (s.modGroup g f).qmem = s.qmem := rfl
@[simp] theorem State.modGroup_parts (s : State) (g : Nat) (f : Group → Group) : (s.modGroup g f).parts = s.parts := rfl
@[simp] theorem State.modGroup_syncs (s : State) (g : Nat) (f : Group → Group) : (s.modGroup g f).syncs = s.syncs := rfl
@[simp] theorem State.modGroup_fabric (s : State) (g : Nat) (f : Group → Group) : (s.modGroup g f).fabric = s.fabric := rfl
@[simp] theorem State.modGroup_store (s : State) (g : Nat) (f : Group → Group) : (s.modGroup g f).store = s.store := rfl
@[simp] theorem State.modGroup_smem (s : State) (g : Nat) (f : Group → Group) : (s.modGroup g f).smem = s.smem := rfl
@[simp] theorem State.modGroup_ctxs (s : State) (g : Nat) (f : Group → Group) : (s.modGroup g f).ctxs = s.ctxs := rfl
@[simp] theorem State.modGroup_ueps (s : State) (g : Nat) (f : Group → Group) : (s.modGroup g f).ueps = s.ueps := rfl
@[simp] theorem State.modGroup_idles (s : State) (g : Nat) (f : Group → Group) : (s.modGroup g f).idles = s.idles := rfl
@[simp] theorem State.modGroup_pmap (s : State) (g : Nat) (f : Group → Group) : (s.modGroup g f).pmap = s.pmap := rfl
@[simp] theorem State.modGroup_pmapCtl (s : State) (g : Nat) (f : Group → Group) : (s.modGroup g f).pmapCtl = s.pmapCtl := rfl
@[simp] theorem State.modGroup_faults (s : State) (g : Nat) (f : Group → Group) : (s.modGroup g f).faults = s.faults := rfl
@[simp] theorem State.modGroup_counters (s : State) (g : Nat) (f : Group → Group) : (s.modGroup g f).counters = s.counters := rfl
@[simp] theorem State.modGroup_dict (s : State) (g : Nat) (f : Group → Group) : (s.modGroup g f).dict = s.dict := rfl
@[simp] theorem State.modGroup_lease (s : State) (g : Nat) (f : Group → Group) : (s.modGroup g f).lease = s.lease := rfl
@[simp] theorem State.modGroup_binds (s : State) (g : Nat) (f : Group → Group) : (s.modGroup g f).binds = s.binds := rfl
@[simp] theorem State.modGroup_boot (s : State) (g : Nat) (f : Group → Group) : (s.modGroup g f).boot = s.boot := rfl
@[simp] theorem State.modGroup_nv (s : State) (g : Nat) (f : Group → Group) : (s.modGroup g f).nv = s.nv := rfl
@[simp] theorem State.modGroup_trust (s : State) (g : Nat) (f : Group → Group) : (s.modGroup g f).trust = s.trust := rfl
@[simp] theorem State.modGroup_ports (s : State) (g : Nat) (f : Group → Group) : (s.modGroup g f).ports = s.ports := rfl
@[simp] theorem State.modGroup_colls (s : State) (g : Nat) (f : Group → Group) : (s.modGroup g f).colls = s.colls := rfl
@[simp] theorem State.modGroup_host (s : State) (g : Nat) (f : Group → Group) : (s.modGroup g f).host = s.host := rfl
@[simp] theorem State.modGroup_server (s : State) (g : Nat) (f : Group → Group) : (s.modGroup g f).server = s.server := rfl
@[simp] theorem State.modGroup_torusTime (s : State) (g : Nat) (f : Group → Group) : (s.modGroup g f).torusTime = s.torusTime := rfl
@[simp] theorem State.modGroup_clk (s : State) (g : Nat) (f : Group → Group) : (s.modGroup g f).clk = s.clk := rfl
@[simp] theorem State.modGroup_power (s : State) (g : Nat) (f : Group → Group) : (s.modGroup g f).power = s.power := rfl
@[simp] theorem State.modGroup_maunvo (s : State) (g : Nat) (f : Group → Group) : (s.modGroup g f).maunvo = s.maunvo := rfl
@[simp] theorem State.modGroup_pins (s : State) (g : Nat) (f : Group → Group) : (s.modGroup g f).pins = s.pins := rfl
@[simp] theorem State.modGroup_out (s : State) (g : Nat) (f : Group → Group) : (s.modGroup g f).out = s.out := rfl
@[simp] theorem State.modGroup_free (s : State) (g : Nat) (f : Group → Group) : (s.modGroup g f).free = s.free := rfl
theorem State.modGroup_self (s : State) (g : Nat) (f : Group → Group) : (s.modGroup g f).group g = f (s.group g) :=
  mapGet_mod_self _ _ _ _
theorem State.modGroup_ne (s : State) (g : Nat) (f : Group → Group) (g' : Nat) (h : g' ≠ g) :
    (s.modGroup g f).group g' = s.group g' := mapGet_mod_ne _ _ _ h

/-! State.modCtx -/

@[simp] theorem State.modCtx_pending (s : State) (c k : Nat) (f : Ctx → Ctx) : (s.modCtx c k f).pending = s.pending := rfl
@[simp] theorem State.modCtx_clock (s : State) (c k : Nat) (f : Ctx → Ctx) : (s.modCtx c k f).clock = s.clock := rfl
@[simp] theorem State.modCtx_clusters (s : State) (c k : Nat) (f : Ctx → Ctx) : (s.modCtx c k f).clusters = s.clusters := rfl
@[simp] theorem State.modCtx_cmem (s : State) (c k : Nat) (f : Ctx → Ctx) : (s.modCtx c k f).cmem = s.cmem := rfl
@[simp] theorem State.modCtx_qmem (s : State) (c k : Nat) (f : Ctx → Ctx) : (s.modCtx c k f).qmem = s.qmem := rfl
@[simp] theorem State.modCtx_parts (s : State) (c k : Nat) (f : Ctx → Ctx) : (s.modCtx c k f).parts = s.parts := rfl
@[simp] theorem State.modCtx_syncs (s : State) (c k : Nat) (f : Ctx → Ctx) : (s.modCtx c k f).syncs = s.syncs := rfl
@[simp] theorem State.modCtx_groups (s : State) (c k : Nat) (f : Ctx → Ctx) : (s.modCtx c k f).groups = s.groups := rfl
@[simp] theorem State.modCtx_fabric (s : State) (c k : Nat) (f : Ctx → Ctx) : (s.modCtx c k f).fabric = s.fabric := rfl
@[simp] theorem State.modCtx_store (s : State) (c k : Nat) (f : Ctx → Ctx) : (s.modCtx c k f).store = s.store := rfl
@[simp] theorem State.modCtx_smem (s : State) (c k : Nat) (f : Ctx → Ctx) : (s.modCtx c k f).smem = s.smem := rfl
@[simp] theorem State.modCtx_ueps (s : State) (c k : Nat) (f : Ctx → Ctx) : (s.modCtx c k f).ueps = s.ueps := rfl
@[simp] theorem State.modCtx_idles (s : State) (c k : Nat) (f : Ctx → Ctx) : (s.modCtx c k f).idles = s.idles := rfl
@[simp] theorem State.modCtx_pmap (s : State) (c k : Nat) (f : Ctx → Ctx) : (s.modCtx c k f).pmap = s.pmap := rfl
@[simp] theorem State.modCtx_pmapCtl (s : State) (c k : Nat) (f : Ctx → Ctx) : (s.modCtx c k f).pmapCtl = s.pmapCtl := rfl
@[simp] theorem State.modCtx_faults (s : State) (c k : Nat) (f : Ctx → Ctx) : (s.modCtx c k f).faults = s.faults := rfl
@[simp] theorem State.modCtx_counters (s : State) (c k : Nat) (f : Ctx → Ctx) : (s.modCtx c k f).counters = s.counters := rfl
@[simp] theorem State.modCtx_dict (s : State) (c k : Nat) (f : Ctx → Ctx) : (s.modCtx c k f).dict = s.dict := rfl
@[simp] theorem State.modCtx_lease (s : State) (c k : Nat) (f : Ctx → Ctx) : (s.modCtx c k f).lease = s.lease := rfl
@[simp] theorem State.modCtx_binds (s : State) (c k : Nat) (f : Ctx → Ctx) : (s.modCtx c k f).binds = s.binds := rfl
@[simp] theorem State.modCtx_boot (s : State) (c k : Nat) (f : Ctx → Ctx) : (s.modCtx c k f).boot = s.boot := rfl
@[simp] theorem State.modCtx_nv (s : State) (c k : Nat) (f : Ctx → Ctx) : (s.modCtx c k f).nv = s.nv := rfl
@[simp] theorem State.modCtx_trust (s : State) (c k : Nat) (f : Ctx → Ctx) : (s.modCtx c k f).trust = s.trust := rfl
@[simp] theorem State.modCtx_ports (s : State) (c k : Nat) (f : Ctx → Ctx) : (s.modCtx c k f).ports = s.ports := rfl
@[simp] theorem State.modCtx_colls (s : State) (c k : Nat) (f : Ctx → Ctx) : (s.modCtx c k f).colls = s.colls := rfl
@[simp] theorem State.modCtx_host (s : State) (c k : Nat) (f : Ctx → Ctx) : (s.modCtx c k f).host = s.host := rfl
@[simp] theorem State.modCtx_server (s : State) (c k : Nat) (f : Ctx → Ctx) : (s.modCtx c k f).server = s.server := rfl
@[simp] theorem State.modCtx_torusTime (s : State) (c k : Nat) (f : Ctx → Ctx) : (s.modCtx c k f).torusTime = s.torusTime := rfl
@[simp] theorem State.modCtx_clk (s : State) (c k : Nat) (f : Ctx → Ctx) : (s.modCtx c k f).clk = s.clk := rfl
@[simp] theorem State.modCtx_power (s : State) (c k : Nat) (f : Ctx → Ctx) : (s.modCtx c k f).power = s.power := rfl
@[simp] theorem State.modCtx_maunvo (s : State) (c k : Nat) (f : Ctx → Ctx) : (s.modCtx c k f).maunvo = s.maunvo := rfl
@[simp] theorem State.modCtx_pins (s : State) (c k : Nat) (f : Ctx → Ctx) : (s.modCtx c k f).pins = s.pins := rfl
@[simp] theorem State.modCtx_out (s : State) (c k : Nat) (f : Ctx → Ctx) : (s.modCtx c k f).out = s.out := rfl
@[simp] theorem State.modCtx_free (s : State) (c k : Nat) (f : Ctx → Ctx) : (s.modCtx c k f).free = s.free := rfl
theorem State.modCtx_self (s : State) (c k : Nat) (f : Ctx → Ctx) : (s.modCtx c k f).ctx c k = f (s.ctx c k) :=
  mapGet_mod_self _ _ _ _
theorem State.modCtx_ne (s : State) (c k : Nat) (f : Ctx → Ctx) (c' k' : Nat) (h : (4 * c' + k') ≠ (4 * c + k)) :
    (s.modCtx c k f).ctx c' k' = s.ctx c' k' := mapGet_mod_ne _ _ _ h

/-! State.modUep -/

@[simp] theorem State.modUep_pending (s : State) (stack p : Nat) (f : Uep → Uep) : (s.modUep stack p f).pending = s.pending := rfl
@[simp] theorem State.modUep_clock (s : State) (stack p : Nat) (f : Uep → Uep) : (s.modUep stack p f).clock = s.clock := rfl
@[simp] theorem State.modUep_clusters (s : State) (stack p : Nat) (f : Uep → Uep) : (s.modUep stack p f).clusters = s.clusters := rfl
@[simp] theorem State.modUep_cmem (s : State) (stack p : Nat) (f : Uep → Uep) : (s.modUep stack p f).cmem = s.cmem := rfl
@[simp] theorem State.modUep_qmem (s : State) (stack p : Nat) (f : Uep → Uep) : (s.modUep stack p f).qmem = s.qmem := rfl
@[simp] theorem State.modUep_parts (s : State) (stack p : Nat) (f : Uep → Uep) : (s.modUep stack p f).parts = s.parts := rfl
@[simp] theorem State.modUep_syncs (s : State) (stack p : Nat) (f : Uep → Uep) : (s.modUep stack p f).syncs = s.syncs := rfl
@[simp] theorem State.modUep_groups (s : State) (stack p : Nat) (f : Uep → Uep) : (s.modUep stack p f).groups = s.groups := rfl
@[simp] theorem State.modUep_fabric (s : State) (stack p : Nat) (f : Uep → Uep) : (s.modUep stack p f).fabric = s.fabric := rfl
@[simp] theorem State.modUep_store (s : State) (stack p : Nat) (f : Uep → Uep) : (s.modUep stack p f).store = s.store := rfl
@[simp] theorem State.modUep_smem (s : State) (stack p : Nat) (f : Uep → Uep) : (s.modUep stack p f).smem = s.smem := rfl
@[simp] theorem State.modUep_ctxs (s : State) (stack p : Nat) (f : Uep → Uep) : (s.modUep stack p f).ctxs = s.ctxs := rfl
@[simp] theorem State.modUep_idles (s : State) (stack p : Nat) (f : Uep → Uep) : (s.modUep stack p f).idles = s.idles := rfl
@[simp] theorem State.modUep_pmap (s : State) (stack p : Nat) (f : Uep → Uep) : (s.modUep stack p f).pmap = s.pmap := rfl
@[simp] theorem State.modUep_pmapCtl (s : State) (stack p : Nat) (f : Uep → Uep) : (s.modUep stack p f).pmapCtl = s.pmapCtl := rfl
@[simp] theorem State.modUep_faults (s : State) (stack p : Nat) (f : Uep → Uep) : (s.modUep stack p f).faults = s.faults := rfl
@[simp] theorem State.modUep_counters (s : State) (stack p : Nat) (f : Uep → Uep) : (s.modUep stack p f).counters = s.counters := rfl
@[simp] theorem State.modUep_dict (s : State) (stack p : Nat) (f : Uep → Uep) : (s.modUep stack p f).dict = s.dict := rfl
@[simp] theorem State.modUep_lease (s : State) (stack p : Nat) (f : Uep → Uep) : (s.modUep stack p f).lease = s.lease := rfl
@[simp] theorem State.modUep_binds (s : State) (stack p : Nat) (f : Uep → Uep) : (s.modUep stack p f).binds = s.binds := rfl
@[simp] theorem State.modUep_boot (s : State) (stack p : Nat) (f : Uep → Uep) : (s.modUep stack p f).boot = s.boot := rfl
@[simp] theorem State.modUep_nv (s : State) (stack p : Nat) (f : Uep → Uep) : (s.modUep stack p f).nv = s.nv := rfl
@[simp] theorem State.modUep_trust (s : State) (stack p : Nat) (f : Uep → Uep) : (s.modUep stack p f).trust = s.trust := rfl
@[simp] theorem State.modUep_ports (s : State) (stack p : Nat) (f : Uep → Uep) : (s.modUep stack p f).ports = s.ports := rfl
@[simp] theorem State.modUep_colls (s : State) (stack p : Nat) (f : Uep → Uep) : (s.modUep stack p f).colls = s.colls := rfl
@[simp] theorem State.modUep_host (s : State) (stack p : Nat) (f : Uep → Uep) : (s.modUep stack p f).host = s.host := rfl
@[simp] theorem State.modUep_server (s : State) (stack p : Nat) (f : Uep → Uep) : (s.modUep stack p f).server = s.server := rfl
@[simp] theorem State.modUep_torusTime (s : State) (stack p : Nat) (f : Uep → Uep) : (s.modUep stack p f).torusTime = s.torusTime := rfl
@[simp] theorem State.modUep_clk (s : State) (stack p : Nat) (f : Uep → Uep) : (s.modUep stack p f).clk = s.clk := rfl
@[simp] theorem State.modUep_power (s : State) (stack p : Nat) (f : Uep → Uep) : (s.modUep stack p f).power = s.power := rfl
@[simp] theorem State.modUep_maunvo (s : State) (stack p : Nat) (f : Uep → Uep) : (s.modUep stack p f).maunvo = s.maunvo := rfl
@[simp] theorem State.modUep_pins (s : State) (stack p : Nat) (f : Uep → Uep) : (s.modUep stack p f).pins = s.pins := rfl
@[simp] theorem State.modUep_out (s : State) (stack p : Nat) (f : Uep → Uep) : (s.modUep stack p f).out = s.out := rfl
@[simp] theorem State.modUep_free (s : State) (stack p : Nat) (f : Uep → Uep) : (s.modUep stack p f).free = s.free := rfl
theorem State.modUep_self (s : State) (stack p : Nat) (f : Uep → Uep) : (s.modUep stack p f).uep stack p = f (s.uep stack p) :=
  mapGet_mod_self _ _ _ _
theorem State.modUep_ne (s : State) (stack p : Nat) (f : Uep → Uep) (stack' p' : Nat) (h : (8 * stack' + p') ≠ (8 * stack + p)) :
    (s.modUep stack p f).uep stack' p' = s.uep stack' p' := mapGet_mod_ne _ _ _ h

/-! State.modStack -/

@[simp] theorem State.modStack_pending (s : State) (n : Nat) (f : Stack → Stack) : (s.modStack n f).pending = s.pending := rfl
@[simp] theorem State.modStack_clock (s : State) (n : Nat) (f : Stack → Stack) : (s.modStack n f).clock = s.clock := rfl
@[simp] theorem State.modStack_clusters (s : State) (n : Nat) (f : Stack → Stack) : (s.modStack n f).clusters = s.clusters := rfl
@[simp] theorem State.modStack_cmem (s : State) (n : Nat) (f : Stack → Stack) : (s.modStack n f).cmem = s.cmem := rfl
@[simp] theorem State.modStack_qmem (s : State) (n : Nat) (f : Stack → Stack) : (s.modStack n f).qmem = s.qmem := rfl
@[simp] theorem State.modStack_parts (s : State) (n : Nat) (f : Stack → Stack) : (s.modStack n f).parts = s.parts := rfl
@[simp] theorem State.modStack_syncs (s : State) (n : Nat) (f : Stack → Stack) : (s.modStack n f).syncs = s.syncs := rfl
@[simp] theorem State.modStack_groups (s : State) (n : Nat) (f : Stack → Stack) : (s.modStack n f).groups = s.groups := rfl
@[simp] theorem State.modStack_fabric (s : State) (n : Nat) (f : Stack → Stack) : (s.modStack n f).fabric = s.fabric := rfl
@[simp] theorem State.modStack_smem (s : State) (n : Nat) (f : Stack → Stack) : (s.modStack n f).smem = s.smem := rfl
@[simp] theorem State.modStack_ctxs (s : State) (n : Nat) (f : Stack → Stack) : (s.modStack n f).ctxs = s.ctxs := rfl
@[simp] theorem State.modStack_ueps (s : State) (n : Nat) (f : Stack → Stack) : (s.modStack n f).ueps = s.ueps := rfl
@[simp] theorem State.modStack_idles (s : State) (n : Nat) (f : Stack → Stack) : (s.modStack n f).idles = s.idles := rfl
@[simp] theorem State.modStack_pmap (s : State) (n : Nat) (f : Stack → Stack) : (s.modStack n f).pmap = s.pmap := rfl
@[simp] theorem State.modStack_pmapCtl (s : State) (n : Nat) (f : Stack → Stack) : (s.modStack n f).pmapCtl = s.pmapCtl := rfl
@[simp] theorem State.modStack_faults (s : State) (n : Nat) (f : Stack → Stack) : (s.modStack n f).faults = s.faults := rfl
@[simp] theorem State.modStack_counters (s : State) (n : Nat) (f : Stack → Stack) : (s.modStack n f).counters = s.counters := rfl
@[simp] theorem State.modStack_dict (s : State) (n : Nat) (f : Stack → Stack) : (s.modStack n f).dict = s.dict := rfl
@[simp] theorem State.modStack_lease (s : State) (n : Nat) (f : Stack → Stack) : (s.modStack n f).lease = s.lease := rfl
@[simp] theorem State.modStack_binds (s : State) (n : Nat) (f : Stack → Stack) : (s.modStack n f).binds = s.binds := rfl
@[simp] theorem State.modStack_boot (s : State) (n : Nat) (f : Stack → Stack) : (s.modStack n f).boot = s.boot := rfl
@[simp] theorem State.modStack_nv (s : State) (n : Nat) (f : Stack → Stack) : (s.modStack n f).nv = s.nv := rfl
@[simp] theorem State.modStack_trust (s : State) (n : Nat) (f : Stack → Stack) : (s.modStack n f).trust = s.trust := rfl
@[simp] theorem State.modStack_ports (s : State) (n : Nat) (f : Stack → Stack) : (s.modStack n f).ports = s.ports := rfl
@[simp] theorem State.modStack_colls (s : State) (n : Nat) (f : Stack → Stack) : (s.modStack n f).colls = s.colls := rfl
@[simp] theorem State.modStack_host (s : State) (n : Nat) (f : Stack → Stack) : (s.modStack n f).host = s.host := rfl
@[simp] theorem State.modStack_server (s : State) (n : Nat) (f : Stack → Stack) : (s.modStack n f).server = s.server := rfl
@[simp] theorem State.modStack_torusTime (s : State) (n : Nat) (f : Stack → Stack) : (s.modStack n f).torusTime = s.torusTime := rfl
@[simp] theorem State.modStack_clk (s : State) (n : Nat) (f : Stack → Stack) : (s.modStack n f).clk = s.clk := rfl
@[simp] theorem State.modStack_power (s : State) (n : Nat) (f : Stack → Stack) : (s.modStack n f).power = s.power := rfl
@[simp] theorem State.modStack_maunvo (s : State) (n : Nat) (f : Stack → Stack) : (s.modStack n f).maunvo = s.maunvo := rfl
@[simp] theorem State.modStack_pins (s : State) (n : Nat) (f : Stack → Stack) : (s.modStack n f).pins = s.pins := rfl
@[simp] theorem State.modStack_out (s : State) (n : Nat) (f : Stack → Stack) : (s.modStack n f).out = s.out := rfl
@[simp] theorem State.modStack_free (s : State) (n : Nat) (f : Stack → Stack) : (s.modStack n f).free = s.free := rfl
theorem State.modStack_self (s : State) (n : Nat) (f : Stack → Stack) : (s.modStack n f).stack n = f (s.stack n) :=
  mapGet_mod_self _ _ _ _
theorem State.modStack_ne (s : State) (n : Nat) (f : Stack → Stack) (n' : Nat) (h : n' ≠ n) :
    (s.modStack n f).stack n' = s.stack n' := mapGet_mod_ne _ _ _ h

/-! State.modPage -/

@[simp] theorem State.modPage_pending (s : State) (stack page : Nat) (f : Page → Page) : (s.modPage stack page f).pending = s.pending := rfl
@[simp] theorem State.modPage_clock (s : State) (stack page : Nat) (f : Page → Page) : (s.modPage stack page f).clock = s.clock := rfl
@[simp] theorem State.modPage_clusters (s : State) (stack page : Nat) (f : Page → Page) : (s.modPage stack page f).clusters = s.clusters := rfl
@[simp] theorem State.modPage_cmem (s : State) (stack page : Nat) (f : Page → Page) : (s.modPage stack page f).cmem = s.cmem := rfl
@[simp] theorem State.modPage_qmem (s : State) (stack page : Nat) (f : Page → Page) : (s.modPage stack page f).qmem = s.qmem := rfl
@[simp] theorem State.modPage_parts (s : State) (stack page : Nat) (f : Page → Page) : (s.modPage stack page f).parts = s.parts := rfl
@[simp] theorem State.modPage_syncs (s : State) (stack page : Nat) (f : Page → Page) : (s.modPage stack page f).syncs = s.syncs := rfl
@[simp] theorem State.modPage_groups (s : State) (stack page : Nat) (f : Page → Page) : (s.modPage stack page f).groups = s.groups := rfl
@[simp] theorem State.modPage_fabric (s : State) (stack page : Nat) (f : Page → Page) : (s.modPage stack page f).fabric = s.fabric := rfl
@[simp] theorem State.modPage_smem (s : State) (stack page : Nat) (f : Page → Page) : (s.modPage stack page f).smem = s.smem := rfl
@[simp] theorem State.modPage_ctxs (s : State) (stack page : Nat) (f : Page → Page) : (s.modPage stack page f).ctxs = s.ctxs := rfl
@[simp] theorem State.modPage_ueps (s : State) (stack page : Nat) (f : Page → Page) : (s.modPage stack page f).ueps = s.ueps := rfl
@[simp] theorem State.modPage_idles (s : State) (stack page : Nat) (f : Page → Page) : (s.modPage stack page f).idles = s.idles := rfl
@[simp] theorem State.modPage_pmap (s : State) (stack page : Nat) (f : Page → Page) : (s.modPage stack page f).pmap = s.pmap := rfl
@[simp] theorem State.modPage_pmapCtl (s : State) (stack page : Nat) (f : Page → Page) : (s.modPage stack page f).pmapCtl = s.pmapCtl := rfl
@[simp] theorem State.modPage_faults (s : State) (stack page : Nat) (f : Page → Page) : (s.modPage stack page f).faults = s.faults := rfl
@[simp] theorem State.modPage_counters (s : State) (stack page : Nat) (f : Page → Page) : (s.modPage stack page f).counters = s.counters := rfl
@[simp] theorem State.modPage_dict (s : State) (stack page : Nat) (f : Page → Page) : (s.modPage stack page f).dict = s.dict := rfl
@[simp] theorem State.modPage_lease (s : State) (stack page : Nat) (f : Page → Page) : (s.modPage stack page f).lease = s.lease := rfl
@[simp] theorem State.modPage_binds (s : State) (stack page : Nat) (f : Page → Page) : (s.modPage stack page f).binds = s.binds := rfl
@[simp] theorem State.modPage_boot (s : State) (stack page : Nat) (f : Page → Page) : (s.modPage stack page f).boot = s.boot := rfl
@[simp] theorem State.modPage_nv (s : State) (stack page : Nat) (f : Page → Page) : (s.modPage stack page f).nv = s.nv := rfl
@[simp] theorem State.modPage_trust (s : State) (stack page : Nat) (f : Page → Page) : (s.modPage stack page f).trust = s.trust := rfl
@[simp] theorem State.modPage_ports (s : State) (stack page : Nat) (f : Page → Page) : (s.modPage stack page f).ports = s.ports := rfl
@[simp] theorem State.modPage_colls (s : State) (stack page : Nat) (f : Page → Page) : (s.modPage stack page f).colls = s.colls := rfl
@[simp] theorem State.modPage_host (s : State) (stack page : Nat) (f : Page → Page) : (s.modPage stack page f).host = s.host := rfl
@[simp] theorem State.modPage_server (s : State) (stack page : Nat) (f : Page → Page) : (s.modPage stack page f).server = s.server := rfl
@[simp] theorem State.modPage_torusTime (s : State) (stack page : Nat) (f : Page → Page) : (s.modPage stack page f).torusTime = s.torusTime := rfl
@[simp] theorem State.modPage_clk (s : State) (stack page : Nat) (f : Page → Page) : (s.modPage stack page f).clk = s.clk := rfl
@[simp] theorem State.modPage_power (s : State) (stack page : Nat) (f : Page → Page) : (s.modPage stack page f).power = s.power := rfl
@[simp] theorem State.modPage_maunvo (s : State) (stack page : Nat) (f : Page → Page) : (s.modPage stack page f).maunvo = s.maunvo := rfl
@[simp] theorem State.modPage_pins (s : State) (stack page : Nat) (f : Page → Page) : (s.modPage stack page f).pins = s.pins := rfl
@[simp] theorem State.modPage_out (s : State) (stack page : Nat) (f : Page → Page) : (s.modPage stack page f).out = s.out := rfl
@[simp] theorem State.modPage_free (s : State) (stack page : Nat) (f : Page → Page) : (s.modPage stack page f).free = s.free := rfl
theorem State.modPage_self (s : State) (stack page : Nat) (f : Page → Page) : (s.modPage stack page f).page stack page = f (s.page stack page) :=
  mapGet_mod_self _ _ _ _
theorem State.modPage_ne (s : State) (stack page : Nat) (f : Page → Page) (stack' page' : Nat) (h : (24576 * stack' + page') ≠ (24576 * stack + page)) :
    (s.modPage stack page f).page stack' page' = s.page stack' page' := mapGet_mod_ne _ _ _ h

/-! State.modIdle -/

@[simp] theorem State.modIdle_pending (s : State) (p : Nat) (f : Idle → Idle) : (s.modIdle p f).pending = s.pending := rfl
@[simp] theorem State.modIdle_clock (s : State) (p : Nat) (f : Idle → Idle) : (s.modIdle p f).clock = s.clock := rfl
@[simp] theorem State.modIdle_clusters (s : State) (p : Nat) (f : Idle → Idle) : (s.modIdle p f).clusters = s.clusters := rfl
@[simp] theorem State.modIdle_cmem (s : State) (p : Nat) (f : Idle → Idle) : (s.modIdle p f).cmem = s.cmem := rfl
@[simp] theorem State.modIdle_qmem (s : State) (p : Nat) (f : Idle → Idle) : (s.modIdle p f).qmem = s.qmem := rfl
@[simp] theorem State.modIdle_parts (s : State) (p : Nat) (f : Idle → Idle) : (s.modIdle p f).parts = s.parts := rfl
@[simp] theorem State.modIdle_syncs (s : State) (p : Nat) (f : Idle → Idle) : (s.modIdle p f).syncs = s.syncs := rfl
@[simp] theorem State.modIdle_groups (s : State) (p : Nat) (f : Idle → Idle) : (s.modIdle p f).groups = s.groups := rfl
@[simp] theorem State.modIdle_fabric (s : State) (p : Nat) (f : Idle → Idle) : (s.modIdle p f).fabric = s.fabric := rfl
@[simp] theorem State.modIdle_store (s : State) (p : Nat) (f : Idle → Idle) : (s.modIdle p f).store = s.store := rfl
@[simp] theorem State.modIdle_smem (s : State) (p : Nat) (f : Idle → Idle) : (s.modIdle p f).smem = s.smem := rfl
@[simp] theorem State.modIdle_ctxs (s : State) (p : Nat) (f : Idle → Idle) : (s.modIdle p f).ctxs = s.ctxs := rfl
@[simp] theorem State.modIdle_ueps (s : State) (p : Nat) (f : Idle → Idle) : (s.modIdle p f).ueps = s.ueps := rfl
@[simp] theorem State.modIdle_pmap (s : State) (p : Nat) (f : Idle → Idle) : (s.modIdle p f).pmap = s.pmap := rfl
@[simp] theorem State.modIdle_pmapCtl (s : State) (p : Nat) (f : Idle → Idle) : (s.modIdle p f).pmapCtl = s.pmapCtl := rfl
@[simp] theorem State.modIdle_faults (s : State) (p : Nat) (f : Idle → Idle) : (s.modIdle p f).faults = s.faults := rfl
@[simp] theorem State.modIdle_counters (s : State) (p : Nat) (f : Idle → Idle) : (s.modIdle p f).counters = s.counters := rfl
@[simp] theorem State.modIdle_dict (s : State) (p : Nat) (f : Idle → Idle) : (s.modIdle p f).dict = s.dict := rfl
@[simp] theorem State.modIdle_lease (s : State) (p : Nat) (f : Idle → Idle) : (s.modIdle p f).lease = s.lease := rfl
@[simp] theorem State.modIdle_binds (s : State) (p : Nat) (f : Idle → Idle) : (s.modIdle p f).binds = s.binds := rfl
@[simp] theorem State.modIdle_boot (s : State) (p : Nat) (f : Idle → Idle) : (s.modIdle p f).boot = s.boot := rfl
@[simp] theorem State.modIdle_nv (s : State) (p : Nat) (f : Idle → Idle) : (s.modIdle p f).nv = s.nv := rfl
@[simp] theorem State.modIdle_trust (s : State) (p : Nat) (f : Idle → Idle) : (s.modIdle p f).trust = s.trust := rfl
@[simp] theorem State.modIdle_ports (s : State) (p : Nat) (f : Idle → Idle) : (s.modIdle p f).ports = s.ports := rfl
@[simp] theorem State.modIdle_colls (s : State) (p : Nat) (f : Idle → Idle) : (s.modIdle p f).colls = s.colls := rfl
@[simp] theorem State.modIdle_host (s : State) (p : Nat) (f : Idle → Idle) : (s.modIdle p f).host = s.host := rfl
@[simp] theorem State.modIdle_server (s : State) (p : Nat) (f : Idle → Idle) : (s.modIdle p f).server = s.server := rfl
@[simp] theorem State.modIdle_torusTime (s : State) (p : Nat) (f : Idle → Idle) : (s.modIdle p f).torusTime = s.torusTime := rfl
@[simp] theorem State.modIdle_clk (s : State) (p : Nat) (f : Idle → Idle) : (s.modIdle p f).clk = s.clk := rfl
@[simp] theorem State.modIdle_power (s : State) (p : Nat) (f : Idle → Idle) : (s.modIdle p f).power = s.power := rfl
@[simp] theorem State.modIdle_maunvo (s : State) (p : Nat) (f : Idle → Idle) : (s.modIdle p f).maunvo = s.maunvo := rfl
@[simp] theorem State.modIdle_pins (s : State) (p : Nat) (f : Idle → Idle) : (s.modIdle p f).pins = s.pins := rfl
@[simp] theorem State.modIdle_out (s : State) (p : Nat) (f : Idle → Idle) : (s.modIdle p f).out = s.out := rfl
@[simp] theorem State.modIdle_free (s : State) (p : Nat) (f : Idle → Idle) : (s.modIdle p f).free = s.free := rfl
theorem State.modIdle_self (s : State) (p : Nat) (f : Idle → Idle) : (s.modIdle p f).idle p = f (s.idle p) :=
  mapGet_mod_self _ _ _ _
theorem State.modIdle_ne (s : State) (p : Nat) (f : Idle → Idle) (p' : Nat) (h : p' ≠ p) :
    (s.modIdle p f).idle p' = s.idle p' := mapGet_mod_ne _ _ _ h

/-! State.modBind -/

@[simp] theorem State.modBind_pending (s : State) (p : Nat) (f : Bind → Bind) : (s.modBind p f).pending = s.pending := rfl
@[simp] theorem State.modBind_clock (s : State) (p : Nat) (f : Bind → Bind) : (s.modBind p f).clock = s.clock := rfl
@[simp] theorem State.modBind_clusters (s : State) (p : Nat) (f : Bind → Bind) : (s.modBind p f).clusters = s.clusters := rfl
@[simp] theorem State.modBind_cmem (s : State) (p : Nat) (f : Bind → Bind) : (s.modBind p f).cmem = s.cmem := rfl
@[simp] theorem State.modBind_qmem (s : State) (p : Nat) (f : Bind → Bind) : (s.modBind p f).qmem = s.qmem := rfl
@[simp] theorem State.modBind_parts (s : State) (p : Nat) (f : Bind → Bind) : (s.modBind p f).parts = s.parts := rfl
@[simp] theorem State.modBind_syncs (s : State) (p : Nat) (f : Bind → Bind) : (s.modBind p f).syncs = s.syncs := rfl
@[simp] theorem State.modBind_groups (s : State) (p : Nat) (f : Bind → Bind) : (s.modBind p f).groups = s.groups := rfl
@[simp] theorem State.modBind_fabric (s : State) (p : Nat) (f : Bind → Bind) : (s.modBind p f).fabric = s.fabric := rfl
@[simp] theorem State.modBind_store (s : State) (p : Nat) (f : Bind → Bind) : (s.modBind p f).store = s.store := rfl
@[simp] theorem State.modBind_smem (s : State) (p : Nat) (f : Bind → Bind) : (s.modBind p f).smem = s.smem := rfl
@[simp] theorem State.modBind_ctxs (s : State) (p : Nat) (f : Bind → Bind) : (s.modBind p f).ctxs = s.ctxs := rfl
@[simp] theorem State.modBind_ueps (s : State) (p : Nat) (f : Bind → Bind) : (s.modBind p f).ueps = s.ueps := rfl
@[simp] theorem State.modBind_idles (s : State) (p : Nat) (f : Bind → Bind) : (s.modBind p f).idles = s.idles := rfl
@[simp] theorem State.modBind_pmap (s : State) (p : Nat) (f : Bind → Bind) : (s.modBind p f).pmap = s.pmap := rfl
@[simp] theorem State.modBind_pmapCtl (s : State) (p : Nat) (f : Bind → Bind) : (s.modBind p f).pmapCtl = s.pmapCtl := rfl
@[simp] theorem State.modBind_faults (s : State) (p : Nat) (f : Bind → Bind) : (s.modBind p f).faults = s.faults := rfl
@[simp] theorem State.modBind_counters (s : State) (p : Nat) (f : Bind → Bind) : (s.modBind p f).counters = s.counters := rfl
@[simp] theorem State.modBind_dict (s : State) (p : Nat) (f : Bind → Bind) : (s.modBind p f).dict = s.dict := rfl
@[simp] theorem State.modBind_lease (s : State) (p : Nat) (f : Bind → Bind) : (s.modBind p f).lease = s.lease := rfl
@[simp] theorem State.modBind_boot (s : State) (p : Nat) (f : Bind → Bind) : (s.modBind p f).boot = s.boot := rfl
@[simp] theorem State.modBind_nv (s : State) (p : Nat) (f : Bind → Bind) : (s.modBind p f).nv = s.nv := rfl
@[simp] theorem State.modBind_trust (s : State) (p : Nat) (f : Bind → Bind) : (s.modBind p f).trust = s.trust := rfl
@[simp] theorem State.modBind_ports (s : State) (p : Nat) (f : Bind → Bind) : (s.modBind p f).ports = s.ports := rfl
@[simp] theorem State.modBind_colls (s : State) (p : Nat) (f : Bind → Bind) : (s.modBind p f).colls = s.colls := rfl
@[simp] theorem State.modBind_host (s : State) (p : Nat) (f : Bind → Bind) : (s.modBind p f).host = s.host := rfl
@[simp] theorem State.modBind_server (s : State) (p : Nat) (f : Bind → Bind) : (s.modBind p f).server = s.server := rfl
@[simp] theorem State.modBind_torusTime (s : State) (p : Nat) (f : Bind → Bind) : (s.modBind p f).torusTime = s.torusTime := rfl
@[simp] theorem State.modBind_clk (s : State) (p : Nat) (f : Bind → Bind) : (s.modBind p f).clk = s.clk := rfl
@[simp] theorem State.modBind_power (s : State) (p : Nat) (f : Bind → Bind) : (s.modBind p f).power = s.power := rfl
@[simp] theorem State.modBind_maunvo (s : State) (p : Nat) (f : Bind → Bind) : (s.modBind p f).maunvo = s.maunvo := rfl
@[simp] theorem State.modBind_pins (s : State) (p : Nat) (f : Bind → Bind) : (s.modBind p f).pins = s.pins := rfl
@[simp] theorem State.modBind_out (s : State) (p : Nat) (f : Bind → Bind) : (s.modBind p f).out = s.out := rfl
@[simp] theorem State.modBind_free (s : State) (p : Nat) (f : Bind → Bind) : (s.modBind p f).free = s.free := rfl
theorem State.modBind_self (s : State) (p : Nat) (f : Bind → Bind) : (s.modBind p f).bind p = f (s.bind p) :=
  mapGet_mod_self _ _ _ _
theorem State.modBind_ne (s : State) (p : Nat) (f : Bind → Bind) (p' : Nat) (h : p' ≠ p) :
    (s.modBind p f).bind p' = s.bind p' := mapGet_mod_ne _ _ _ h

/-! State.modOwner -/

@[simp] theorem State.modOwner_pending (s : State) (p : Nat) (f : Owner → Owner) : (s.modOwner p f).pending = s.pending := rfl
@[simp] theorem State.modOwner_clock (s : State) (p : Nat) (f : Owner → Owner) : (s.modOwner p f).clock = s.clock := rfl
@[simp] theorem State.modOwner_clusters (s : State) (p : Nat) (f : Owner → Owner) : (s.modOwner p f).clusters = s.clusters := rfl
@[simp] theorem State.modOwner_cmem (s : State) (p : Nat) (f : Owner → Owner) : (s.modOwner p f).cmem = s.cmem := rfl
@[simp] theorem State.modOwner_qmem (s : State) (p : Nat) (f : Owner → Owner) : (s.modOwner p f).qmem = s.qmem := rfl
@[simp] theorem State.modOwner_parts (s : State) (p : Nat) (f : Owner → Owner) : (s.modOwner p f).parts = s.parts := rfl
@[simp] theorem State.modOwner_syncs (s : State) (p : Nat) (f : Owner → Owner) : (s.modOwner p f).syncs = s.syncs := rfl
@[simp] theorem State.modOwner_groups (s : State) (p : Nat) (f : Owner → Owner) : (s.modOwner p f).groups = s.groups := rfl
@[simp] theorem State.modOwner_fabric (s : State) (p : Nat) (f : Owner → Owner) : (s.modOwner p f).fabric = s.fabric := rfl
@[simp] theorem State.modOwner_store (s : State) (p : Nat) (f : Owner → Owner) : (s.modOwner p f).store = s.store := rfl
@[simp] theorem State.modOwner_smem (s : State) (p : Nat) (f : Owner → Owner) : (s.modOwner p f).smem = s.smem := rfl
@[simp] theorem State.modOwner_ctxs (s : State) (p : Nat) (f : Owner → Owner) : (s.modOwner p f).ctxs = s.ctxs := rfl
@[simp] theorem State.modOwner_ueps (s : State) (p : Nat) (f : Owner → Owner) : (s.modOwner p f).ueps = s.ueps := rfl
@[simp] theorem State.modOwner_idles (s : State) (p : Nat) (f : Owner → Owner) : (s.modOwner p f).idles = s.idles := rfl
@[simp] theorem State.modOwner_pmap (s : State) (p : Nat) (f : Owner → Owner) : (s.modOwner p f).pmap = s.pmap := rfl
@[simp] theorem State.modOwner_pmapCtl (s : State) (p : Nat) (f : Owner → Owner) : (s.modOwner p f).pmapCtl = s.pmapCtl := rfl
@[simp] theorem State.modOwner_faults (s : State) (p : Nat) (f : Owner → Owner) : (s.modOwner p f).faults = s.faults := rfl
@[simp] theorem State.modOwner_counters (s : State) (p : Nat) (f : Owner → Owner) : (s.modOwner p f).counters = s.counters := rfl
@[simp] theorem State.modOwner_dict (s : State) (p : Nat) (f : Owner → Owner) : (s.modOwner p f).dict = s.dict := rfl
@[simp] theorem State.modOwner_lease (s : State) (p : Nat) (f : Owner → Owner) : (s.modOwner p f).lease = s.lease := rfl
@[simp] theorem State.modOwner_binds (s : State) (p : Nat) (f : Owner → Owner) : (s.modOwner p f).binds = s.binds := rfl
@[simp] theorem State.modOwner_boot (s : State) (p : Nat) (f : Owner → Owner) : (s.modOwner p f).boot = s.boot := rfl
@[simp] theorem State.modOwner_nv (s : State) (p : Nat) (f : Owner → Owner) : (s.modOwner p f).nv = s.nv := rfl
@[simp] theorem State.modOwner_ports (s : State) (p : Nat) (f : Owner → Owner) : (s.modOwner p f).ports = s.ports := rfl
@[simp] theorem State.modOwner_colls (s : State) (p : Nat) (f : Owner → Owner) : (s.modOwner p f).colls = s.colls := rfl
@[simp] theorem State.modOwner_host (s : State) (p : Nat) (f : Owner → Owner) : (s.modOwner p f).host = s.host := rfl
@[simp] theorem State.modOwner_server (s : State) (p : Nat) (f : Owner → Owner) : (s.modOwner p f).server = s.server := rfl
@[simp] theorem State.modOwner_torusTime (s : State) (p : Nat) (f : Owner → Owner) : (s.modOwner p f).torusTime = s.torusTime := rfl
@[simp] theorem State.modOwner_clk (s : State) (p : Nat) (f : Owner → Owner) : (s.modOwner p f).clk = s.clk := rfl
@[simp] theorem State.modOwner_power (s : State) (p : Nat) (f : Owner → Owner) : (s.modOwner p f).power = s.power := rfl
@[simp] theorem State.modOwner_maunvo (s : State) (p : Nat) (f : Owner → Owner) : (s.modOwner p f).maunvo = s.maunvo := rfl
@[simp] theorem State.modOwner_pins (s : State) (p : Nat) (f : Owner → Owner) : (s.modOwner p f).pins = s.pins := rfl
@[simp] theorem State.modOwner_out (s : State) (p : Nat) (f : Owner → Owner) : (s.modOwner p f).out = s.out := rfl
@[simp] theorem State.modOwner_free (s : State) (p : Nat) (f : Owner → Owner) : (s.modOwner p f).free = s.free := rfl
theorem State.modOwner_self (s : State) (p : Nat) (f : Owner → Owner) : (s.modOwner p f).owner p = f (s.owner p) :=
  mapGet_mod_self _ _ _ _
theorem State.modOwner_ne (s : State) (p : Nat) (f : Owner → Owner) (p' : Nat) (h : p' ≠ p) :
    (s.modOwner p f).owner p' = s.owner p' := mapGet_mod_ne _ _ _ h

/-! State.modPort -/

@[simp] theorem State.modPort_pending (s : State) (n : Nat) (f : Port → Port) : (s.modPort n f).pending = s.pending := rfl
@[simp] theorem State.modPort_clock (s : State) (n : Nat) (f : Port → Port) : (s.modPort n f).clock = s.clock := rfl
@[simp] theorem State.modPort_clusters (s : State) (n : Nat) (f : Port → Port) : (s.modPort n f).clusters = s.clusters := rfl
@[simp] theorem State.modPort_cmem (s : State) (n : Nat) (f : Port → Port) : (s.modPort n f).cmem = s.cmem := rfl
@[simp] theorem State.modPort_qmem (s : State) (n : Nat) (f : Port → Port) : (s.modPort n f).qmem = s.qmem := rfl
@[simp] theorem State.modPort_parts (s : State) (n : Nat) (f : Port → Port) : (s.modPort n f).parts = s.parts := rfl
@[simp] theorem State.modPort_syncs (s : State) (n : Nat) (f : Port → Port) : (s.modPort n f).syncs = s.syncs := rfl
@[simp] theorem State.modPort_groups (s : State) (n : Nat) (f : Port → Port) : (s.modPort n f).groups = s.groups := rfl
@[simp] theorem State.modPort_fabric (s : State) (n : Nat) (f : Port → Port) : (s.modPort n f).fabric = s.fabric := rfl
@[simp] theorem State.modPort_store (s : State) (n : Nat) (f : Port → Port) : (s.modPort n f).store = s.store := rfl
@[simp] theorem State.modPort_smem (s : State) (n : Nat) (f : Port → Port) : (s.modPort n f).smem = s.smem := rfl
@[simp] theorem State.modPort_ctxs (s : State) (n : Nat) (f : Port → Port) : (s.modPort n f).ctxs = s.ctxs := rfl
@[simp] theorem State.modPort_ueps (s : State) (n : Nat) (f : Port → Port) : (s.modPort n f).ueps = s.ueps := rfl
@[simp] theorem State.modPort_idles (s : State) (n : Nat) (f : Port → Port) : (s.modPort n f).idles = s.idles := rfl
@[simp] theorem State.modPort_pmap (s : State) (n : Nat) (f : Port → Port) : (s.modPort n f).pmap = s.pmap := rfl
@[simp] theorem State.modPort_pmapCtl (s : State) (n : Nat) (f : Port → Port) : (s.modPort n f).pmapCtl = s.pmapCtl := rfl
@[simp] theorem State.modPort_faults (s : State) (n : Nat) (f : Port → Port) : (s.modPort n f).faults = s.faults := rfl
@[simp] theorem State.modPort_counters (s : State) (n : Nat) (f : Port → Port) : (s.modPort n f).counters = s.counters := rfl
@[simp] theorem State.modPort_dict (s : State) (n : Nat) (f : Port → Port) : (s.modPort n f).dict = s.dict := rfl
@[simp] theorem State.modPort_lease (s : State) (n : Nat) (f : Port → Port) : (s.modPort n f).lease = s.lease := rfl
@[simp] theorem State.modPort_binds (s : State) (n : Nat) (f : Port → Port) : (s.modPort n f).binds = s.binds := rfl
@[simp] theorem State.modPort_boot (s : State) (n : Nat) (f : Port → Port) : (s.modPort n f).boot = s.boot := rfl
@[simp] theorem State.modPort_nv (s : State) (n : Nat) (f : Port → Port) : (s.modPort n f).nv = s.nv := rfl
@[simp] theorem State.modPort_trust (s : State) (n : Nat) (f : Port → Port) : (s.modPort n f).trust = s.trust := rfl
@[simp] theorem State.modPort_colls (s : State) (n : Nat) (f : Port → Port) : (s.modPort n f).colls = s.colls := rfl
@[simp] theorem State.modPort_host (s : State) (n : Nat) (f : Port → Port) : (s.modPort n f).host = s.host := rfl
@[simp] theorem State.modPort_server (s : State) (n : Nat) (f : Port → Port) : (s.modPort n f).server = s.server := rfl
@[simp] theorem State.modPort_torusTime (s : State) (n : Nat) (f : Port → Port) : (s.modPort n f).torusTime = s.torusTime := rfl
@[simp] theorem State.modPort_clk (s : State) (n : Nat) (f : Port → Port) : (s.modPort n f).clk = s.clk := rfl
@[simp] theorem State.modPort_power (s : State) (n : Nat) (f : Port → Port) : (s.modPort n f).power = s.power := rfl
@[simp] theorem State.modPort_maunvo (s : State) (n : Nat) (f : Port → Port) : (s.modPort n f).maunvo = s.maunvo := rfl
@[simp] theorem State.modPort_pins (s : State) (n : Nat) (f : Port → Port) : (s.modPort n f).pins = s.pins := rfl
@[simp] theorem State.modPort_out (s : State) (n : Nat) (f : Port → Port) : (s.modPort n f).out = s.out := rfl
@[simp] theorem State.modPort_free (s : State) (n : Nat) (f : Port → Port) : (s.modPort n f).free = s.free := rfl
theorem State.modPort_self (s : State) (n : Nat) (f : Port → Port) : (s.modPort n f).port n = f (s.port n) :=
  mapGet_mod_self _ _ _ _
theorem State.modPort_ne (s : State) (n : Nat) (f : Port → Port) (n' : Nat) (h : n' ≠ n) :
    (s.modPort n f).port n' = s.port n' := mapGet_mod_ne _ _ _ h

/-! State.modColl -/

@[simp] theorem State.modColl_pending (s : State) (g : Nat) (f : Coll → Coll) : (s.modColl g f).pending = s.pending := rfl
@[simp] theorem State.modColl_clock (s : State) (g : Nat) (f : Coll → Coll) : (s.modColl g f).clock = s.clock := rfl
@[simp] theorem State.modColl_clusters (s : State) (g : Nat) (f : Coll → Coll) : (s.modColl g f).clusters = s.clusters := rfl
@[simp] theorem State.modColl_cmem (s : State) (g : Nat) (f : Coll → Coll) : (s.modColl g f).cmem = s.cmem := rfl
@[simp] theorem State.modColl_qmem (s : State) (g : Nat) (f : Coll → Coll) : (s.modColl g f).qmem = s.qmem := rfl
@[simp] theorem State.modColl_parts (s : State) (g : Nat) (f : Coll → Coll) : (s.modColl g f).parts = s.parts := rfl
@[simp] theorem State.modColl_syncs (s : State) (g : Nat) (f : Coll → Coll) : (s.modColl g f).syncs = s.syncs := rfl
@[simp] theorem State.modColl_groups (s : State) (g : Nat) (f : Coll → Coll) : (s.modColl g f).groups = s.groups := rfl
@[simp] theorem State.modColl_fabric (s : State) (g : Nat) (f : Coll → Coll) : (s.modColl g f).fabric = s.fabric := rfl
@[simp] theorem State.modColl_store (s : State) (g : Nat) (f : Coll → Coll) : (s.modColl g f).store = s.store := rfl
@[simp] theorem State.modColl_smem (s : State) (g : Nat) (f : Coll → Coll) : (s.modColl g f).smem = s.smem := rfl
@[simp] theorem State.modColl_ctxs (s : State) (g : Nat) (f : Coll → Coll) : (s.modColl g f).ctxs = s.ctxs := rfl
@[simp] theorem State.modColl_ueps (s : State) (g : Nat) (f : Coll → Coll) : (s.modColl g f).ueps = s.ueps := rfl
@[simp] theorem State.modColl_idles (s : State) (g : Nat) (f : Coll → Coll) : (s.modColl g f).idles = s.idles := rfl
@[simp] theorem State.modColl_pmap (s : State) (g : Nat) (f : Coll → Coll) : (s.modColl g f).pmap = s.pmap := rfl
@[simp] theorem State.modColl_pmapCtl (s : State) (g : Nat) (f : Coll → Coll) : (s.modColl g f).pmapCtl = s.pmapCtl := rfl
@[simp] theorem State.modColl_faults (s : State) (g : Nat) (f : Coll → Coll) : (s.modColl g f).faults = s.faults := rfl
@[simp] theorem State.modColl_counters (s : State) (g : Nat) (f : Coll → Coll) : (s.modColl g f).counters = s.counters := rfl
@[simp] theorem State.modColl_dict (s : State) (g : Nat) (f : Coll → Coll) : (s.modColl g f).dict = s.dict := rfl
@[simp] theorem State.modColl_lease (s : State) (g : Nat) (f : Coll → Coll) : (s.modColl g f).lease = s.lease := rfl
@[simp] theorem State.modColl_binds (s : State) (g : Nat) (f : Coll → Coll) : (s.modColl g f).binds = s.binds := rfl
@[simp] theorem State.modColl_boot (s : State) (g : Nat) (f : Coll → Coll) : (s.modColl g f).boot = s.boot := rfl
@[simp] theorem State.modColl_nv (s : State) (g : Nat) (f : Coll → Coll) : (s.modColl g f).nv = s.nv := rfl
@[simp] theorem State.modColl_trust (s : State) (g : Nat) (f : Coll → Coll) : (s.modColl g f).trust = s.trust := rfl
@[simp] theorem State.modColl_ports (s : State) (g : Nat) (f : Coll → Coll) : (s.modColl g f).ports = s.ports := rfl
@[simp] theorem State.modColl_host (s : State) (g : Nat) (f : Coll → Coll) : (s.modColl g f).host = s.host := rfl
@[simp] theorem State.modColl_server (s : State) (g : Nat) (f : Coll → Coll) : (s.modColl g f).server = s.server := rfl
@[simp] theorem State.modColl_torusTime (s : State) (g : Nat) (f : Coll → Coll) : (s.modColl g f).torusTime = s.torusTime := rfl
@[simp] theorem State.modColl_clk (s : State) (g : Nat) (f : Coll → Coll) : (s.modColl g f).clk = s.clk := rfl
@[simp] theorem State.modColl_power (s : State) (g : Nat) (f : Coll → Coll) : (s.modColl g f).power = s.power := rfl
@[simp] theorem State.modColl_maunvo (s : State) (g : Nat) (f : Coll → Coll) : (s.modColl g f).maunvo = s.maunvo := rfl
@[simp] theorem State.modColl_pins (s : State) (g : Nat) (f : Coll → Coll) : (s.modColl g f).pins = s.pins := rfl
@[simp] theorem State.modColl_out (s : State) (g : Nat) (f : Coll → Coll) : (s.modColl g f).out = s.out := rfl
@[simp] theorem State.modColl_free (s : State) (g : Nat) (f : Coll → Coll) : (s.modColl g f).free = s.free := rfl
theorem State.modColl_self (s : State) (g : Nat) (f : Coll → Coll) : (s.modColl g f).coll g = f (s.coll g) :=
  mapGet_mod_self _ _ _ _
theorem State.modColl_ne (s : State) (g : Nat) (f : Coll → Coll) (g' : Nat) (h : g' ≠ g) :
    (s.modColl g f).coll g' = s.coll g' := mapGet_mod_ne _ _ _ h

/-! State.modHostQ -/

@[simp] theorem State.modHostQ_pending (s : State) (q : Nat) (f : HostQ → HostQ) : (s.modHostQ q f).pending = s.pending := rfl
@[simp] theorem State.modHostQ_clock (s : State) (q : Nat) (f : HostQ → HostQ) : (s.modHostQ q f).clock = s.clock := rfl
@[simp] theorem State.modHostQ_clusters (s : State) (q : Nat) (f : HostQ → HostQ) : (s.modHostQ q f).clusters = s.clusters := rfl
@[simp] theorem State.modHostQ_cmem (s : State) (q : Nat) (f : HostQ → HostQ) : (s.modHostQ q f).cmem = s.cmem := rfl
@[simp] theorem State.modHostQ_qmem (s : State) (q : Nat) (f : HostQ → HostQ) : (s.modHostQ q f).qmem = s.qmem := rfl
@[simp] theorem State.modHostQ_parts (s : State) (q : Nat) (f : HostQ → HostQ) : (s.modHostQ q f).parts = s.parts := rfl
@[simp] theorem State.modHostQ_syncs (s : State) (q : Nat) (f : HostQ → HostQ) : (s.modHostQ q f).syncs = s.syncs := rfl
@[simp] theorem State.modHostQ_groups (s : State) (q : Nat) (f : HostQ → HostQ) : (s.modHostQ q f).groups = s.groups := rfl
@[simp] theorem State.modHostQ_fabric (s : State) (q : Nat) (f : HostQ → HostQ) : (s.modHostQ q f).fabric = s.fabric := rfl
@[simp] theorem State.modHostQ_store (s : State) (q : Nat) (f : HostQ → HostQ) : (s.modHostQ q f).store = s.store := rfl
@[simp] theorem State.modHostQ_smem (s : State) (q : Nat) (f : HostQ → HostQ) : (s.modHostQ q f).smem = s.smem := rfl
@[simp] theorem State.modHostQ_ctxs (s : State) (q : Nat) (f : HostQ → HostQ) : (s.modHostQ q f).ctxs = s.ctxs := rfl
@[simp] theorem State.modHostQ_ueps (s : State) (q : Nat) (f : HostQ → HostQ) : (s.modHostQ q f).ueps = s.ueps := rfl
@[simp] theorem State.modHostQ_idles (s : State) (q : Nat) (f : HostQ → HostQ) : (s.modHostQ q f).idles = s.idles := rfl
@[simp] theorem State.modHostQ_pmap (s : State) (q : Nat) (f : HostQ → HostQ) : (s.modHostQ q f).pmap = s.pmap := rfl
@[simp] theorem State.modHostQ_pmapCtl (s : State) (q : Nat) (f : HostQ → HostQ) : (s.modHostQ q f).pmapCtl = s.pmapCtl := rfl
@[simp] theorem State.modHostQ_faults (s : State) (q : Nat) (f : HostQ → HostQ) : (s.modHostQ q f).faults = s.faults := rfl
@[simp] theorem State.modHostQ_counters (s : State) (q : Nat) (f : HostQ → HostQ) : (s.modHostQ q f).counters = s.counters := rfl
@[simp] theorem State.modHostQ_dict (s : State) (q : Nat) (f : HostQ → HostQ) : (s.modHostQ q f).dict = s.dict := rfl
@[simp] theorem State.modHostQ_lease (s : State) (q : Nat) (f : HostQ → HostQ) : (s.modHostQ q f).lease = s.lease := rfl
@[simp] theorem State.modHostQ_binds (s : State) (q : Nat) (f : HostQ → HostQ) : (s.modHostQ q f).binds = s.binds := rfl
@[simp] theorem State.modHostQ_boot (s : State) (q : Nat) (f : HostQ → HostQ) : (s.modHostQ q f).boot = s.boot := rfl
@[simp] theorem State.modHostQ_nv (s : State) (q : Nat) (f : HostQ → HostQ) : (s.modHostQ q f).nv = s.nv := rfl
@[simp] theorem State.modHostQ_trust (s : State) (q : Nat) (f : HostQ → HostQ) : (s.modHostQ q f).trust = s.trust := rfl
@[simp] theorem State.modHostQ_ports (s : State) (q : Nat) (f : HostQ → HostQ) : (s.modHostQ q f).ports = s.ports := rfl
@[simp] theorem State.modHostQ_colls (s : State) (q : Nat) (f : HostQ → HostQ) : (s.modHostQ q f).colls = s.colls := rfl
@[simp] theorem State.modHostQ_server (s : State) (q : Nat) (f : HostQ → HostQ) : (s.modHostQ q f).server = s.server := rfl
@[simp] theorem State.modHostQ_torusTime (s : State) (q : Nat) (f : HostQ → HostQ) : (s.modHostQ q f).torusTime = s.torusTime := rfl
@[simp] theorem State.modHostQ_clk (s : State) (q : Nat) (f : HostQ → HostQ) : (s.modHostQ q f).clk = s.clk := rfl
@[simp] theorem State.modHostQ_power (s : State) (q : Nat) (f : HostQ → HostQ) : (s.modHostQ q f).power = s.power := rfl
@[simp] theorem State.modHostQ_maunvo (s : State) (q : Nat) (f : HostQ → HostQ) : (s.modHostQ q f).maunvo = s.maunvo := rfl
@[simp] theorem State.modHostQ_pins (s : State) (q : Nat) (f : HostQ → HostQ) : (s.modHostQ q f).pins = s.pins := rfl
@[simp] theorem State.modHostQ_out (s : State) (q : Nat) (f : HostQ → HostQ) : (s.modHostQ q f).out = s.out := rfl
@[simp] theorem State.modHostQ_free (s : State) (q : Nat) (f : HostQ → HostQ) : (s.modHostQ q f).free = s.free := rfl
theorem State.modHostQ_self (s : State) (q : Nat) (f : HostQ → HostQ) : (s.modHostQ q f).hostQ q = f (s.hostQ q) :=
  mapGet_mod_self _ _ _ _
theorem State.modHostQ_ne (s : State) (q : Nat) (f : HostQ → HostQ) (q' : Nat) (h : q' ≠ q) :
    (s.modHostQ q f).hostQ q' = s.hostQ q' := mapGet_mod_ne _ _ _ h

/-! State.modSrv -/

@[simp] theorem State.modSrv_pending (s : State) (p peer : Nat) (f : Srv → Srv) : (s.modSrv p peer f).pending = s.pending := rfl
@[simp] theorem State.modSrv_clock (s : State) (p peer : Nat) (f : Srv → Srv) : (s.modSrv p peer f).clock = s.clock := rfl
@[simp] theorem State.modSrv_clusters (s : State) (p peer : Nat) (f : Srv → Srv) : (s.modSrv p peer f).clusters = s.clusters := rfl
@[simp] theorem State.modSrv_cmem (s : State) (p peer : Nat) (f : Srv → Srv) : (s.modSrv p peer f).cmem = s.cmem := rfl
@[simp] theorem State.modSrv_qmem (s : State) (p peer : Nat) (f : Srv → Srv) : (s.modSrv p peer f).qmem = s.qmem := rfl
@[simp] theorem State.modSrv_parts (s : State) (p peer : Nat) (f : Srv → Srv) : (s.modSrv p peer f).parts = s.parts := rfl
@[simp] theorem State.modSrv_syncs (s : State) (p peer : Nat) (f : Srv → Srv) : (s.modSrv p peer f).syncs = s.syncs := rfl
@[simp] theorem State.modSrv_groups (s : State) (p peer : Nat) (f : Srv → Srv) : (s.modSrv p peer f).groups = s.groups := rfl
@[simp] theorem State.modSrv_fabric (s : State) (p peer : Nat) (f : Srv → Srv) : (s.modSrv p peer f).fabric = s.fabric := rfl
@[simp] theorem State.modSrv_store (s : State) (p peer : Nat) (f : Srv → Srv) : (s.modSrv p peer f).store = s.store := rfl
@[simp] theorem State.modSrv_smem (s : State) (p peer : Nat) (f : Srv → Srv) : (s.modSrv p peer f).smem = s.smem := rfl
@[simp] theorem State.modSrv_ctxs (s : State) (p peer : Nat) (f : Srv → Srv) : (s.modSrv p peer f).ctxs = s.ctxs := rfl
@[simp] theorem State.modSrv_ueps (s : State) (p peer : Nat) (f : Srv → Srv) : (s.modSrv p peer f).ueps = s.ueps := rfl
@[simp] theorem State.modSrv_idles (s : State) (p peer : Nat) (f : Srv → Srv) : (s.modSrv p peer f).idles = s.idles := rfl
@[simp] theorem State.modSrv_pmap (s : State) (p peer : Nat) (f : Srv → Srv) : (s.modSrv p peer f).pmap = s.pmap := rfl
@[simp] theorem State.modSrv_pmapCtl (s : State) (p peer : Nat) (f : Srv → Srv) : (s.modSrv p peer f).pmapCtl = s.pmapCtl := rfl
@[simp] theorem State.modSrv_faults (s : State) (p peer : Nat) (f : Srv → Srv) : (s.modSrv p peer f).faults = s.faults := rfl
@[simp] theorem State.modSrv_counters (s : State) (p peer : Nat) (f : Srv → Srv) : (s.modSrv p peer f).counters = s.counters := rfl
@[simp] theorem State.modSrv_dict (s : State) (p peer : Nat) (f : Srv → Srv) : (s.modSrv p peer f).dict = s.dict := rfl
@[simp] theorem State.modSrv_lease (s : State) (p peer : Nat) (f : Srv → Srv) : (s.modSrv p peer f).lease = s.lease := rfl
@[simp] theorem State.modSrv_binds (s : State) (p peer : Nat) (f : Srv → Srv) : (s.modSrv p peer f).binds = s.binds := rfl
@[simp] theorem State.modSrv_boot (s : State) (p peer : Nat) (f : Srv → Srv) : (s.modSrv p peer f).boot = s.boot := rfl
@[simp] theorem State.modSrv_nv (s : State) (p peer : Nat) (f : Srv → Srv) : (s.modSrv p peer f).nv = s.nv := rfl
@[simp] theorem State.modSrv_trust (s : State) (p peer : Nat) (f : Srv → Srv) : (s.modSrv p peer f).trust = s.trust := rfl
@[simp] theorem State.modSrv_ports (s : State) (p peer : Nat) (f : Srv → Srv) : (s.modSrv p peer f).ports = s.ports := rfl
@[simp] theorem State.modSrv_colls (s : State) (p peer : Nat) (f : Srv → Srv) : (s.modSrv p peer f).colls = s.colls := rfl
@[simp] theorem State.modSrv_host (s : State) (p peer : Nat) (f : Srv → Srv) : (s.modSrv p peer f).host = s.host := rfl
@[simp] theorem State.modSrv_torusTime (s : State) (p peer : Nat) (f : Srv → Srv) : (s.modSrv p peer f).torusTime = s.torusTime := rfl
@[simp] theorem State.modSrv_clk (s : State) (p peer : Nat) (f : Srv → Srv) : (s.modSrv p peer f).clk = s.clk := rfl
@[simp] theorem State.modSrv_power (s : State) (p peer : Nat) (f : Srv → Srv) : (s.modSrv p peer f).power = s.power := rfl
@[simp] theorem State.modSrv_maunvo (s : State) (p peer : Nat) (f : Srv → Srv) : (s.modSrv p peer f).maunvo = s.maunvo := rfl
@[simp] theorem State.modSrv_pins (s : State) (p peer : Nat) (f : Srv → Srv) : (s.modSrv p peer f).pins = s.pins := rfl
@[simp] theorem State.modSrv_out (s : State) (p peer : Nat) (f : Srv → Srv) : (s.modSrv p peer f).out = s.out := rfl
@[simp] theorem State.modSrv_free (s : State) (p peer : Nat) (f : Srv → Srv) : (s.modSrv p peer f).free = s.free := rfl
theorem State.modSrv_self (s : State) (p peer : Nat) (f : Srv → Srv) : (s.modSrv p peer f).srv p peer = f (s.srv p peer) :=
  mapGet_mod_self _ _ _ _
theorem State.modSrv_ne (s : State) (p peer : Nat) (f : Srv → Srv) (p' peer' : Nat) (h : (9 * p' + peer') ≠ (9 * p + peer)) :
    (s.modSrv p peer f).srv p' peer' = s.srv p' peer' := mapGet_mod_ne _ _ _ h

/-! State.modExp -/

@[simp] theorem State.modExp_pending (s : State) (stack p : Nat) (f : Export → Export) : (s.modExp stack p f).pending = s.pending := rfl
@[simp] theorem State.modExp_clock (s : State) (stack p : Nat) (f : Export → Export) : (s.modExp stack p f).clock = s.clock := rfl
@[simp] theorem State.modExp_clusters (s : State) (stack p : Nat) (f : Export → Export) : (s.modExp stack p f).clusters = s.clusters := rfl
@[simp] theorem State.modExp_cmem (s : State) (stack p : Nat) (f : Export → Export) : (s.modExp stack p f).cmem = s.cmem := rfl
@[simp] theorem State.modExp_qmem (s : State) (stack p : Nat) (f : Export → Export) : (s.modExp stack p f).qmem = s.qmem := rfl
@[simp] theorem State.modExp_parts (s : State) (stack p : Nat) (f : Export → Export) : (s.modExp stack p f).parts = s.parts := rfl
@[simp] theorem State.modExp_syncs (s : State) (stack p : Nat) (f : Export → Export) : (s.modExp stack p f).syncs = s.syncs := rfl
@[simp] theorem State.modExp_groups (s : State) (stack p : Nat) (f : Export → Export) : (s.modExp stack p f).groups = s.groups := rfl
@[simp] theorem State.modExp_fabric (s : State) (stack p : Nat) (f : Export → Export) : (s.modExp stack p f).fabric = s.fabric := rfl
@[simp] theorem State.modExp_store (s : State) (stack p : Nat) (f : Export → Export) : (s.modExp stack p f).store = s.store := rfl
@[simp] theorem State.modExp_smem (s : State) (stack p : Nat) (f : Export → Export) : (s.modExp stack p f).smem = s.smem := rfl
@[simp] theorem State.modExp_ctxs (s : State) (stack p : Nat) (f : Export → Export) : (s.modExp stack p f).ctxs = s.ctxs := rfl
@[simp] theorem State.modExp_ueps (s : State) (stack p : Nat) (f : Export → Export) : (s.modExp stack p f).ueps = s.ueps := rfl
@[simp] theorem State.modExp_idles (s : State) (stack p : Nat) (f : Export → Export) : (s.modExp stack p f).idles = s.idles := rfl
@[simp] theorem State.modExp_pmap (s : State) (stack p : Nat) (f : Export → Export) : (s.modExp stack p f).pmap = s.pmap := rfl
@[simp] theorem State.modExp_pmapCtl (s : State) (stack p : Nat) (f : Export → Export) : (s.modExp stack p f).pmapCtl = s.pmapCtl := rfl
@[simp] theorem State.modExp_faults (s : State) (stack p : Nat) (f : Export → Export) : (s.modExp stack p f).faults = s.faults := rfl
@[simp] theorem State.modExp_counters (s : State) (stack p : Nat) (f : Export → Export) : (s.modExp stack p f).counters = s.counters := rfl
@[simp] theorem State.modExp_dict (s : State) (stack p : Nat) (f : Export → Export) : (s.modExp stack p f).dict = s.dict := rfl
@[simp] theorem State.modExp_lease (s : State) (stack p : Nat) (f : Export → Export) : (s.modExp stack p f).lease = s.lease := rfl
@[simp] theorem State.modExp_binds (s : State) (stack p : Nat) (f : Export → Export) : (s.modExp stack p f).binds = s.binds := rfl
@[simp] theorem State.modExp_boot (s : State) (stack p : Nat) (f : Export → Export) : (s.modExp stack p f).boot = s.boot := rfl
@[simp] theorem State.modExp_nv (s : State) (stack p : Nat) (f : Export → Export) : (s.modExp stack p f).nv = s.nv := rfl
@[simp] theorem State.modExp_trust (s : State) (stack p : Nat) (f : Export → Export) : (s.modExp stack p f).trust = s.trust := rfl
@[simp] theorem State.modExp_ports (s : State) (stack p : Nat) (f : Export → Export) : (s.modExp stack p f).ports = s.ports := rfl
@[simp] theorem State.modExp_colls (s : State) (stack p : Nat) (f : Export → Export) : (s.modExp stack p f).colls = s.colls := rfl
@[simp] theorem State.modExp_host (s : State) (stack p : Nat) (f : Export → Export) : (s.modExp stack p f).host = s.host := rfl
@[simp] theorem State.modExp_torusTime (s : State) (stack p : Nat) (f : Export → Export) : (s.modExp stack p f).torusTime = s.torusTime := rfl
@[simp] theorem State.modExp_clk (s : State) (stack p : Nat) (f : Export → Export) : (s.modExp stack p f).clk = s.clk := rfl
@[simp] theorem State.modExp_power (s : State) (stack p : Nat) (f : Export → Export) : (s.modExp stack p f).power = s.power := rfl
@[simp] theorem State.modExp_maunvo (s : State) (stack p : Nat) (f : Export → Export) : (s.modExp stack p f).maunvo = s.maunvo := rfl
@[simp] theorem State.modExp_pins (s : State) (stack p : Nat) (f : Export → Export) : (s.modExp stack p f).pins = s.pins := rfl
@[simp] theorem State.modExp_out (s : State) (stack p : Nat) (f : Export → Export) : (s.modExp stack p f).out = s.out := rfl
@[simp] theorem State.modExp_free (s : State) (stack p : Nat) (f : Export → Export) : (s.modExp stack p f).free = s.free := rfl
theorem State.modExp_self (s : State) (stack p : Nat) (f : Export → Export) : (s.modExp stack p f).exp stack p = f (s.exp stack p) :=
  mapGet_mod_self _ _ _ _
theorem State.modExp_ne (s : State) (stack p : Nat) (f : Export → Export) (stack' p' : Nat) (h : (8 * stack' + p') ≠ (8 * stack + p)) :
    (s.modExp stack p f).exp stack' p' = s.exp stack' p' := mapGet_mod_ne _ _ _ h

/-! State.modSrvPort -/

@[simp] theorem State.modSrvPort_pending (s : State) (k : Nat) (f : SrvPort → SrvPort) : (s.modSrvPort k f).pending = s.pending := rfl
@[simp] theorem State.modSrvPort_clock (s : State) (k : Nat) (f : SrvPort → SrvPort) : (s.modSrvPort k f).clock = s.clock := rfl
@[simp] theorem State.modSrvPort_clusters (s : State) (k : Nat) (f : SrvPort → SrvPort) : (s.modSrvPort k f).clusters = s.clusters := rfl
@[simp] theorem State.modSrvPort_cmem (s : State) (k : Nat) (f : SrvPort → SrvPort) : (s.modSrvPort k f).cmem = s.cmem := rfl
@[simp] theorem State.modSrvPort_qmem (s : State) (k : Nat) (f : SrvPort → SrvPort) : (s.modSrvPort k f).qmem = s.qmem := rfl
@[simp] theorem State.modSrvPort_parts (s : State) (k : Nat) (f : SrvPort → SrvPort) : (s.modSrvPort k f).parts = s.parts := rfl
@[simp] theorem State.modSrvPort_syncs (s : State) (k : Nat) (f : SrvPort → SrvPort) : (s.modSrvPort k f).syncs = s.syncs := rfl
@[simp] theorem State.modSrvPort_groups (s : State) (k : Nat) (f : SrvPort → SrvPort) : (s.modSrvPort k f).groups = s.groups := rfl
@[simp] theorem State.modSrvPort_fabric (s : State) (k : Nat) (f : SrvPort → SrvPort) : (s.modSrvPort k f).fabric = s.fabric := rfl
@[simp] theorem State.modSrvPort_store (s : State) (k : Nat) (f : SrvPort → SrvPort) : (s.modSrvPort k f).store = s.store := rfl
@[simp] theorem State.modSrvPort_smem (s : State) (k : Nat) (f : SrvPort → SrvPort) : (s.modSrvPort k f).smem = s.smem := rfl
@[simp] theorem State.modSrvPort_ctxs (s : State) (k : Nat) (f : SrvPort → SrvPort) : (s.modSrvPort k f).ctxs = s.ctxs := rfl
@[simp] theorem State.modSrvPort_ueps (s : State) (k : Nat) (f : SrvPort → SrvPort) : (s.modSrvPort k f).ueps = s.ueps := rfl
@[simp] theorem State.modSrvPort_idles (s : State) (k : Nat) (f : SrvPort → SrvPort) : (s.modSrvPort k f).idles = s.idles := rfl
@[simp] theorem State.modSrvPort_pmap (s : State) (k : Nat) (f : SrvPort → SrvPort) : (s.modSrvPort k f).pmap = s.pmap := rfl
@[simp] theorem State.modSrvPort_pmapCtl (s : State) (k : Nat) (f : SrvPort → SrvPort) : (s.modSrvPort k f).pmapCtl = s.pmapCtl := rfl
@[simp] theorem State.modSrvPort_faults (s : State) (k : Nat) (f : SrvPort → SrvPort) : (s.modSrvPort k f).faults = s.faults := rfl
@[simp] theorem State.modSrvPort_counters (s : State) (k : Nat) (f : SrvPort → SrvPort) : (s.modSrvPort k f).counters = s.counters := rfl
@[simp] theorem State.modSrvPort_dict (s : State) (k : Nat) (f : SrvPort → SrvPort) : (s.modSrvPort k f).dict = s.dict := rfl
@[simp] theorem State.modSrvPort_lease (s : State) (k : Nat) (f : SrvPort → SrvPort) : (s.modSrvPort k f).lease = s.lease := rfl
@[simp] theorem State.modSrvPort_binds (s : State) (k : Nat) (f : SrvPort → SrvPort) : (s.modSrvPort k f).binds = s.binds := rfl
@[simp] theorem State.modSrvPort_boot (s : State) (k : Nat) (f : SrvPort → SrvPort) : (s.modSrvPort k f).boot = s.boot := rfl
@[simp] theorem State.modSrvPort_nv (s : State) (k : Nat) (f : SrvPort → SrvPort) : (s.modSrvPort k f).nv = s.nv := rfl
@[simp] theorem State.modSrvPort_trust (s : State) (k : Nat) (f : SrvPort → SrvPort) : (s.modSrvPort k f).trust = s.trust := rfl
@[simp] theorem State.modSrvPort_ports (s : State) (k : Nat) (f : SrvPort → SrvPort) : (s.modSrvPort k f).ports = s.ports := rfl
@[simp] theorem State.modSrvPort_colls (s : State) (k : Nat) (f : SrvPort → SrvPort) : (s.modSrvPort k f).colls = s.colls := rfl
@[simp] theorem State.modSrvPort_host (s : State) (k : Nat) (f : SrvPort → SrvPort) : (s.modSrvPort k f).host = s.host := rfl
@[simp] theorem State.modSrvPort_torusTime (s : State) (k : Nat) (f : SrvPort → SrvPort) : (s.modSrvPort k f).torusTime = s.torusTime := rfl
@[simp] theorem State.modSrvPort_clk (s : State) (k : Nat) (f : SrvPort → SrvPort) : (s.modSrvPort k f).clk = s.clk := rfl
@[simp] theorem State.modSrvPort_power (s : State) (k : Nat) (f : SrvPort → SrvPort) : (s.modSrvPort k f).power = s.power := rfl
@[simp] theorem State.modSrvPort_maunvo (s : State) (k : Nat) (f : SrvPort → SrvPort) : (s.modSrvPort k f).maunvo = s.maunvo := rfl
@[simp] theorem State.modSrvPort_pins (s : State) (k : Nat) (f : SrvPort → SrvPort) : (s.modSrvPort k f).pins = s.pins := rfl
@[simp] theorem State.modSrvPort_out (s : State) (k : Nat) (f : SrvPort → SrvPort) : (s.modSrvPort k f).out = s.out := rfl
@[simp] theorem State.modSrvPort_free (s : State) (k : Nat) (f : SrvPort → SrvPort) : (s.modSrvPort k f).free = s.free := rfl
theorem State.modSrvPort_self (s : State) (k : Nat) (f : SrvPort → SrvPort) : (s.modSrvPort k f).srvPort k = f (s.srvPort k) :=
  mapGet_mod_self _ _ _ _
theorem State.modSrvPort_ne (s : State) (k : Nat) (f : SrvPort → SrvPort) (k' : Nat) (h : k' ≠ k) :
    (s.modSrvPort k f).srvPort k' = s.srvPort k' := mapGet_mod_ne _ _ _ h

/-! State.modWake -/

@[simp] theorem State.modWake_pending (s : State) (p : Nat) (f : Wake → Wake) : (s.modWake p f).pending = s.pending := rfl
@[simp] theorem State.modWake_clock (s : State) (p : Nat) (f : Wake → Wake) : (s.modWake p f).clock = s.clock := rfl
@[simp] theorem State.modWake_clusters (s : State) (p : Nat) (f : Wake → Wake) : (s.modWake p f).clusters = s.clusters := rfl
@[simp] theorem State.modWake_cmem (s : State) (p : Nat) (f : Wake → Wake) : (s.modWake p f).cmem = s.cmem := rfl
@[simp] theorem State.modWake_qmem (s : State) (p : Nat) (f : Wake → Wake) : (s.modWake p f).qmem = s.qmem := rfl
@[simp] theorem State.modWake_parts (s : State) (p : Nat) (f : Wake → Wake) : (s.modWake p f).parts = s.parts := rfl
@[simp] theorem State.modWake_syncs (s : State) (p : Nat) (f : Wake → Wake) : (s.modWake p f).syncs = s.syncs := rfl
@[simp] theorem State.modWake_groups (s : State) (p : Nat) (f : Wake → Wake) : (s.modWake p f).groups = s.groups := rfl
@[simp] theorem State.modWake_fabric (s : State) (p : Nat) (f : Wake → Wake) : (s.modWake p f).fabric = s.fabric := rfl
@[simp] theorem State.modWake_store (s : State) (p : Nat) (f : Wake → Wake) : (s.modWake p f).store = s.store := rfl
@[simp] theorem State.modWake_smem (s : State) (p : Nat) (f : Wake → Wake) : (s.modWake p f).smem = s.smem := rfl
@[simp] theorem State.modWake_ctxs (s : State) (p : Nat) (f : Wake → Wake) : (s.modWake p f).ctxs = s.ctxs := rfl
@[simp] theorem State.modWake_ueps (s : State) (p : Nat) (f : Wake → Wake) : (s.modWake p f).ueps = s.ueps := rfl
@[simp] theorem State.modWake_idles (s : State) (p : Nat) (f : Wake → Wake) : (s.modWake p f).idles = s.idles := rfl
@[simp] theorem State.modWake_pmap (s : State) (p : Nat) (f : Wake → Wake) : (s.modWake p f).pmap = s.pmap := rfl
@[simp] theorem State.modWake_pmapCtl (s : State) (p : Nat) (f : Wake → Wake) : (s.modWake p f).pmapCtl = s.pmapCtl := rfl
@[simp] theorem State.modWake_faults (s : State) (p : Nat) (f : Wake → Wake) : (s.modWake p f).faults = s.faults := rfl
@[simp] theorem State.modWake_counters (s : State) (p : Nat) (f : Wake → Wake) : (s.modWake p f).counters = s.counters := rfl
@[simp] theorem State.modWake_dict (s : State) (p : Nat) (f : Wake → Wake) : (s.modWake p f).dict = s.dict := rfl
@[simp] theorem State.modWake_lease (s : State) (p : Nat) (f : Wake → Wake) : (s.modWake p f).lease = s.lease := rfl
@[simp] theorem State.modWake_binds (s : State) (p : Nat) (f : Wake → Wake) : (s.modWake p f).binds = s.binds := rfl
@[simp] theorem State.modWake_boot (s : State) (p : Nat) (f : Wake → Wake) : (s.modWake p f).boot = s.boot := rfl
@[simp] theorem State.modWake_nv (s : State) (p : Nat) (f : Wake → Wake) : (s.modWake p f).nv = s.nv := rfl
@[simp] theorem State.modWake_trust (s : State) (p : Nat) (f : Wake → Wake) : (s.modWake p f).trust = s.trust := rfl
@[simp] theorem State.modWake_ports (s : State) (p : Nat) (f : Wake → Wake) : (s.modWake p f).ports = s.ports := rfl
@[simp] theorem State.modWake_colls (s : State) (p : Nat) (f : Wake → Wake) : (s.modWake p f).colls = s.colls := rfl
@[simp] theorem State.modWake_host (s : State) (p : Nat) (f : Wake → Wake) : (s.modWake p f).host = s.host := rfl
@[simp] theorem State.modWake_server (s : State) (p : Nat) (f : Wake → Wake) : (s.modWake p f).server = s.server := rfl
@[simp] theorem State.modWake_torusTime (s : State) (p : Nat) (f : Wake → Wake) : (s.modWake p f).torusTime = s.torusTime := rfl
@[simp] theorem State.modWake_clk (s : State) (p : Nat) (f : Wake → Wake) : (s.modWake p f).clk = s.clk := rfl
@[simp] theorem State.modWake_maunvo (s : State) (p : Nat) (f : Wake → Wake) : (s.modWake p f).maunvo = s.maunvo := rfl
@[simp] theorem State.modWake_pins (s : State) (p : Nat) (f : Wake → Wake) : (s.modWake p f).pins = s.pins := rfl
@[simp] theorem State.modWake_out (s : State) (p : Nat) (f : Wake → Wake) : (s.modWake p f).out = s.out := rfl
@[simp] theorem State.modWake_free (s : State) (p : Nat) (f : Wake → Wake) : (s.modWake p f).free = s.free := rfl
theorem State.modWake_self (s : State) (p : Nat) (f : Wake → Wake) : (s.modWake p f).wakeOf p = f (s.wakeOf p) :=
  mapGet_mod_self _ _ _ _
theorem State.modWake_ne (s : State) (p : Nat) (f : Wake → Wake) (p' : Nat) (h : p' ≠ p) :
    (s.modWake p f).wakeOf p' = s.wakeOf p' := mapGet_mod_ne _ _ _ h

/-! State.modDomain -/

@[simp] theorem State.modDomain_pending (s : State) (d : Nat) (f : Domain → Domain) : (s.modDomain d f).pending = s.pending := rfl
@[simp] theorem State.modDomain_clock (s : State) (d : Nat) (f : Domain → Domain) : (s.modDomain d f).clock = s.clock := rfl
@[simp] theorem State.modDomain_clusters (s : State) (d : Nat) (f : Domain → Domain) : (s.modDomain d f).clusters = s.clusters := rfl
@[simp] theorem State.modDomain_cmem (s : State) (d : Nat) (f : Domain → Domain) : (s.modDomain d f).cmem = s.cmem := rfl
@[simp] theorem State.modDomain_qmem (s : State) (d : Nat) (f : Domain → Domain) : (s.modDomain d f).qmem = s.qmem := rfl
@[simp] theorem State.modDomain_parts (s : State) (d : Nat) (f : Domain → Domain) : (s.modDomain d f).parts = s.parts := rfl
@[simp] theorem State.modDomain_syncs (s : State) (d : Nat) (f : Domain → Domain) : (s.modDomain d f).syncs = s.syncs := rfl
@[simp] theorem State.modDomain_groups (s : State) (d : Nat) (f : Domain → Domain) : (s.modDomain d f).groups = s.groups := rfl
@[simp] theorem State.modDomain_fabric (s : State) (d : Nat) (f : Domain → Domain) : (s.modDomain d f).fabric = s.fabric := rfl
@[simp] theorem State.modDomain_store (s : State) (d : Nat) (f : Domain → Domain) : (s.modDomain d f).store = s.store := rfl
@[simp] theorem State.modDomain_smem (s : State) (d : Nat) (f : Domain → Domain) : (s.modDomain d f).smem = s.smem := rfl
@[simp] theorem State.modDomain_ctxs (s : State) (d : Nat) (f : Domain → Domain) : (s.modDomain d f).ctxs = s.ctxs := rfl
@[simp] theorem State.modDomain_ueps (s : State) (d : Nat) (f : Domain → Domain) : (s.modDomain d f).ueps = s.ueps := rfl
@[simp] theorem State.modDomain_idles (s : State) (d : Nat) (f : Domain → Domain) : (s.modDomain d f).idles = s.idles := rfl
@[simp] theorem State.modDomain_pmap (s : State) (d : Nat) (f : Domain → Domain) : (s.modDomain d f).pmap = s.pmap := rfl
@[simp] theorem State.modDomain_pmapCtl (s : State) (d : Nat) (f : Domain → Domain) : (s.modDomain d f).pmapCtl = s.pmapCtl := rfl
@[simp] theorem State.modDomain_faults (s : State) (d : Nat) (f : Domain → Domain) : (s.modDomain d f).faults = s.faults := rfl
@[simp] theorem State.modDomain_counters (s : State) (d : Nat) (f : Domain → Domain) : (s.modDomain d f).counters = s.counters := rfl
@[simp] theorem State.modDomain_dict (s : State) (d : Nat) (f : Domain → Domain) : (s.modDomain d f).dict = s.dict := rfl
@[simp] theorem State.modDomain_lease (s : State) (d : Nat) (f : Domain → Domain) : (s.modDomain d f).lease = s.lease := rfl
@[simp] theorem State.modDomain_binds (s : State) (d : Nat) (f : Domain → Domain) : (s.modDomain d f).binds = s.binds := rfl
@[simp] theorem State.modDomain_boot (s : State) (d : Nat) (f : Domain → Domain) : (s.modDomain d f).boot = s.boot := rfl
@[simp] theorem State.modDomain_nv (s : State) (d : Nat) (f : Domain → Domain) : (s.modDomain d f).nv = s.nv := rfl
@[simp] theorem State.modDomain_trust (s : State) (d : Nat) (f : Domain → Domain) : (s.modDomain d f).trust = s.trust := rfl
@[simp] theorem State.modDomain_ports (s : State) (d : Nat) (f : Domain → Domain) : (s.modDomain d f).ports = s.ports := rfl
@[simp] theorem State.modDomain_colls (s : State) (d : Nat) (f : Domain → Domain) : (s.modDomain d f).colls = s.colls := rfl
@[simp] theorem State.modDomain_host (s : State) (d : Nat) (f : Domain → Domain) : (s.modDomain d f).host = s.host := rfl
@[simp] theorem State.modDomain_server (s : State) (d : Nat) (f : Domain → Domain) : (s.modDomain d f).server = s.server := rfl
@[simp] theorem State.modDomain_torusTime (s : State) (d : Nat) (f : Domain → Domain) : (s.modDomain d f).torusTime = s.torusTime := rfl
@[simp] theorem State.modDomain_clk (s : State) (d : Nat) (f : Domain → Domain) : (s.modDomain d f).clk = s.clk := rfl
@[simp] theorem State.modDomain_maunvo (s : State) (d : Nat) (f : Domain → Domain) : (s.modDomain d f).maunvo = s.maunvo := rfl
@[simp] theorem State.modDomain_pins (s : State) (d : Nat) (f : Domain → Domain) : (s.modDomain d f).pins = s.pins := rfl
@[simp] theorem State.modDomain_out (s : State) (d : Nat) (f : Domain → Domain) : (s.modDomain d f).out = s.out := rfl
@[simp] theorem State.modDomain_free (s : State) (d : Nat) (f : Domain → Domain) : (s.modDomain d f).free = s.free := rfl
theorem State.modDomain_self (s : State) (d : Nat) (f : Domain → Domain) : (s.modDomain d f).domain d = f (s.domain d) :=
  mapGet_mod_self _ _ _ _
theorem State.modDomain_ne (s : State) (d : Nat) (f : Domain → Domain) (d' : Nat) (h : d' ≠ d) :
    (s.modDomain d f).domain d' = s.domain d' := mapGet_mod_ne _ _ _ h

/-! State.modPinGroup -/

@[simp] theorem State.modPinGroup_pending (s : State) (g : Nat) (f : PinGroup → PinGroup) : (s.modPinGroup g f).pending = s.pending := rfl
@[simp] theorem State.modPinGroup_clock (s : State) (g : Nat) (f : PinGroup → PinGroup) : (s.modPinGroup g f).clock = s.clock := rfl
@[simp] theorem State.modPinGroup_clusters (s : State) (g : Nat) (f : PinGroup → PinGroup) : (s.modPinGroup g f).clusters = s.clusters := rfl
@[simp] theorem State.modPinGroup_cmem (s : State) (g : Nat) (f : PinGroup → PinGroup) : (s.modPinGroup g f).cmem = s.cmem := rfl
@[simp] theorem State.modPinGroup_qmem (s : State) (g : Nat) (f : PinGroup → PinGroup) : (s.modPinGroup g f).qmem = s.qmem := rfl
@[simp] theorem State.modPinGroup_parts (s : State) (g : Nat) (f : PinGroup → PinGroup) : (s.modPinGroup g f).parts = s.parts := rfl
@[simp] theorem State.modPinGroup_syncs (s : State) (g : Nat) (f : PinGroup → PinGroup) : (s.modPinGroup g f).syncs = s.syncs := rfl
@[simp] theorem State.modPinGroup_groups (s : State) (g : Nat) (f : PinGroup → PinGroup) : (s.modPinGroup g f).groups = s.groups := rfl
@[simp] theorem State.modPinGroup_fabric (s : State) (g : Nat) (f : PinGroup → PinGroup) : (s.modPinGroup g f).fabric = s.fabric := rfl
@[simp] theorem State.modPinGroup_store (s : State) (g : Nat) (f : PinGroup → PinGroup) : (s.modPinGroup g f).store = s.store := rfl
@[simp] theorem State.modPinGroup_smem (s : State) (g : Nat) (f : PinGroup → PinGroup) : (s.modPinGroup g f).smem = s.smem := rfl
@[simp] theorem State.modPinGroup_ctxs (s : State) (g : Nat) (f : PinGroup → PinGroup) : (s.modPinGroup g f).ctxs = s.ctxs := rfl
@[simp] theorem State.modPinGroup_ueps (s : State) (g : Nat) (f : PinGroup → PinGroup) : (s.modPinGroup g f).ueps = s.ueps := rfl
@[simp] theorem State.modPinGroup_idles (s : State) (g : Nat) (f : PinGroup → PinGroup) : (s.modPinGroup g f).idles = s.idles := rfl
@[simp] theorem State.modPinGroup_pmap (s : State) (g : Nat) (f : PinGroup → PinGroup) : (s.modPinGroup g f).pmap = s.pmap := rfl
@[simp] theorem State.modPinGroup_pmapCtl (s : State) (g : Nat) (f : PinGroup → PinGroup) : (s.modPinGroup g f).pmapCtl = s.pmapCtl := rfl
@[simp] theorem State.modPinGroup_faults (s : State) (g : Nat) (f : PinGroup → PinGroup) : (s.modPinGroup g f).faults = s.faults := rfl
@[simp] theorem State.modPinGroup_counters (s : State) (g : Nat) (f : PinGroup → PinGroup) : (s.modPinGroup g f).counters = s.counters := rfl
@[simp] theorem State.modPinGroup_dict (s : State) (g : Nat) (f : PinGroup → PinGroup) : (s.modPinGroup g f).dict = s.dict := rfl
@[simp] theorem State.modPinGroup_lease (s : State) (g : Nat) (f : PinGroup → PinGroup) : (s.modPinGroup g f).lease = s.lease := rfl
@[simp] theorem State.modPinGroup_binds (s : State) (g : Nat) (f : PinGroup → PinGroup) : (s.modPinGroup g f).binds = s.binds := rfl
@[simp] theorem State.modPinGroup_boot (s : State) (g : Nat) (f : PinGroup → PinGroup) : (s.modPinGroup g f).boot = s.boot := rfl
@[simp] theorem State.modPinGroup_nv (s : State) (g : Nat) (f : PinGroup → PinGroup) : (s.modPinGroup g f).nv = s.nv := rfl
@[simp] theorem State.modPinGroup_trust (s : State) (g : Nat) (f : PinGroup → PinGroup) : (s.modPinGroup g f).trust = s.trust := rfl
@[simp] theorem State.modPinGroup_ports (s : State) (g : Nat) (f : PinGroup → PinGroup) : (s.modPinGroup g f).ports = s.ports := rfl
@[simp] theorem State.modPinGroup_colls (s : State) (g : Nat) (f : PinGroup → PinGroup) : (s.modPinGroup g f).colls = s.colls := rfl
@[simp] theorem State.modPinGroup_host (s : State) (g : Nat) (f : PinGroup → PinGroup) : (s.modPinGroup g f).host = s.host := rfl
@[simp] theorem State.modPinGroup_server (s : State) (g : Nat) (f : PinGroup → PinGroup) : (s.modPinGroup g f).server = s.server := rfl
@[simp] theorem State.modPinGroup_torusTime (s : State) (g : Nat) (f : PinGroup → PinGroup) : (s.modPinGroup g f).torusTime = s.torusTime := rfl
@[simp] theorem State.modPinGroup_clk (s : State) (g : Nat) (f : PinGroup → PinGroup) : (s.modPinGroup g f).clk = s.clk := rfl
@[simp] theorem State.modPinGroup_power (s : State) (g : Nat) (f : PinGroup → PinGroup) : (s.modPinGroup g f).power = s.power := rfl
@[simp] theorem State.modPinGroup_maunvo (s : State) (g : Nat) (f : PinGroup → PinGroup) : (s.modPinGroup g f).maunvo = s.maunvo := rfl
@[simp] theorem State.modPinGroup_out (s : State) (g : Nat) (f : PinGroup → PinGroup) : (s.modPinGroup g f).out = s.out := rfl
@[simp] theorem State.modPinGroup_free (s : State) (g : Nat) (f : PinGroup → PinGroup) : (s.modPinGroup g f).free = s.free := rfl
theorem State.modPinGroup_self (s : State) (g : Nat) (f : PinGroup → PinGroup) : (s.modPinGroup g f).pinGroup g = f (s.pinGroup g) :=
  mapGet_mod_self _ _ _ _
theorem State.modPinGroup_ne (s : State) (g : Nat) (f : PinGroup → PinGroup) (g' : Nat) (h : g' ≠ g) :
    (s.modPinGroup g f).pinGroup g' = s.pinGroup g' := mapGet_mod_ne _ _ _ h

/-! State.modPins -/

@[simp] theorem State.modPins_pending (s : State) (f : Pins → Pins) : (s.modPins f).pending = s.pending := rfl
@[simp] theorem State.modPins_clock (s : State) (f : Pins → Pins) : (s.modPins f).clock = s.clock := rfl
@[simp] theorem State.modPins_clusters (s : State) (f : Pins → Pins) : (s.modPins f).clusters = s.clusters := rfl
@[simp] theorem State.modPins_cmem (s : State) (f : Pins → Pins) : (s.modPins f).cmem = s.cmem := rfl
@[simp] theorem State.modPins_qmem (s : State) (f : Pins → Pins) : (s.modPins f).qmem = s.qmem := rfl
@[simp] theorem State.modPins_parts (s : State) (f : Pins → Pins) : (s.modPins f).parts = s.parts := rfl
@[simp] theorem State.modPins_syncs (s : State) (f : Pins → Pins) : (s.modPins f).syncs = s.syncs := rfl
@[simp] theorem State.modPins_groups (s : State) (f : Pins → Pins) : (s.modPins f).groups = s.groups := rfl
@[simp] theorem State.modPins_fabric (s : State) (f : Pins → Pins) : (s.modPins f).fabric = s.fabric := rfl
@[simp] theorem State.modPins_store (s : State) (f : Pins → Pins) : (s.modPins f).store = s.store := rfl
@[simp] theorem State.modPins_smem (s : State) (f : Pins → Pins) : (s.modPins f).smem = s.smem := rfl
@[simp] theorem State.modPins_ctxs (s : State) (f : Pins → Pins) : (s.modPins f).ctxs = s.ctxs := rfl
@[simp] theorem State.modPins_ueps (s : State) (f : Pins → Pins) : (s.modPins f).ueps = s.ueps := rfl
@[simp] theorem State.modPins_idles (s : State) (f : Pins → Pins) : (s.modPins f).idles = s.idles := rfl
@[simp] theorem State.modPins_pmap (s : State) (f : Pins → Pins) : (s.modPins f).pmap = s.pmap := rfl
@[simp] theorem State.modPins_pmapCtl (s : State) (f : Pins → Pins) : (s.modPins f).pmapCtl = s.pmapCtl := rfl
@[simp] theorem State.modPins_faults (s : State) (f : Pins → Pins) : (s.modPins f).faults = s.faults := rfl
@[simp] theorem State.modPins_counters (s : State) (f : Pins → Pins) : (s.modPins f).counters = s.counters := rfl
@[simp] theorem State.modPins_dict (s : State) (f : Pins → Pins) : (s.modPins f).dict = s.dict := rfl
@[simp] theorem State.modPins_lease (s : State) (f : Pins → Pins) : (s.modPins f).lease = s.lease := rfl
@[simp] theorem State.modPins_binds (s : State) (f : Pins → Pins) : (s.modPins f).binds = s.binds := rfl
@[simp] theorem State.modPins_boot (s : State) (f : Pins → Pins) : (s.modPins f).boot = s.boot := rfl
@[simp] theorem State.modPins_nv (s : State) (f : Pins → Pins) : (s.modPins f).nv = s.nv := rfl
@[simp] theorem State.modPins_trust (s : State) (f : Pins → Pins) : (s.modPins f).trust = s.trust := rfl
@[simp] theorem State.modPins_ports (s : State) (f : Pins → Pins) : (s.modPins f).ports = s.ports := rfl
@[simp] theorem State.modPins_colls (s : State) (f : Pins → Pins) : (s.modPins f).colls = s.colls := rfl
@[simp] theorem State.modPins_host (s : State) (f : Pins → Pins) : (s.modPins f).host = s.host := rfl
@[simp] theorem State.modPins_server (s : State) (f : Pins → Pins) : (s.modPins f).server = s.server := rfl
@[simp] theorem State.modPins_torusTime (s : State) (f : Pins → Pins) : (s.modPins f).torusTime = s.torusTime := rfl
@[simp] theorem State.modPins_clk (s : State) (f : Pins → Pins) : (s.modPins f).clk = s.clk := rfl
@[simp] theorem State.modPins_power (s : State) (f : Pins → Pins) : (s.modPins f).power = s.power := rfl
@[simp] theorem State.modPins_maunvo (s : State) (f : Pins → Pins) : (s.modPins f).maunvo = s.maunvo := rfl
@[simp] theorem State.modPins_out (s : State) (f : Pins → Pins) : (s.modPins f).out = s.out := rfl
@[simp] theorem State.modPins_free (s : State) (f : Pins → Pins) : (s.modPins f).free = s.free := rfl

/-! State.modPower -/

@[simp] theorem State.modPower_pending (s : State) (f : Power → Power) : (s.modPower f).pending = s.pending := rfl
@[simp] theorem State.modPower_clock (s : State) (f : Power → Power) : (s.modPower f).clock = s.clock := rfl
@[simp] theorem State.modPower_clusters (s : State) (f : Power → Power) : (s.modPower f).clusters = s.clusters := rfl
@[simp] theorem State.modPower_cmem (s : State) (f : Power → Power) : (s.modPower f).cmem = s.cmem := rfl
@[simp] theorem State.modPower_qmem (s : State) (f : Power → Power) : (s.modPower f).qmem = s.qmem := rfl
@[simp] theorem State.modPower_parts (s : State) (f : Power → Power) : (s.modPower f).parts = s.parts := rfl
@[simp] theorem State.modPower_syncs (s : State) (f : Power → Power) : (s.modPower f).syncs = s.syncs := rfl
@[simp] theorem State.modPower_groups (s : State) (f : Power → Power) : (s.modPower f).groups = s.groups := rfl
@[simp] theorem State.modPower_fabric (s : State) (f : Power → Power) : (s.modPower f).fabric = s.fabric := rfl
@[simp] theorem State.modPower_store (s : State) (f : Power → Power) : (s.modPower f).store = s.store := rfl
@[simp] theorem State.modPower_smem (s : State) (f : Power → Power) : (s.modPower f).smem = s.smem := rfl
@[simp] theorem State.modPower_ctxs (s : State) (f : Power → Power) : (s.modPower f).ctxs = s.ctxs := rfl
@[simp] theorem State.modPower_ueps (s : State) (f : Power → Power) : (s.modPower f).ueps = s.ueps := rfl
@[simp] theorem State.modPower_idles (s : State) (f : Power → Power) : (s.modPower f).idles = s.idles := rfl
@[simp] theorem State.modPower_pmap (s : State) (f : Power → Power) : (s.modPower f).pmap = s.pmap := rfl
@[simp] theorem State.modPower_pmapCtl (s : State) (f : Power → Power) : (s.modPower f).pmapCtl = s.pmapCtl := rfl
@[simp] theorem State.modPower_faults (s : State) (f : Power → Power) : (s.modPower f).faults = s.faults := rfl
@[simp] theorem State.modPower_counters (s : State) (f : Power → Power) : (s.modPower f).counters = s.counters := rfl
@[simp] theorem State.modPower_dict (s : State) (f : Power → Power) : (s.modPower f).dict = s.dict := rfl
@[simp] theorem State.modPower_lease (s : State) (f : Power → Power) : (s.modPower f).lease = s.lease := rfl
@[simp] theorem State.modPower_binds (s : State) (f : Power → Power) : (s.modPower f).binds = s.binds := rfl
@[simp] theorem State.modPower_boot (s : State) (f : Power → Power) : (s.modPower f).boot = s.boot := rfl
@[simp] theorem State.modPower_nv (s : State) (f : Power → Power) : (s.modPower f).nv = s.nv := rfl
@[simp] theorem State.modPower_trust (s : State) (f : Power → Power) : (s.modPower f).trust = s.trust := rfl
@[simp] theorem State.modPower_ports (s : State) (f : Power → Power) : (s.modPower f).ports = s.ports := rfl
@[simp] theorem State.modPower_colls (s : State) (f : Power → Power) : (s.modPower f).colls = s.colls := rfl
@[simp] theorem State.modPower_host (s : State) (f : Power → Power) : (s.modPower f).host = s.host := rfl
@[simp] theorem State.modPower_server (s : State) (f : Power → Power) : (s.modPower f).server = s.server := rfl
@[simp] theorem State.modPower_torusTime (s : State) (f : Power → Power) : (s.modPower f).torusTime = s.torusTime := rfl
@[simp] theorem State.modPower_clk (s : State) (f : Power → Power) : (s.modPower f).clk = s.clk := rfl
@[simp] theorem State.modPower_maunvo (s : State) (f : Power → Power) : (s.modPower f).maunvo = s.maunvo := rfl
@[simp] theorem State.modPower_pins (s : State) (f : Power → Power) : (s.modPower f).pins = s.pins := rfl
@[simp] theorem State.modPower_out (s : State) (f : Power → Power) : (s.modPower f).out = s.out := rfl
@[simp] theorem State.modPower_free (s : State) (f : Power → Power) : (s.modPower f).free = s.free := rfl

/-! State.modServer -/

@[simp] theorem State.modServer_pending (s : State) (f : Server → Server) : (s.modServer f).pending = s.pending := rfl
@[simp] theorem State.modServer_clock (s : State) (f : Server → Server) : (s.modServer f).clock = s.clock := rfl
@[simp] theorem State.modServer_clusters (s : State) (f : Server → Server) : (s.modServer f).clusters = s.clusters := rfl
@[simp] theorem State.modServer_cmem (s : State) (f : Server → Server) : (s.modServer f).cmem = s.cmem := rfl
@[simp] theorem State.modServer_qmem (s : State) (f : Server → Server) : (s.modServer f).qmem = s.qmem := rfl
@[simp] theorem State.modServer_parts (s : State) (f : Server → Server) : (s.modServer f).parts = s.parts := rfl
@[simp] theorem State.modServer_syncs (s : State) (f : Server → Server) : (s.modServer f).syncs = s.syncs := rfl
@[simp] theorem State.modServer_groups (s : State) (f : Server → Server) : (s.modServer f).groups = s.groups := rfl
@[simp] theorem State.modServer_fabric (s : State) (f : Server → Server) : (s.modServer f).fabric = s.fabric := rfl
@[simp] theorem State.modServer_store (s : State) (f : Server → Server) : (s.modServer f).store = s.store := rfl
@[simp] theorem State.modServer_smem (s : State) (f : Server → Server) : (s.modServer f).smem = s.smem := rfl
@[simp] theorem State.modServer_ctxs (s : State) (f : Server → Server) : (s.modServer f).ctxs = s.ctxs := rfl
@[simp] theorem State.modServer_ueps (s : State) (f : Server → Server) : (s.modServer f).ueps = s.ueps := rfl
@[simp] theorem State.modServer_idles (s : State) (f : Server → Server) : (s.modServer f).idles = s.idles := rfl
@[simp] theorem State.modServer_pmap (s : State) (f : Server → Server) : (s.modServer f).pmap = s.pmap := rfl
@[simp] theorem State.modServer_pmapCtl (s : State) (f : Server → Server) : (s.modServer f).pmapCtl = s.pmapCtl := rfl
@[simp] theorem State.modServer_faults (s : State) (f : Server → Server) : (s.modServer f).faults = s.faults := rfl
@[simp] theorem State.modServer_counters (s : State) (f : Server → Server) : (s.modServer f).counters = s.counters := rfl
@[simp] theorem State.modServer_dict (s : State) (f : Server → Server) : (s.modServer f).dict = s.dict := rfl
@[simp] theorem State.modServer_lease (s : State) (f : Server → Server) : (s.modServer f).lease = s.lease := rfl
@[simp] theorem State.modServer_binds (s : State) (f : Server → Server) : (s.modServer f).binds = s.binds := rfl
@[simp] theorem State.modServer_boot (s : State) (f : Server → Server) : (s.modServer f).boot = s.boot := rfl
@[simp] theorem State.modServer_nv (s : State) (f : Server → Server) : (s.modServer f).nv = s.nv := rfl
@[simp] theorem State.modServer_trust (s : State) (f : Server → Server) : (s.modServer f).trust = s.trust := rfl
@[simp] theorem State.modServer_ports (s : State) (f : Server → Server) : (s.modServer f).ports = s.ports := rfl
@[simp] theorem State.modServer_colls (s : State) (f : Server → Server) : (s.modServer f).colls = s.colls := rfl
@[simp] theorem State.modServer_host (s : State) (f : Server → Server) : (s.modServer f).host = s.host := rfl
@[simp] theorem State.modServer_torusTime (s : State) (f : Server → Server) : (s.modServer f).torusTime = s.torusTime := rfl
@[simp] theorem State.modServer_clk (s : State) (f : Server → Server) : (s.modServer f).clk = s.clk := rfl
@[simp] theorem State.modServer_power (s : State) (f : Server → Server) : (s.modServer f).power = s.power := rfl
@[simp] theorem State.modServer_maunvo (s : State) (f : Server → Server) : (s.modServer f).maunvo = s.maunvo := rfl
@[simp] theorem State.modServer_pins (s : State) (f : Server → Server) : (s.modServer f).pins = s.pins := rfl
@[simp] theorem State.modServer_out (s : State) (f : Server → Server) : (s.modServer f).out = s.out := rfl
@[simp] theorem State.modServer_free (s : State) (f : Server → Server) : (s.modServer f).free = s.free := rfl

/-! State.modStore -/

@[simp] theorem State.modStore_pending (s : State) (f : Store → Store) : (s.modStore f).pending = s.pending := rfl
@[simp] theorem State.modStore_clock (s : State) (f : Store → Store) : (s.modStore f).clock = s.clock := rfl
@[simp] theorem State.modStore_clusters (s : State) (f : Store → Store) : (s.modStore f).clusters = s.clusters := rfl
@[simp] theorem State.modStore_cmem (s : State) (f : Store → Store) : (s.modStore f).cmem = s.cmem := rfl
@[simp] theorem State.modStore_qmem (s : State) (f : Store → Store) : (s.modStore f).qmem = s.qmem := rfl
@[simp] theorem State.modStore_parts (s : State) (f : Store → Store) : (s.modStore f).parts = s.parts := rfl
@[simp] theorem State.modStore_syncs (s : State) (f : Store → Store) : (s.modStore f).syncs = s.syncs := rfl
@[simp] theorem State.modStore_groups (s : State) (f : Store → Store) : (s.modStore f).groups = s.groups := rfl
@[simp] theorem State.modStore_fabric (s : State) (f : Store → Store) : (s.modStore f).fabric = s.fabric := rfl
@[simp] theorem State.modStore_smem (s : State) (f : Store → Store) : (s.modStore f).smem = s.smem := rfl
@[simp] theorem State.modStore_ctxs (s : State) (f : Store → Store) : (s.modStore f).ctxs = s.ctxs := rfl
@[simp] theorem State.modStore_ueps (s : State) (f : Store → Store) : (s.modStore f).ueps = s.ueps := rfl
@[simp] theorem State.modStore_idles (s : State) (f : Store → Store) : (s.modStore f).idles = s.idles := rfl
@[simp] theorem State.modStore_pmap (s : State) (f : Store → Store) : (s.modStore f).pmap = s.pmap := rfl
@[simp] theorem State.modStore_pmapCtl (s : State) (f : Store → Store) : (s.modStore f).pmapCtl = s.pmapCtl := rfl
@[simp] theorem State.modStore_faults (s : State) (f : Store → Store) : (s.modStore f).faults = s.faults := rfl
@[simp] theorem State.modStore_counters (s : State) (f : Store → Store) : (s.modStore f).counters = s.counters := rfl
@[simp] theorem State.modStore_dict (s : State) (f : Store → Store) : (s.modStore f).dict = s.dict := rfl
@[simp] theorem State.modStore_lease (s : State) (f : Store → Store) : (s.modStore f).lease = s.lease := rfl
@[simp] theorem State.modStore_binds (s : State) (f : Store → Store) : (s.modStore f).binds = s.binds := rfl
@[simp] theorem State.modStore_boot (s : State) (f : Store → Store) : (s.modStore f).boot = s.boot := rfl
@[simp] theorem State.modStore_nv (s : State) (f : Store → Store) : (s.modStore f).nv = s.nv := rfl
@[simp] theorem State.modStore_trust (s : State) (f : Store → Store) : (s.modStore f).trust = s.trust := rfl
@[simp] theorem State.modStore_ports (s : State) (f : Store → Store) : (s.modStore f).ports = s.ports := rfl
@[simp] theorem State.modStore_colls (s : State) (f : Store → Store) : (s.modStore f).colls = s.colls := rfl
@[simp] theorem State.modStore_host (s : State) (f : Store → Store) : (s.modStore f).host = s.host := rfl
@[simp] theorem State.modStore_server (s : State) (f : Store → Store) : (s.modStore f).server = s.server := rfl
@[simp] theorem State.modStore_torusTime (s : State) (f : Store → Store) : (s.modStore f).torusTime = s.torusTime := rfl
@[simp] theorem State.modStore_clk (s : State) (f : Store → Store) : (s.modStore f).clk = s.clk := rfl
@[simp] theorem State.modStore_power (s : State) (f : Store → Store) : (s.modStore f).power = s.power := rfl
@[simp] theorem State.modStore_maunvo (s : State) (f : Store → Store) : (s.modStore f).maunvo = s.maunvo := rfl
@[simp] theorem State.modStore_pins (s : State) (f : Store → Store) : (s.modStore f).pins = s.pins := rfl
@[simp] theorem State.modStore_out (s : State) (f : Store → Store) : (s.modStore f).out = s.out := rfl
@[simp] theorem State.modStore_free (s : State) (f : Store → Store) : (s.modStore f).free = s.free := rfl

/-! State.modTime -/

@[simp] theorem State.modTime_pending (s : State) (f : TimeSt → TimeSt) : (s.modTime f).pending = s.pending := rfl
@[simp] theorem State.modTime_clock (s : State) (f : TimeSt → TimeSt) : (s.modTime f).clock = s.clock := rfl
@[simp] theorem State.modTime_clusters (s : State) (f : TimeSt → TimeSt) : (s.modTime f).clusters = s.clusters := rfl
@[simp] theorem State.modTime_cmem (s : State) (f : TimeSt → TimeSt) : (s.modTime f).cmem = s.cmem := rfl
@[simp] theorem State.modTime_qmem (s : State) (f : TimeSt → TimeSt) : (s.modTime f).qmem = s.qmem := rfl
@[simp] theorem State.modTime_parts (s : State) (f : TimeSt → TimeSt) : (s.modTime f).parts = s.parts := rfl
@[simp] theorem State.modTime_syncs (s : State) (f : TimeSt → TimeSt) : (s.modTime f).syncs = s.syncs := rfl
@[simp] theorem State.modTime_groups (s : State) (f : TimeSt → TimeSt) : (s.modTime f).groups = s.groups := rfl
@[simp] theorem State.modTime_fabric (s : State) (f : TimeSt → TimeSt) : (s.modTime f).fabric = s.fabric := rfl
@[simp] theorem State.modTime_store (s : State) (f : TimeSt → TimeSt) : (s.modTime f).store = s.store := rfl
@[simp] theorem State.modTime_smem (s : State) (f : TimeSt → TimeSt) : (s.modTime f).smem = s.smem := rfl
@[simp] theorem State.modTime_ctxs (s : State) (f : TimeSt → TimeSt) : (s.modTime f).ctxs = s.ctxs := rfl
@[simp] theorem State.modTime_ueps (s : State) (f : TimeSt → TimeSt) : (s.modTime f).ueps = s.ueps := rfl
@[simp] theorem State.modTime_idles (s : State) (f : TimeSt → TimeSt) : (s.modTime f).idles = s.idles := rfl
@[simp] theorem State.modTime_pmap (s : State) (f : TimeSt → TimeSt) : (s.modTime f).pmap = s.pmap := rfl
@[simp] theorem State.modTime_pmapCtl (s : State) (f : TimeSt → TimeSt) : (s.modTime f).pmapCtl = s.pmapCtl := rfl
@[simp] theorem State.modTime_faults (s : State) (f : TimeSt → TimeSt) : (s.modTime f).faults = s.faults := rfl
@[simp] theorem State.modTime_counters (s : State) (f : TimeSt → TimeSt) : (s.modTime f).counters = s.counters := rfl
@[simp] theorem State.modTime_dict (s : State) (f : TimeSt → TimeSt) : (s.modTime f).dict = s.dict := rfl
@[simp] theorem State.modTime_lease (s : State) (f : TimeSt → TimeSt) : (s.modTime f).lease = s.lease := rfl
@[simp] theorem State.modTime_binds (s : State) (f : TimeSt → TimeSt) : (s.modTime f).binds = s.binds := rfl
@[simp] theorem State.modTime_boot (s : State) (f : TimeSt → TimeSt) : (s.modTime f).boot = s.boot := rfl
@[simp] theorem State.modTime_nv (s : State) (f : TimeSt → TimeSt) : (s.modTime f).nv = s.nv := rfl
@[simp] theorem State.modTime_trust (s : State) (f : TimeSt → TimeSt) : (s.modTime f).trust = s.trust := rfl
@[simp] theorem State.modTime_ports (s : State) (f : TimeSt → TimeSt) : (s.modTime f).ports = s.ports := rfl
@[simp] theorem State.modTime_colls (s : State) (f : TimeSt → TimeSt) : (s.modTime f).colls = s.colls := rfl
@[simp] theorem State.modTime_host (s : State) (f : TimeSt → TimeSt) : (s.modTime f).host = s.host := rfl
@[simp] theorem State.modTime_server (s : State) (f : TimeSt → TimeSt) : (s.modTime f).server = s.server := rfl
@[simp] theorem State.modTime_clk (s : State) (f : TimeSt → TimeSt) : (s.modTime f).clk = s.clk := rfl
@[simp] theorem State.modTime_power (s : State) (f : TimeSt → TimeSt) : (s.modTime f).power = s.power := rfl
@[simp] theorem State.modTime_maunvo (s : State) (f : TimeSt → TimeSt) : (s.modTime f).maunvo = s.maunvo := rfl
@[simp] theorem State.modTime_pins (s : State) (f : TimeSt → TimeSt) : (s.modTime f).pins = s.pins := rfl
@[simp] theorem State.modTime_out (s : State) (f : TimeSt → TimeSt) : (s.modTime f).out = s.out := rfl
@[simp] theorem State.modTime_free (s : State) (f : TimeSt → TimeSt) : (s.modTime f).free = s.free := rfl

/-! State.modTrust -/

@[simp] theorem State.modTrust_pending (s : State) (f : Trust → Trust) : (s.modTrust f).pending = s.pending := rfl
@[simp] theorem State.modTrust_clock (s : State) (f : Trust → Trust) : (s.modTrust f).clock = s.clock := rfl
@[simp] theorem State.modTrust_clusters (s : State) (f : Trust → Trust) : (s.modTrust f).clusters = s.clusters := rfl
@[simp] theorem State.modTrust_cmem (s : State) (f : Trust → Trust) : (s.modTrust f).cmem = s.cmem := rfl
@[simp] theorem State.modTrust_qmem (s : State) (f : Trust → Trust) : (s.modTrust f).qmem = s.qmem := rfl
@[simp] theorem State.modTrust_parts (s : State) (f : Trust → Trust) : (s.modTrust f).parts = s.parts := rfl
@[simp] theorem State.modTrust_syncs (s : State) (f : Trust → Trust) : (s.modTrust f).syncs = s.syncs := rfl
@[simp] theorem State.modTrust_groups (s : State) (f : Trust → Trust) : (s.modTrust f).groups = s.groups := rfl
@[simp] theorem State.modTrust_fabric (s : State) (f : Trust → Trust) : (s.modTrust f).fabric = s.fabric := rfl
@[simp] theorem State.modTrust_store (s : State) (f : Trust → Trust) : (s.modTrust f).store = s.store := rfl
@[simp] theorem State.modTrust_smem (s : State) (f : Trust → Trust) : (s.modTrust f).smem = s.smem := rfl
@[simp] theorem State.modTrust_ctxs (s : State) (f : Trust → Trust) : (s.modTrust f).ctxs = s.ctxs := rfl
@[simp] theorem State.modTrust_ueps (s : State) (f : Trust → Trust) : (s.modTrust f).ueps = s.ueps := rfl
@[simp] theorem State.modTrust_idles (s : State) (f : Trust → Trust) : (s.modTrust f).idles = s.idles := rfl
@[simp] theorem State.modTrust_pmap (s : State) (f : Trust → Trust) : (s.modTrust f).pmap = s.pmap := rfl
@[simp] theorem State.modTrust_pmapCtl (s : State) (f : Trust → Trust) : (s.modTrust f).pmapCtl = s.pmapCtl := rfl
@[simp] theorem State.modTrust_faults (s : State) (f : Trust → Trust) : (s.modTrust f).faults = s.faults := rfl
@[simp] theorem State.modTrust_counters (s : State) (f : Trust → Trust) : (s.modTrust f).counters = s.counters := rfl
@[simp] theorem State.modTrust_dict (s : State) (f : Trust → Trust) : (s.modTrust f).dict = s.dict := rfl
@[simp] theorem State.modTrust_lease (s : State) (f : Trust → Trust) : (s.modTrust f).lease = s.lease := rfl
@[simp] theorem State.modTrust_binds (s : State) (f : Trust → Trust) : (s.modTrust f).binds = s.binds := rfl
@[simp] theorem State.modTrust_boot (s : State) (f : Trust → Trust) : (s.modTrust f).boot = s.boot := rfl
@[simp] theorem State.modTrust_nv (s : State) (f : Trust → Trust) : (s.modTrust f).nv = s.nv := rfl
@[simp] theorem State.modTrust_ports (s : State) (f : Trust → Trust) : (s.modTrust f).ports = s.ports := rfl
@[simp] theorem State.modTrust_colls (s : State) (f : Trust → Trust) : (s.modTrust f).colls = s.colls := rfl
@[simp] theorem State.modTrust_host (s : State) (f : Trust → Trust) : (s.modTrust f).host = s.host := rfl
@[simp] theorem State.modTrust_server (s : State) (f : Trust → Trust) : (s.modTrust f).server = s.server := rfl
@[simp] theorem State.modTrust_torusTime (s : State) (f : Trust → Trust) : (s.modTrust f).torusTime = s.torusTime := rfl
@[simp] theorem State.modTrust_clk (s : State) (f : Trust → Trust) : (s.modTrust f).clk = s.clk := rfl
@[simp] theorem State.modTrust_power (s : State) (f : Trust → Trust) : (s.modTrust f).power = s.power := rfl
@[simp] theorem State.modTrust_maunvo (s : State) (f : Trust → Trust) : (s.modTrust f).maunvo = s.maunvo := rfl
@[simp] theorem State.modTrust_pins (s : State) (f : Trust → Trust) : (s.modTrust f).pins = s.pins := rfl
@[simp] theorem State.modTrust_out (s : State) (f : Trust → Trust) : (s.modTrust f).out = s.out := rfl
@[simp] theorem State.modTrust_free (s : State) (f : Trust → Trust) : (s.modTrust f).free = s.free := rfl

end Sys2Proof.Machine
end

