-- ==== Sys2Proof/Tests/Slice0.lean ====
section
/-! SUPPORT. The model's own tests. Each list of a test holds the premises of one statement, or of several of its clauses, on a small
state that meets them, and what one step gives there; the values where two clauses meet stand beside one another. The expected numbers
are the manual's. -/

namespace Sys2Proof.Tests
set_option Elab.async false
open Sys2Proof Sys2Proof.Machine Sys2Proof.Claims

/-- Does the answer go on to a state that passes the test? -/
def goesTo (a : Answer) (f : State → Bool) : Bool :=
  match a with
  | .next t => f t
  | _ => false

/-- All of them hold. -/
def checks (l : List Bool) : Bool := l.all id

/-- A module whose one partition owns everything and runs. -/
def base : State :=
  { State.reset with
    pmap := Pmap.single
    boot := { Boot.reset with moduleState := 1, step := 12, memZeroing := false }
    trust := { Trust.reset with lifecycle := 2, provisionedFuse := true }
    lease := { Lease.reset with holder := 1, expires := 1000 }
    parts := [(0, { Part.reset with running := true, partCycle := 100 })] }

/-- Its cluster 0 with sequencer state q. -/
def withCl (s : State) (f : Cluster → Cluster) : State := s.modCluster 0 f

def runs (s : State) : State := s.modCluster 0 (fun x => { x with seq := { x.seq with state := .run } })

/-- Descriptor 0 of cluster 0 holds the words. -/
def withDesc (s : State) (ws : List Nat) : State :=
  ws.zipIdx.foldl (fun t wi => t.putByteCoded 0 (quireBase + wi.2) (BitVec.ofNat 32 wi.1)) s

/-- Words of a descriptor: opcode, unit, slots (address + format * 2^24), count, subop, ctx. -/
def descWords (op unit : Nat) (slots : List Nat) (count sub ctx : Nat) : List Nat :=
  [op + 256 * unit, 5] ++ slots ++ [count + 65536 * sub + 2 ^ 24 * ctx]

/-- A sound word. -/
def fp (w : Nat) : PWord := ⟨BitVec.ofNat 32 w, false⟩

/-- An operation of a unit whose accesses all lie ahead. -/
def waitingOp (unit : Nat) : EngOp :=
  { unit := unit, opcode := 0, desc := 4, ws := [], f := 110, t := 8, inLast := 117, last := 199, stage := .computing, mismatches := 0,
    reads := [], ins := [], writes := [], outs := some ([], 4), seed := 0, gens := [], tails := [], arrive := none, groups := 1,
    judged := 0, failed := [], sparse := none, hap := .clean, reported := false }


/-! The cluster (chapter 3). -/

/-- Where a descriptor's slots point is in the banks. -/
def inBanksAll (s : State) (d : Desc) (js : List Nat) : Bool :=
  js.all (fun j => match slotAt (s.cluster 0) d j with | .mem _ => true | .reg _ => false)

/-- The premises of an issue on cluster 0 (Issues). -/
def canIssueNow (s : State) (d : Desc) : Bool :=
  let u := s.settle 0
  let v := atIssue s 0 d
  u.canIssue 0 && u.fetchDesc 0 (u.cluster 0).seq.pc == some d && u.issueTests 0 d && v.canIssue 0
    && !descInvalid (v.cluster 0) (v.walkKept 0 d) d

/-- Descriptor 0 of cluster 0, and the state that issues it. -/
def issuing (ws : List Nat) : State := withDesc (runs base) ws

def addWords : List Nat := descWords 0x20 2 [0, 32, 64, 0, 0] 1 0 0
def sumsqWords : List Nat := descWords 0x70 6 [0, 0, 64, 0, 0] 1 1 0
def redWords : List Nat := descWords 0x60 5 [0, 64, 128, 0, 0] 2 0 0
def quantWords : List Nat := descWords 0x40 3 [0, 0, 64 + 2 * 2 ^ 24, 0, 0] 1 0 1
def quantT2Words : List Nat := descWords 0x40 3 [0, 0, 64 + 5 * 2 ^ 24, 128 + 6 * 2 ^ 24, 0] 1 0 1
def dequantWords : List Nat := descWords 0x41 3 [3 * 2 ^ 24, 0, 64, 0, 0] 1 0 0
def mmaWords : List Nat := descWords 0x10 1 [2 * 2 ^ 24, 0x1000 + 2 * 2 ^ 24, 0x2000, 0, 0] 1 0 0
def mmzWords : List Nat := descWords 0x11 1 [2 * 2 ^ 24, 0x1000 + 2 * 2 ^ 24, 0x2000, 0, 0] 1 0 0
def spWords : List Nat := descWords 0x12 1 [2 * 2 ^ 24, 0x1000 + 2 * 2 ^ 24, 0x2000, 0, 0] 1 0 0
def walkWords : List Nat := descWords 0x50 4 [8 * 2 ^ 24, 16 + 8 * 2 ^ 24, 32 + 7 * 2 ^ 24, 0, 0] 1 0 0

/-- Premises of EngineIssueEffects: a descriptor of each streaming unit issues, with its operation in the engine (R78); the fifth one
that waits is a QUEUE_OVERRUN (R79). -/
theorem test_stream_issue :
    checks ([[(addWords, 2), (sumsqWords, 6), (redWords, 5), (quantWords, 3), (quantT2Words, 3), (dequantWords, 3)].all (fun wu =>
        canIssueNow (issuing wu.1) ⟨0, wu.1⟩ && decide ((begun (issuing wu.1) 0 ⟨0, wu.1⟩).queueLen 0 wu.2 < 4)),
      goesTo (exec (.add 0 (.bankConflict 0 3)) (issuing addWords)) (fun t => (t.cluster 0).seq.pc == 1
        && (t.cluster 0).ops == [{ (begun (issuing addWords) 0 ⟨0, addWords⟩).streamIssued 0 ⟨0, addWords⟩ with hap := .bankConflict 0 3 }]),
      goesTo (exec (.redAdd 0 .clean) (issuing redWords)) (fun t => (t.cluster 0).ops.map EngOp.groups == [1]),
      goesTo (exec (.sumsq 0 .clean) (issuing sumsqWords)) (fun t => (t.cluster 0).ops.map EngOp.unit == [6]),
      goesTo (exec (.quant 0 .clean) (issuing quantWords)) (fun t => (t.cluster 0).ops.map EngOp.seed == [t.gen 0 1])]) = true := by
  decide +kernel

theorem test_queue_overrun :
    checks (let s := (issuing addWords).modCluster 0 (fun x => { x with ops := List.replicate 4 (waitingOp 2) })
      [canIssueNow s ⟨0, addWords⟩ && decide (4 ≤ (begun s 0 ⟨0, addWords⟩).queueLen 0 2),
      goesTo (exec (.add 0 .clean) s) (fun t => (t.cluster 0).seq.cause == 2)]) = true := by
  decide +kernel

/-- ADD of 32 FP32 elements in the cycle 101: near reads take 6 cycles and 64 elements come a cycle, so F is 107 and the last result 4
cycles later; ADD with a source still in the far banks waits 9 (R78, Table 3.5, R111). -/
theorem test_stream_schedule :
    checks (let o := (begun (issuing addWords) 0 ⟨0, addWords⟩).streamIssued 0 ⟨0, addWords⟩
      [o.f == (begun (issuing addWords) 0 ⟨0, addWords⟩).partCycleOf 0 + 6 && o.inLast == o.f && o.last == o.f + 4,
      wordsRead o 0 == (List.range 32) && wordsRead o 1 == (List.range 32).map (32 + ·),
      wordsWritten o 2 == (List.range 32).map (fun k => (k, Dest.addr (64 + k))),
      o.writes.all (fun b => decide (b.cyc = o.f + 4))]) = true := by
  decide +kernel

/-- The operands of an operation, one word for each code given. -/
def operands (d : Desc) (xs : List (Nat × List Nat)) : EngOp :=
  { waitingOp d.unit with opcode := d.opcode, ws := d.ws, desc := d.index, ins := xs.map (fun x => (x.1, x.2.map fp)) }

/-- Thirty-two elements that begin with those given. -/
def fill (l : List Nat) : List Nat := l ++ List.replicate (32 - l.length) 0

/-- 1 + 2 = 3; the squares of 3 and 4 sum to 25; one magnitude reaches 2 in SATCNT's row of saturation counts; dequantised 1.0 (R80 to R84). -/
theorem test_operation_results :
    checks (let add := operands ⟨0, addWords⟩ [(0, fill [0x3F800000]), (1, fill [0x40000000])]
      let sq := operands ⟨0, sumsqWords⟩ [(0, fill [0x40400000, 0x40800000])]
      let wk := operands ⟨0, walkWords⟩ [(0, [5]), (1, [4])]
      [(sourceFlows ⟨0, addWords⟩).all (fun x => (insOf add.ins x.slot).length == x.words (opElems ⟨0, addWords⟩)),
      (insOf add.compute.1 2).take 2 == [fp 0x40400000, fp 0],
      (insOf sq.compute.1 2) == [fp 0x41C80000],
      (insOf wk.compute.1 2).length == 2 && (((insOf wk.compute.1 2).getD 1 ⟨0, true⟩).w.toNat % 2 ^ 15 == 2)]) = true := by
  decide +kernel

/-- SQRT of -0 is -0 by R80 (and of a negative number NaN), MIN of the zeros is -0, a compare with NaN is +0 with NV (R49, R50). -/
theorem test_special_operands :
    checks ([vectorElt 0x33 0 0 ⟨.zero true, 0, false⟩ ⟨.zero false, 0, false⟩ ⟨.zero false, 0, false⟩ == (2 ^ 31, 0),
      (vectorElt 0x24 0 0 ⟨.zero true, 0, false⟩ ⟨.zero false, 0, false⟩ ⟨.zero false, 0, false⟩).1 == 2 ^ 31,
      vectorElt 0x27 0 0 (eltOf 0 ⟨0x7FC00000, false⟩) ⟨.zero false, 0, false⟩ ⟨.zero false, 0, false⟩ == (0, flNV)]) = true := by
  decide +kernel

/-- An MMA_MX of one chunk: T is 8 x 1 cycles for FP8, and its C of 2,048 BF16 elements is written over 8 cycles from F + T + 74 (R74). -/
theorem test_matrix_issue :
    checks (let o := match exec (.mma 0 .clean) (issuing mmaWords) with
        | .next t => (t.cluster 0).ops.headD (waitingOp 1)
        | _ => waitingOp 1
      [canIssueNow (issuing mmaWords) ⟨0, mmaWords⟩ && canIssueNow (issuing mmzWords) ⟨0, mmzWords⟩,
      decide ((begun (issuing mmaWords) 0 ⟨0, mmaWords⟩).queueLen 0 1 < 4),
      slotAt ((begun (issuing mmaWords) 0 ⟨0, mmaWords⟩).cluster 0) ⟨0, mmaWords⟩ 2 == .mem 0x2000,
      o.t == 8 && o.last == o.f + 89 && o.writes.all (fun b => decide (o.f + 82 ≤ b.cyc)),
      goesTo (exec (.mmz 0 .clean) (issuing mmzWords)) (fun t => (t.cluster 0).ops.map (fun o => wordsRead o 2) == [[]])]) = true := by
  decide +kernel

/-- An MMA_SP with the index buffer that one kept chunk leaves: header 1, then chunk 0 (both with even parity). -/
def sparseState : State :=
  let s := (issuing spWords).modCluster 0 (fun x => { x with walk := some ⟨32, 0, 16, 1, 0⟩ })
  s.writeWords 0 32 (indexBuffer [0] false)

/-- One whose index lists chunk 1 of a tile of one chunk. -/
def misfit : State := sparseState.writeWords 0 32 (indexBuffer [1] false)

/-- The same before the walk has presented its last index word. -/
def earlySparse : State := sparseState.modCluster 0 (fun x => { x with walk := some ⟨32, 0, 16, 1, 1000⟩ })

theorem test_sparse_issue :
    checks (let kept (s : State) := (begun s 0 ⟨0, spWords⟩).readIndex 0 ⟨32, 0, 16, 1, 0⟩ 1
      [canIssueNow (issuing walkWords) ⟨0, walkWords⟩,
      decide ((begun (issuing walkWords) 0 ⟨0, walkWords⟩).queueLen 0 4 < 4),
      goesTo (exec (.walk 0 .clean) (issuing walkWords)) (fun t => (t.cluster 0).walk.isSome && (t.cluster 0).ops.map EngOp.unit == [4]),
      canIssueNow sparseState ⟨0, spWords⟩ && canIssueNow (issuing spWords) ⟨0, spWords⟩,
      goesTo (exec (.mmaSp 0 .clean) (issuing spWords)) (fun t => (t.cluster 0).seq.cause == 0x0B),
      ((begun sparseState 0 ⟨0, spWords⟩).cluster 0).walk == some ⟨32, 0, 16, 1, 0⟩,
      (kept sparseState).1.unfit 1 == false && (kept sparseState).1.kept 1 == [0],
      goesTo (exec (.mmaSp 0 .clean) sparseState) (fun t => (t.cluster 0).ops.map EngOp.t == [8]),
      (kept misfit).1.unfit 1,
      goesTo (exec (.mmaSp 0 .clean) misfit) (fun t => (t.cluster 0).seq.cause == 0x0C),
      goesTo (exec (.mmaSp 0 .clean) earlySparse) (fun t => (t.cluster 0).ops.map (fun o => o.sparse.map Sparse.early) == [some true])]) = true := by
  decide +kernel

/-- An operation of cluster 0 that reads words 5 and 6, or one line of region 1; and the region with one line to read. -/
def reader (src : Src) (h : Hap) : EngOp := { waitingOp 2 with reads := [⟨100, 0, src⟩], hap := h, outs := none }
def lined (n : Nat) : State :=
  (base.modCluster 0 (fun x => { x with circ := [(1, { Circ.reset with sizeLog2 := 6, en := true, head := BitVec.ofNat 24 n })] })).writeWords 0 0
    [fp 7, fp 8]

/-- Premises of AccessesOfACycle and what the cycle does: a word read, a line read and the tail moved by 4, a failed test's poison and
fault, a conflict's fault on line 0 and none on line 1, and a parity error's poison on its line alone (R111, R112, R118, R119, R350). -/
theorem test_accesses_of_a_cycle :
    checks (let s (n : Nat) (o : EngOp) : State := (lined n).modCluster 0 (fun x => { x with ops := [o] })
      let b (src : Src) : ReadBeat := ⟨100, 0, src⟩
      let w : Src := .words [0, 1]
      let l : Src := .lines 1 1 [0, 1, 2, 3]
      let t (n : Nat) (src : Src) (h : Hap) (ok : Bool) : State := (s n (reader src h)).doRead 0 0 (reader src h) (b src) (fun _ => ok)
      [((t 4 w .clean true).cluster 0).ops.map (fun o => (o.reads.length, insOf o.ins 0)) == [(0, [fp 7, fp 8])],
      ((t 4 l .clean true).cluster 0).ops.map (fun o => insOf o.ins 0) == [[fp 7, fp 8, fp 0, fp 0]],
      (((t 4 l .clean true).cluster 0).region 1).tail == 4 && (((t 0 l .clean false).cluster 0).region 1).tail == 0,
      ((t 0 l .clean false).cluster 0).seq.cause == 0x0A,
      ((t 0 l .clean false).cluster 0).ops.map (fun o => insOf o.ins 0) == [List.replicate 4 ⟨0, true⟩],
      ((t 4 w (.bankConflict 0 0) true).cluster 0).seq.cause == 0x08,
      ((t 4 w (.bankConflict 0 1) true).cluster 0).seq.cause == 0x00,
      ((t 4 w (.xbarRead 0 0) true).cluster 0).ops.map (fun o => insOf o.ins 0) == [[⟨0, true⟩, ⟨0, true⟩]],
      ((t 4 w (.xbarRead 0 1) true).cluster 0).ops.map (fun o => insOf o.ins 0) == [[fp 7, fp 8]]]) = true := by
  decide +kernel

/-- Premises of CheckedErrors, and the fault of a residue error, of a write's parity and of a bank conflict (R102, R112, R350). -/
theorem test_checked_errors :
    checks (let o (h : Hap) : EngOp := { operands ⟨0, addWords⟩ [(0, fill []), (1, fill [])] with hap := h }
      let b : WriteBeat := ⟨100, 2, .addr 64, 0, 8, 0⟩
      [(base.cluster 0).seq.state == .idle,
      ((o .residue).compute.1.all (fun kv => kv.2.all (· == ⟨0, true⟩))),
      ((base.engineError 0 (o .residue)).cluster 0).seq.cause == 0x05,
      lineIn 2 1 b.slot b.off b.n && lineIn 2 0 b.slot b.off b.n && !lineIn 2 2 b.slot b.off b.n && !lineIn 0 0 b.slot b.off b.n,
      ((base.befallWrite 0 (o (.xbarWrite 2 1)) b 2).cluster 0).seq.cause == 0x11,
      (o (.xbarWrite 2 1)).keepsWord b 3 && !(o (.xbarWrite 2 1)).keepsWord b 4,
      ((base.befallWrite 0 (o (.bankConflict 2 0)) b 2).cluster 0).seq.cause == 0x08]) = true := by
  decide +kernel

/-- The words of one descriptor for each operation of the sequencer and stream units. -/
def seqWords (op unit : Nat) : List Nat := descWords op unit [0, 0, 0, 0, 0] 3 0 1

theorem test_sequencer_operations :
    checks ([[(0x00, 0), (0x00, 8), (0x04, 8), (0x81, 7), (0x80, 7), (0x01, 0), (0x02, 0), (0x03, 0)].all (fun ou =>
        canIssueNow (issuing (seqWords ou.1 ou.2)) ⟨0, seqWords ou.1 ou.2⟩),
      goesTo (exec (.sstart 0) (issuing (seqWords 0x80 7))) (fun t => (t.ctx 0 1).pendStart == 1),
      goesTo (exec (.loopSet 0) (issuing (seqWords 0x01 0))) (fun t => (mapGet loopD (t.cluster 0).seq.loops 0).count == 3),
      goesTo (exec (.stepMark 0) (issuing (seqWords 0x02 0))) (fun t => (t.cluster 0).seq.stepN == 1),
      goesTo (exec (.endQuire 0) (issuing (seqWords 0x03 0))) (fun t => (t.cluster 0).seq.state == .done)]) = true := by
  decide +kernel

/-- A loop of two iterations that ends at descriptor 7 with target 2, and descriptor 4,095 (R89). -/
def loopDesc (i : Nat) (loopEnd : Bool) : Desc := ⟨i, [2 ^ 21 * b2n loopEnd, 5 + 2 ^ 20 * 2, 0, 0, 0, 0, 0, 0]⟩
def looping (iter : Nat) : State :=
  base.modCluster 0 (fun x => { x with seq := { x.seq with state := .run, loops := [(0, ⟨2, iter, [], true⟩)] } })

theorem test_next_descriptor :
    checks ([(((looping 0).finishIssue 0 (loopDesc 7 true)).cluster 0).seq.pc == 2,
      (((looping 1).finishIssue 0 (loopDesc 7 true)).cluster 0).seq.pc == 8,
      (((looping 1).finishIssue 0 (loopDesc 7 false)).cluster 0).seq.pc == 8,
      (((looping 1).finishIssue 0 (loopDesc 4095 false)).cluster 0).seq.cause == 1]) = true := by
  decide +kernel

/-- Descriptor 0 whose first byte has two errors; a descriptor with delta 0; one that waits on an object still in phase 0 with its
sequence ahead (R86, R90). -/
def badQuire : State := { runs base with qmem := [(cellBase 0 quireBase, 3)] }
def waiting : State :=
  (withDesc (runs base) ([0x1000, 5] ++ List.replicate 6 0)).modSync 0 (fun x => { x with en := true, seqArr := 1 })

theorem test_descriptor_faults :
    checks ([badQuire.canIssue 0 && badQuire.fetchDesc 0 0 == none,
      goesTo (exec (.nop 0) badQuire) (fun t => (t.cluster 0).seq.cause == 3),
      goesTo (exec (.nop 0) (issuing (List.replicate 8 0))) (fun t => (t.cluster 0).seq.cause == 1),
      waiting.canIssue 0 && !waiting.issueTests 0 ⟨0, [0x1000, 5] ++ List.replicate 6 0⟩,
      goesTo (exec (.nop 0) waiting) (fun t => (t.cluster 0).seq.state == .wait)]) = true := by
  decide +kernel

/-! Verdicts, hold, start and stop. -/

def withOps (os : List EngOp) : State := (runs base).modCluster 0 (fun x => { x with ops := os })
def tile (st : OpStage) : EngOp := { waitingOp 1 with stage := st }

theorem test_tile_verdict :
    checks (let u := (withOps [tile .computing]).toCycle 0 128
      let full := withOps (List.replicate 8 (tile .pending) ++ [tile .computing])
      [u.live 0 && (u.cluster 0).ops.find? tileComputing == some (tile .computing) && (tile .computing).fails none == none,
      (u.cluster 0).pendingTiles (u.partCycleOf 0) == 0,
      goesTo (exec (.tileVerdict 0 none) (withOps [tile .computing])) (fun t =>
        (t.cluster 0).ops == [tile .pending] && t.partCycleOf 0 == 128 && (t.cluster 0).flags.mx == 4),
      (tile .computing).fails (some (.core 1 8)) == some (.core 1 8),
      goesTo (exec (.tileVerdict 0 (some (.core 1 8))) (withOps [tile .computing])) (fun t =>
        (t.cluster 0).seq.holdReq && (t.cluster 0).res.lastSlot == 9 && (t.part 0).holdRaised == some 28),
      ((full.toCycle 0 128).cluster 0).pendingTiles 128 == 8,
      goesTo (exec (.tileVerdict 0 none) full) (fun t => (t.cluster 0).seq.cause == 7),
      (let p := { tile .computing with ins := [(0, [⟨0, true⟩])] }
       p.poisoned && p.fails (some (.core 1 8)) == none)]) = true := by
  decide +kernel

theorem test_reduction_verdict :
    checks (let r := { waitingOp 5 with groups := 2 }
      [goesTo (exec (.reductionVerdict 0 none) (withOps [r])) (fun t => (t.cluster 0).ops.map EngOp.judged == [1]),
      goesTo (exec (.reductionVerdict 0 (some 5)) (withOps [r])) (fun t =>
        (t.cluster 0).res.lastLane == 5 && (t.cluster 0).ops.map EngOp.failed == [[(0, 1)]]),
      (let o := { r with judged := 2, failed := [(0, 1)] }
       !o.mayWrite ⟨200, 2, .addr 0, 0, 64, 0⟩ && o.mayWrite ⟨200, 2, .addr 64, 64, 64, 1⟩
         && !o.mayWrite ⟨200, 2, .addr 128, 128, 64, 2⟩)]) = true := by
  decide +kernel

/-- A pending tile's words are written in their cycles (R74), and a streaming operation ends with its flags (R91). -/
theorem test_results_written :
    checks (let o (unit : Nat) (st : OpStage) : EngOp := { waitingOp unit with
          stage := st, outs := some ([(2, [fp 7, ⟨9, true⟩])], 4), writes := [⟨192, 2, .addr 100, 0, 2, 0⟩] }
      [(withOps [o 1 .pending]).live 0 && ((withOps [o 1 .pending]).cluster 0).ops.find? tilePending == some (o 1 .pending),
      goesTo (exec (.tileWriteback 0) (withOps [o 1 .pending])) (fun t =>
        (t.cluster 0).ops == [] && t.peekWord 0 100 == fp 7 && t.peekWord 0 101 == ⟨0, true⟩ && t.partCycleOf 0 == 199),
      goesTo (exec (.engineLastResult 0 5) (withOps [{ o 5 .computing with judged := 1 }])) (fun t => t.peekWord 0 100 == fp 7),
      goesTo (exec (.engineLastResult 0 5) (withOps [o 5 .computing])) (fun t => t.peekWord 0 100 == fp 0 && (t.cluster 0).ops.length == 1),
      goesTo (exec (.engineLastResult 0 2) (withOps [o 2 .computing])) (fun t =>
        (t.cluster 0).flags.vx == 4 && (t.cluster 0).ops.isEmpty)]) = true := by
  decide +kernel

theorem test_words_read_back :
    checks (let ws : List (Nat × PWord) := [(10485759, fp 7), (5, ⟨9, true⟩)]
      [!(base.cluster 0).flip.arm && decide (ws.map Prod.fst).Nodup && ws.all (fun x => decide (x.1 < 0xA00000)),
      (base.writeCycle 0 ws).peekWord 0 10485759 == fp 7 && (base.writeCycle 0 ws).peekWord 0 5 == ⟨0, true⟩]) = true := by
  decide +kernel

def holding (o : EngOp) : State := (withOps [o]).modCluster 0 (fun x => { x with seq := { x.seq with holdReq := true } })
def badTile (m : Nat) : EngOp := { tile .failed with mismatches := m, ws := descWords 0x11 1 [0, 0, 0, 0, 0] 0 0 0 }
def raised : State := (holding (badTile 1)).modPart 0 (fun q => { q with holdRaised := some 3 })
def held (o : EngOp) : State :=
  ((holding o).modPart 0 (fun q => { q with holdActive := true })).modCluster 0 (fun x => { x with seq := { x.seq with state := .hold } })

/-- A reduction whose group 0 waits for its replay, with m mismatches so far. -/
def badRed (m : Nat) : EngOp := { waitingOp 5 with judged := 1, failed := [(0, m)] }

theorem test_hold_delivered :
    checks ([goesTo (exec (.holdDelivered 0) raised) (fun t =>
        (t.cluster 0).seq.state == .hold && (t.cluster 0).seq.held == .run && t.clock.fab == 51 && (t.part 0).partCycle == 151)]) = true := by
  decide +kernel

/-- The replay of an MMZ without chunks, which reads nothing again. -/
theorem test_replay_verdict :
    checks ([((held (badTile 1)).cluster 0).ops.find? opFailed == some (badTile 1) && ((held (badTile 1)).part 0).holdActive,
      goesTo (exec (.replayVerdict 0 none) (held (badTile 1))) (fun t =>
        (t.part 0).releaseRaised == some t.clock.fab && (t.cluster 0).ops.map EngOp.stage == [.pending] && !(t.cluster 0).seq.holdReq)]) = true := by
  decide +kernel

theorem test_replay_mismatches :
    checks ([
      goesTo (exec (.replayVerdict 0 (some (.core 0 0))) (held (badTile 1))) (fun t => (t.cluster 0).ops.map EngOp.mismatches == [2]),
      goesTo (exec (.replayVerdict 0 (some (.core 0 0))) (held (badTile 2))) (fun t => (t.cluster 0).seq.cause == 4)]) = true := by
  decide +kernel

theorem test_reduction_replay :
    checks ([
      goesTo (exec (.replayVerdict 0 none) (held (badRed 2))) (fun t => (t.cluster 0).ops.map EngOp.failed == [[]] && t.clock.fab == 7),
      goesTo (exec (.replayVerdict 0 (some (.lane 3))) (held (badRed 2))) (fun t => (t.cluster 0).seq.cause == 4)]) = true := by
  decide +kernel

def released : State :=
  ((runs base).modPart 0 (fun q => { q with holdActive := true, releaseRaised := some 0 })).modCluster 0 (fun x =>
    { x with seq := { x.seq with state := .hold, held := .wait } })
def starting : State :=
  (base.modPart 0 (fun q => { q with running := false, startRaised := some 2 })).modCluster 0 (fun x => { x with seq := { x.seq with state := .ready } })
def stopping : State := (runs base).modPart 0 (fun q => { q with stopRaised := some 1 })

theorem test_spine_deliveries :
    checks ([goesTo (exec (.holdReleaseDelivered 0) released) (fun t => (t.cluster 0).seq.state == .wait && (t.part 0).partCycle == 100),
      goesTo (exec (.partitionStartDelivered 0) starting) (fun t => (t.cluster 0).seq.state == .run && (t.part 0).running),
      goesTo (exec (.partitionStopDelivered 0) stopping) (fun t =>
        (t.cluster 0).seq.state == .stopped && (t.part 0).partCycle == 149)]) = true := by
  decide +kernel

theorem test_stop_commands :
    checks (let s := base.modPart 0 (fun q => { q with running := false, stopping := some 0 })
     let d := base.modCluster 0 (fun x => { x with seq := { x.seq with state := .fault }, resid := [(0, ⟨4, 8, true⟩)] })
     [s.drained 0 && goesTo (exec (.partitionStopped 0) s) (fun t => (t.bind 0).state == 4),
      base.holdsLease .a && goesTo (exec (.stop 0 .a) base) (fun t => (t.part 0).stopRaised == some 0),
      goesTo (exec (.localStop 4095 .coreA) base) (fun t => (t.part 0).stopRaised == some 0),
      goesTo (exec (.unload 0 .binding) (d.writeWords 0 7 [⟨1, false⟩, ⟨2, false⟩])) (fun t =>
        t.peekWord 0 7 == ⟨1, false⟩ && t.peekWord 0 8 == ⟨0, false⟩)]) = true := by
  decide +kernel

/-! Registers, unscheduled accesses, time, sync objects and the spine (chapters 3, 4 and 6). -/

theorem test_lease_refuses :
    checks ([!base.holdsLease .b && wellFormed (.coreMapWrite 0 1 5 .coreB),
      goesTo (exec (.coreMapWrite 0 1 5 .coreB) base) (fun t => t == { base with lease := { base.lease with refused := 1 } }),
      goesTo (exec (.counterWrite 0x5010 1 0 false .b) base) (fun t => t.lease.refused == 1)]) = true := by
  decide +kernel

/-- A circular region of 64 words at 0, enabled: SIZE_LOG2 6 in bits 28:24, EN in bit 31. -/
def circOn : State := base.modCluster 0 (fun x => { x with circ := [(1, { Circ.reset with sizeLog2 := 6, en := true, head := 64 })] })
def stopped : State := base.modPart 0 (fun q => { q with running := false })

theorem test_cluster_register_writes :
    checks ([goesTo (exec (.coreMapWrite 4095 3 0 .coreA) base) (fun t => (t.cluster 4095).seq.mapRefused),
      (runs base).circWritable 0 .coreA == false,
      goesTo (exec (.circRegisterWrite 0 7 .head 0 .coreA) (runs base)) (fun t => (t.cluster 0).mem.cfgRefused),
      stopped.circWritable 0 .coreA,
      goesTo (exec (.circRegisterWrite 0 7 .tail 0xFF000010 .coreA) stopped) (fun t => ((t.cluster 0).region 7).tail == 0x10),
      goesTo (exec (.resRegisterWrite 0 3 .base 0x80000010 .binding) base) (fun t => (t.cluster 0).range 3 == ⟨16, 0, true⟩),
      goesTo (exec (.resRegisterWrite 0 3 .limit 0x80000010 .binding) base) (fun t => (t.cluster 0).range 3 == ⟨0, 16, false⟩),
      goesTo (exec (.resRegisterWrite 0 0 .base 0 .coreA) base) (fun t => (t.cluster 0).mem.cfgRefused),
      !base.testState && goesTo (exec (.flipRegisterWrite 0 .data 5 .coreA) base) (fun t => (t.cluster 0).mem.cfgRefused),
      goesTo (exec (.flipRegisterWrite 0 .ctrl 0xFFFFFFFF .binding) base) (fun t =>
        (t.cluster 0).flip.arm && (t.cluster 0).flip.word == 3 && (t.cluster 0).flip.bank == 1023)]) = true := by
  decide +kernel

theorem test_zeroing_ends :
    checks ([goesTo (exec (.zeroingComplete 0) (base.modCluster 0 (fun x => { x with zeroBusy := true, zeroUntil := 4096 }))) (fun t =>
        !t.zeroBusy 0 && t.clock.fab == 4096),
      goesTo (exec (.zeroingComplete 7) { base with boot := { base.boot with memZeroing := true, step := 7, memZeroUntil := 9 } })
        (fun t => !t.boot.memZeroing && t.boot.step == 8)]) = true := by
  decide +kernel

theorem test_pairs_and_counters :
    checks (let s := base.modUep 23 7 (fun x => { x with committed := BitVec.ofNat 64 (2 ^ 32 + 5) })
     [LoReg.wf (.committed 23 7) && RcReg.wf (.memCe 0),
      goesTo (exec (.loRegisterRead (.committed 23 7) false) s) (fun t => t.out == [.value 5]
        && goesTo (exec (.loRegisterRead (.committed 23 7) true) t) (fun u => u.out == [.value 5, .value 1])),
      goesTo (exec (.rcCounterRead (.memCe 0) true) (base.modCluster 0 (fun x => { x with mem := { x.mem with ceEvents := 65535 } })))
        (fun t => t.out == [.value 65535] && (t.cluster 0).mem.ceEvents == 1)]) = true := by
  decide +kernel

theorem test_flag_register_writes :
    checks ([goesTo (exec (.registerWrite (.mxFlags 0) 5 1 .binding) (base.modCluster 0 (fun x => { x with flags := { x.flags with mx := 15 } })))
        (fun t => (t.cluster 0).flags.mx == 11),
      goesTo (exec (.registerWrite (.portReg 255 0xFFF) 1 0 .coreA) base) (· == base),
      goesTo (exec (.registerWrite (.clusterWord 0 0x1021) 1 0 .coreA) base) (· == base)]) = true := by
  decide +kernel

theorem test_staged_accesses :
    checks (let s := circOn.modCluster 0 (fun x => { x with staged := [⟨.landing, .addr 5, [⟨7, false⟩], 0, none⟩] })
     let u := circOn.modCluster 0 (fun x => { x with circ := [(1, { Circ.reset with sizeLog2 := 6, en := true })], staged := [⟨.landing, .circ 1, [⟨7, false⟩], 0, none⟩] })
     [!s.zeroBusy 0 && pickStaged ((s.settle 0).cluster 0) (s.settle 0).clock.fab ((s.settle 0).heldCluster 0) false == some (⟨.landing, .addr 5, [⟨7, false⟩], 0, none⟩, 0),
      goesTo (exec (.unscheduledAccess 0) s) (fun t => t.peekWord 0 5 == ⟨7, false⟩ && (t.cluster 0).staged.isEmpty),
      (pickStaged ((u.settle 0).cluster 0) (u.settle 0).clock.fab ((u.settle 0).heldCluster 0) true).isSome,
      goesTo (exec (.circWaitPass 0) u) (fun t => ((t.cluster 0).region 1).head == 4 && t.peekWord 0 0 == ⟨7, false⟩)]) = true := by
  decide +kernel

theorem test_cycles_count :
    checks ([(base.advance 7).clock.fab == 7 && ((base.advance 7).part 0).partCycle == 107,
      ((stopped.advance 7).part 0).partCycle == 100]) = true := by
  decide +kernel

/-- Sync object 16383, of cluster 4095. -/
def syncOf (x : SyncObj) : State := base.modSync 16383 (fun _ => x)

theorem test_sync_arrivals :
    checks (let x : SyncObj := { SyncObj.reset with en := true, expect := 2, pending := 1 }
     [goesTo (exec (.syncArrival 16383 5 0) (syncOf { x with pending := 0 })) (fun t => (t.sync 16383).pending == 1),
      goesTo (exec (.syncArrival 16383 5 0) (syncOf x)) (fun t => (t.sync 16383).due == [(104, .peer)] && (t.sync 16383).pending == 0),
      goesTo (exec (.syncArrival 16383 3 0) (syncOf x)) (fun t => (t.sync 16383).due == [(104, .weights)]),
      goesTo (exec (.syncArrival 16383 5 0) (syncOf { x with scope := true })) (fun t => (t.sync 16383).owed == some 100),
      goesTo (exec (.syncArrival 16383 5 0) (syncOf { x with pending := 15 })) (fun t => (t.cluster 4095).seq.cause == 0x0E),
      goesTo (exec (.syncArrival 16383 5 0) (syncOf { x with en := false })) (fun t => (t.cluster 4095).seq.cause == 0x13),
      evenParity 0 && !evenParity 4 && (base.ownerOf 4095).isSome,
      goesTo (exec (.syncArrival 16383 5 4) (syncOf x)) (fun t => (t.cluster 4095).seq.cause == 0x10 && t.sync 16383 == x)]) = true := by
  decide +kernel

theorem test_spine_releases :
    checks (let s := syncOf { SyncObj.reset with en := true, due := [(120, .peer)], phase := 255 }
     let u := syncOf { SyncObj.reset with en := true, scope := true, group := 255, owed := some 90 }
     let w := (base.modGroup 255 (fun y => { y with torus := true })).modColl 255 (fun y => { y with release := some 3 })
     [s.live 4095 && goesTo (exec (.localReleaseDelivered 16383) s) (fun t => (t.sync 16383).phase == 0 && t.partCycleOf 0 == 120),
      goesTo (exec (.spineGroupArrival 16383) u) (fun t => (t.group 255).arrived == 1 && (t.group 255).lastArr == 90),
      w.groupOwner 255 == some 0,
      goesTo (exec (.torusReleaseAtRoot 255) w) (fun t => (t.group 255).torusAt == some (100, 3))]) = true := by
  decide +kernel

theorem test_group_release :
    checks (let s := (base.modGroup 1 (fun y => { y with members := 2, arrived := 2, lastArr := 90, align := 4 })).modSync 3 (fun x =>
       { x with en := true, scope := true, group := 1, spineWait := true })
     [s.moving 0 && (s.memberObjects 1) == [3] && (s.group 1).releaseAt == some 144,
      goesTo (exec (.spineReleaseDelivered 1) s) (fun t => (t.group 1).arrived == 0 && (t.sync 3).phase == 1 && !(t.sync 3).spineWait)]) = true := by
  decide +kernel

theorem test_fabric_control :
    checks (let s := { base with fabric := { base.fabric with stretchNext := 4 } }
     [goesTo (exec .stretchChange s) (fun t => t.fabric.stretch == 4 && t.clock.fab == 256),
      base.fabricOpen .coreA (base.ownerOf 4095) && base.fabricOpen .coreA (base.groupOwner 255),
      goesTo (exec (.fabricControlWrite (0x840000 + 4 * 16383) 0x2C01 .coreA) base) (fun t => (t.sync 16383).expect == 11),
      goesTo (exec (.fabricControlWrite (0x850000 + 4 * 255) 0x44018 .coreA) base) (fun t => (t.group 255).align == 8),
      goesTo (exec (.fabricControlWrite 0x850400 1 .coreA) base) (· == base),
      !{ base with pmap := Pmap.empty }.fabricOpen .coreA ({ base with pmap := Pmap.empty }.ownerOf 4095)]) = true := by
  decide +kernel

/-! The mesh (chapter 5). -/

/-- Entry of table t of cluster c at slot 0 (R170). -/
def withEntry (s : State) (c t slot e : Nat) : State :=
  { s with fabric := { s.fabric with tables := mapSet wordD s.fabric.tables (tableKey c t slot) (BitVec.ofNat 32 e) } }

/-- A region of 2^log2 words at 0 with n words waiting. -/
def region (log2 n : Nat) (en : Bool) : Circ := { Circ.reset with sizeLog2 := log2, en := en, head := BitVec.ofNat 24 n }

/-- Cluster 0 with region 1 enabled and n words waiting in it. -/
def waitingWords (n : Nat) (en : Bool) : State :=
  (runs base).modCluster 0 (fun x => { x with circ := [(1, region 8 n en)] })

/-- Output E of cluster 0 sends region 1 in slot 120. -/
def departing (n : Nat) (en : Bool) : State := withEntry (waitingWords n en) 0 1 120 (5 + 8 * 1)

/-- No slot before the one 20 cycles ahead holds a departure. -/
def departsAt (s : State) (i : Nat) : Bool :=
  decide (7 ≤ i) && outSrc (s.entry 0 1 (((s.part 0).partCycle + i) % 256)) == 5 && outClass (s.entry 0 1 (((s.part 0).partCycle + i) % 256)) == 0

theorem test_scheduled_departures :
    checks (let s := departing 64 true
     [s.linkClass 0 1 == .home 0, s.moving 0, departsAt s 20, (List.range 20).all (fun j => !departsAt s j),
      evenParity (s.upsetEntry 0 1 120 0), !evenParity (s.upsetEntry 0 1 120 1), neighbour 0 1 == some 1,
      goesTo (exec (.scheduledDeparture 0 1 0 none) s) (fun t =>
        ((t.cluster 0).region 1).tail == 64 && t.fabric.flits.map (fun x => (x.c, x.d, x.pcyc, x.slot)) == [(1, 3, 122, 120)]),
      goesTo (exec (.scheduledDeparture 0 1 0 (some 15)) s) (fun t => (t.cluster 0).seq.cause == 8 && (t.cluster 0).mem.conflict),
      goesTo (exec (.scheduledDeparture 0 1 0 none) (departing 63 true)) (fun t => t.fabric.flits.isEmpty && t.partCycleOf 0 == 113),
      goesTo (exec (.scheduledDeparture 0 1 0 none) (departing 64 false)) (fun t => (t.cluster 0).seq.cause == 0x14),
      goesTo (exec (.scheduledDeparture 0 1 1 none) s) (fun t => (t.cluster 0).seq.cause == 0x10)]) = true := by
  decide +kernel

/-- A scheduled flit that meets input W of cluster 1 in compiled cycle 122. -/
def someFlit : Flit :=
  { part := 0, c := 1, d := 3, pcyc := 122, fcyc := 22, slot := 120, parked := false, mask := 0xFFFF,
    words := List.replicate 64 (fp 7), cargo := .plain }
def withFlit (s : State) : State := { s with fabric := { s.fabric with flits := [someFlit] } }

/-- Cluster 1 forwards it to output E, lands it in region 2, or neither. -/
def forwarding : State := withEntry (withFlit base) 1 1 124 4
def landing (en : Bool) : State :=
  (withEntry (withFlit base) 1 4 122 (2 ^ 15 * 5)).modCluster 1 (fun x => { x with circ := [(2, region 8 0 en)] })

theorem test_scheduled_flits :
    checks [forwarding.fabric.nextFlit 1 3 == some someFlit, forwarding.selecting someFlit == [1],
      goesTo (exec (.scheduledFlitArrival 1 3 0) forwarding) (fun t => t.fabric.flits.map (fun x => (x.c, x.pcyc, x.fcyc)) == [(2, 126, 26)]),
      (landing true).selecting someFlit == [4],
      goesTo (exec (.scheduledFlitArrival 1 3 0) (landing true)) (fun t => t.fabric.landings.map (fun l => (l.circ, l.fcyc)) == [(2, 23)]),
      (withFlit base).selecting someFlit == [],
      goesTo (exec (.scheduledFlitArrival 1 3 0) (withFlit base)) (fun t => (t.cluster 1).seq.cause == 0x0D)] = true := by
  decide +kernel

/-- A landing in region 2 of cluster 1 with room for all of it or not. -/
def landingNow (log2 : Nat) (en running : Bool) : State :=
  { ((base.modPart 0 (fun q => { q with running := running })).modCluster 1 (fun x => { x with circ := [(2, region log2 0 en)] })) with
    fabric := { Fabric.reset with landings := [⟨0, 1, 3, 2, 25, List.replicate 64 ⟨7, false⟩⟩] } }

theorem test_scheduled_landings :
    checks [goesTo (exec (.scheduledLanding 1 3 [] none) (landingNow 6 true true)) (fun t =>
        t.peekWord 1 63 == ⟨7, false⟩ && ((t.cluster 1).region 2).head == 64),
      goesTo (exec (.scheduledLanding 1 3 [] none) (landingNow 5 true true)) (fun t => (t.cluster 1).seq.cause == 9),
      goesTo (exec (.scheduledLanding 1 3 [] none) (landingNow 6 false true)) (fun t => (t.cluster 1).seq.cause == 0x14),
      goesTo (exec (.scheduledLanding 1 3 [] none) (landingNow 5 true false)) (fun t => t.fabric.landings.isEmpty && (t.cluster 1).seq.cause == 0),
      goesTo (exec (.scheduledLanding 1 3 [] (some 0)) (landingNow 6 true true)) (fun t => (t.cluster 1).seq.cause == 8),
      goesTo (exec (.scheduledLanding 1 3 [] none) ((landingNow 6 true true).modCluster 1 (fun x => { x with zeroBusy := true, zeroUntil := 4096 })))
        (fun t => t.cmem.isEmpty && t.fabric.landings.isEmpty)]
      = true := by
  decide +kernel

/-- An elastic flit waits at input W of cluster 1 for output E in slot 120, or for the landing of slot 120. -/
def elastic (t : Nat) (e : Nat) : State :=
  let s := withEntry base 1 t 120 e
  { s with fabric := { s.fabric with queues := [(queueKey 1 3 0, [{ someFlit with fcyc := 0 }])], credits := [(queueKey 1 3 0, 1)] } }

theorem test_elastic_sends :
    checks (let s := elastic 1 (4 + 64)
     [!s.isLost 1 1, (s.canSend 1 1 (s.linkClass 1 1) 20).isSome, (List.range 20).all (fun i => (s.canSend 1 1 (s.linkClass 1 1) i).isNone),
      (s.elasticQ 1 3 0).length == 1, s.creditOf (queueKey 2 3 0) == 2,
      goesTo (exec (.elasticFlitSend 1 1 0 []) s) (fun t => (t.elasticQ 2 3 0).map (fun x => (x.c, x.fcyc)) == [(2, 23)]
        && t.elasticQ 1 3 0 == [] && t.creditOf (queueKey 2 3 0) == 1 && t.fabric.creditsDue == [(queueKey 1 3 0, 24)]),
      goesTo (exec (.elasticFlitSend 1 1 1 []) s) (fun t => (t.cluster 1).seq.cause == 0x10 && t.elasticQ 2 3 0 == []),
      (let u := { s with fabric := { s.fabric with lost := [(s.physSlot 1 * 4 + 1, s.farMark 1 1)] } }
       u.isLost 1 1 && goesTo (exec (.elasticFlitSend 1 1 0 []) u) (· == u))]) = true := by
  decide +kernel

theorem test_elastic_credits_and_landings :
    checks (let s := base
     let due (edges : SMap (List Flit)) : State := { s with fabric := { s.fabric with edges := edges, creditsDue := [(queueKey 0 3 0, 24)], credits := [(queueKey 0 3 0, 1)] } }
     let u := (elastic 4 (2 ^ 15 * (1 + 2 * 2 + 16))).modCluster 1 (fun x => { x with circ := [(2, region 8 0 true)] })
     [goesTo (exec (.elasticCreditReturn 0 3 0) (due [])) (fun t => t.creditOf (queueKey 0 3 0) == 2 && t.clock.fab == 24),
      goesTo (exec (.elasticCreditReturn 0 3 0) (due [(queueKey 0 3 0, [someFlit])])) (fun t =>
        t.creditOf (queueKey 0 3 0) == 1 && (t.elasticQ 0 3 0).map Flit.fcyc == [27]),
      (u.canLand 1 3 (u.inClass 1 3) 20).isSome, (List.range 20).all (fun i => (u.canLand 1 3 (u.inClass 1 3) i).isNone),
      goesTo (exec (.elasticLanding 1 3 [] 0) u) (fun t => t.elasticQ 1 3 0 == [] &&
        (t.cluster 1).staged.map (fun g => (g.dest, g.words.length)) == [(.circ 2, 64)])]) = true := by
  decide +kernel

/-- A request of context 1 of cluster 0, asked over the west edge link of the cluster, whose last words cross that link in slot 120, and its
read data, which a landing entry of slot 120 takes to the context. -/
def askedReq : CtxReq :=
  { idx := 0, ord := 0, op := 1, storeAddr := 3 * 2 ^ 21, dest := .addr 0, len := 64, answered := false, staged := false, denied := 0,
    data := [], got := [] }
def crossing (t e : Nat) (cargo : Cargo) : State :=
  let x := { someFlit with c := 0, d := 3, fcyc := 0, mask := 1, cargo := cargo }
  let s := (withEntry base 0 t 120 e).modCtx 0 1 (fun y => { y with state := 2, reqs := [askedReq] })
  if t = 4 then { s with fabric := { s.fabric with queues := [(queueKey 0 3 0, [x])] } }
  else { s with fabric := { s.fabric with departs := [(1, [{ x with d := 0 }])] } }

theorem test_elastic_requests_and_answers :
    checks (let s := crossing 3 (5 + 8 + 64) (.toStore 1 0 true)
     let u := crossing 4 (2 ^ 15 * (1 + 2 * 2 + 16)) (.toCtx 1 0 true)
     [neighbour 0 3 == none, (s.canSend 0 3 (s.linkClass 0 3) 20).isSome, (u.canLand 0 3 (u.inClass 0 3) 20).isSome,
      goesTo (exec (.elasticFlitSend 0 3 0 []) s) (fun t => t.store.reqs.map (fun r => (r.who, r.data.length, r.link)) == [(.context 0 1 0, 4, 255)]),
      goesTo (exec (.elasticLanding 0 3 [] 0) u) (fun t => (t.ctx 0 1).reqs.map (fun r => (r.answered, r.data.length)) == [(true, 4)])]) = true := by
  decide +kernel

/-- A committed retirement record of an element whose spare is not yet in effect. -/
def recOf (e : Nat) : RetRec := ⟨0, e, 0, 0, 1, 0, 0, 0, true⟩

theorem test_lanes_links_remap :
    checks (let e := laneElementOf 4223 3 2559
     let s := { base with faults := { base.faults with recs := [recOf e] } }
     let u := { base with pmap := { Pmap.single with bandOwner := List.replicate 7 0 ++ [1] } }
     [u.linkOwners (u.inClass 3584 0) == [], goesTo (exec (.linkLost 3584 0) u) (fun t => t.isLost 3520 2 && t.faults.seq == 1),
      (s.pendingRec e).isSome,
      goesTo (exec (.laneMapUpdate 4223 3 15 2559) s) (fun t => mapGet laneD t.fabric.lanes ((4223 * 4 + 3) * 16 + 15) == ⟨2559, true⟩
        && t.faults.recs.map RetRec.state == [1]),
      stopped.rowStopped 63, goesTo (exec (.remapSwitch 63 0 65 true false) stopped) (fun t => t.rowGuard 63 == ⟨0, 65, true, false⟩),
      !base.rowStopped 63, goesTo (exec (.remapSwitch 63 0 65 true false) base) (fun t => t.rowGuard 63 == RowGuard.reset)]) = true := by
  decide +kernel

/-! The store, the stream contexts and the update engines (chapters 7 and 8). -/

/-- A request of local context 1 of cluster 0 for 64 bytes of page 3 of stack 0, pseudo-channel 2. -/
def someReq (op : StoreOp) (st : ReqStatus) : StoreReq :=
  { stack := 0, pch := 2, part := 0, who := .context 0 1 0, op := op, addr := 3 * 2 ^ 21 + 2 * 512, len := 64,
    data := if op == .read then [] else List.replicate 16 ⟨0x40000000, false⟩, status := st, age := 4, prio := 0, refused := false,
    page := none, link := 255, at_ := 0 }

/-- Stack 0 in service with its page 3 of a kind, and requests. -/
def withReqs (kind : Nat) (rs : List StoreReq) : State :=
  { base with store := { base.store with
      stackTab := [(0, { Stack.reset with trained := true })], pages := [(3, { Page.reset with kind := kind })], reqs := rs } }

theorem test_request_contexts :
    checks (let s := withReqs 0 [someReq .read .arrived, someReq .read .queued]
     [s.ctxHeld 0 0 == 1, s.pmap.ctxQuota.getD 0 0 == 63,
      goesTo (exec (.storeRequestArrival 0 0) s) (fun t => t.store.reqs.map (fun r => (r.status == .arrived, r.age)) == [(true, 4), (true, 0)]),
      goesTo (exec (.storeRequestArrival 0 0) (withReqs 0 [{ someReq .read .arrived with who := .management }, { someReq .read .queued with who := .management }]))
        (fun t => t.store.reqs.map StoreReq.status == [.arrived, .queued])]) = true := by
  decide +kernel

theorem test_store_rounds :
    checks (let a := { someReq .read .arrived with age := 32, who := .context 0 2 0 }
     let s := (withReqs 0 [someReq .read .arrived, a, someReq .read .arrived]).modCtx 0 1 (fun x => { x with prio := 3 })
     [s.power.selfRefresh == false, slotOwner s.pmap.storeShare 0 == some 0, s.winner 0 0 2 == some 1, s.effPrio a == 7,
      s.winner 0 0 63 == none, slotOwner Pmap.empty.storeShare 255 == none,
      goesTo (exec (.storeRoundGrant 0 2) s) (fun t => t.store.reqs.map (fun r => (r.status == .granted, r.age)) == [(false, 5), (true, 32), (false, 5)]
        && t.round 0 2 == 1),
      goesTo (exec (.storeRoundGrant 0 63) s) (fun t => t.store.reqs == s.store.reqs && t.round 0 63 == 1)]) = true := by
  decide +kernel

theorem test_store_accesses :
    checks [(withReqs 0 []).serves (someReq .write .arrived), !(withReqs 4 []).serves (someReq .write .arrived),
      (withReqs 0 []).serves (someReq .read .arrived),
      ((withReqs 3 []).modUep 0 0 (fun x => { x with acc := [(0, ⟨1, 1, 0, 0, 1, 0⟩)] })).serves (someReq .reduce .arrived),
      goesTo (exec (.storeRoundGrant 0 2) (withReqs 0 [someReq .write .arrived])) (fun t =>
        t.getBlocks 0 3 16 1 == List.replicate 16 ⟨0x40000000, false⟩ && t.store.reqs.map StoreReq.status == [.granted]),
      goesTo (exec (.storeRoundGrant 0 2) (withReqs 4 [someReq .write .arrived])) (fun t =>
        (t.stack 0).refused && t.store.reqs.map StoreReq.refused == [true] && t.smem.isEmpty)] = true := by
  decide +kernel

theorem test_store_retry_and_blocks :
    checks (let ws := (List.range 16).map (fun i => (⟨BitVec.ofNat 32 i, false⟩ : PWord))
     [goesTo (exec (.storeReadRetry 0 2) (withReqs 0 [someReq .read .retry])) (fun t =>
        t.store.reqs.map (fun r => (r.status == .granted, r.data.length)) == [(true, 16)]),
      deliverBlock ((base.putBlock 23 24703 32767 ws).storeBlock 23 24703 32767) == ws,
      deliverBlock ((base.putBlock 23 24703 32767 (ws.set 3 ⟨0, true⟩)).storeBlock 23 24703 32767) == poisonBlock]) = true := by
  decide +kernel

theorem test_store_completion :
    checks (let s := (withReqs 0 [{ someReq .read .granted with data := List.replicate 16 ⟨0x40000000, false⟩ }]).modCtx 0 1 (fun x =>
       { x with reqs := [{ askedReq with op := 0 }] })
     [goesTo (exec (.storeBurstComplete 0 2) s) (fun t => t.store.reqs.isEmpty
        && (t.elasticQ 0 3 0).map (fun f => (f.cargo, f.words.length)) == [(.toCtx 1 0 true, 16)]),
      goesTo (exec (.storeBurstComplete 0 2) (s.modPart 0 (fun q => { q with running := false }))) (fun t =>
        (t.ctx 0 1).reqs.map CtxReq.answered == [true]),
      goesTo (exec (.partPrioWrite 7 0x00001FFF .coreA) base) (fun t =>
        mapFind t.store.prioNext (8 * 23 + 7) == some ⟨7, 7, 7, 7, 1⟩ && (t.prioArrives 23).prio 23 7 == ⟨7, 7, 7, 7, 1⟩),
      goesTo (exec (.partPrioWrite 7 0x00000FFF .coreA) base) (· == base)]) = true := by
  decide +kernel

/-- Context 1 of cluster 0 waits for the trigger of its descriptor 0, which loads, stores, reduces or sends 128 bytes. -/
def streamDescWords (op trig : Nat) : List Nat :=
  [op + 16 * trig + 2 ^ 13 * 5 + 2 ^ 16 * 63, 0, 3 * 2 ^ 21, 0, 0x40, 512, 0, 0, 1, 0, 70, 0, 0, 0, 0, 0]
def withStream (ws : List Nat) (f : Ctx → Ctx) : State :=
  (ws.zipIdx.foldl (fun t wi => t.putByteCoded 0 (ctxBase 1 + 16 + wi.2) (BitVec.ofNat 32 wi.1)) (runs base)).modCtx 0 1
    (fun x => f { x with state := 1 })

theorem test_stream_start :
    checks (let s := withStream (streamDescWords 0 1) (fun x => { x with pendStart := 1 })
     let d : SDesc := ⟨0, streamDescWords 0 1⟩
     [s.live 0, !s.heldCluster 0, s.streamDesc 0 1 0 == some d, s.triggered 0 1 d, s.haltCause 0 d == none, d.requests == 1,
      goesTo (exec (.streamLoad 0 1) s) (fun t => (t.ctx 0 1).state == 2 && (t.ctx 0 1).pendStart == 0 && (t.ctx 0 1).prio == 5),
      [1, 2].all (fun op => (withStream (streamDescWords op 0) id).haltCause 0 ⟨0, streamDescWords op 0⟩ == none),
      (withStream (streamDescWords 3 0) id).haltCause 0 ⟨0, streamDescWords 3 0⟩ == some 6,
      goesTo (exec (.streamSend 0 1) (withStream (streamDescWords 3 0) id)) (fun t => (t.ctx 0 1).haltCause == 6 && (t.cluster 0).seq.cause == 6),
      { withStream (streamDescWords 0 0) id with qmem := [(cellBase 0 (ctxBase 1 + 16), 3)] }.streamDesc 0 1 0 == none]) = true := by
  decide +kernel

theorem test_stream_requests_cover_rows :
    checks (let d : SDesc := ⟨0, [0, 0, 3 * 2 ^ 21 + 64, 0, 0x40, 1024, 4096, 0, 2, 0, 0, 0, 0, 0, 0, 0]⟩
     [d.length == 1024, d.requests == 6,
      (List.range 6).map d.request == [(0, 0, 448), (0, 448, 512), (0, 960, 64), (1, 0, 448), (1, 448, 512), (1, 960, 64)]]) = true := by
  decide +kernel

theorem test_stream_requests :
    checks (let act (op : Nat) := withStream (streamDescWords op 0) (fun x => { x with state := 2, descs := [⟨0, 0, op, false, 1, 0, 0⟩] })
     [(act 0).live 0, ((act 0).ctx 0 1).outstanding == 0, (act 0).streamDesc 0 1 0 == some ⟨0, streamDescWords 0 0⟩,
      goesTo (exec (.streamRequestIssue 0 1) (act 0)) (fun t => (t.departQ 0 1).map (fun f => (f.mask, f.words.length)) == [(0, 0)]
        && (t.ctx 0 1).reqs.map (fun r => (r.storeAddr, r.len)) == [(3 * 2 ^ 21, 512)]),
      goesTo (exec (.streamRequestIssue 0 1) (act 1)) (fun t => (t.departQ 0 1).map (fun f => f.words.length) == [64, 64]
        && (t.departQ 0 1).map Flit.cargo == [.toStore 1 0 false, .toStore 1 0 true]),
      goesTo (exec (.streamRequestIssue 0 1) (act 2)) (fun t => (t.ctx 0 1).reqs.map CtxReq.op == [2] && (t.ctx 0 1).state == 1),
      (let full := (act 0).modCtx 0 1 (fun x => { x with reqs := List.replicate 32 askedReq })
       decide (32 ≤ (full.ctx 0 1).outstanding) && goesTo (exec (.streamRequestIssue 0 1) full) (· == full)),
      (let busy := (act 1).modCluster 0 (fun x => { x with zeroBusy := true, zeroUntil := 9 })
       goesTo (exec (.streamRequestIssue 0 1) busy) (· == busy))]) = true := by
  decide +kernel

theorem test_stream_responses :
    checks (let q : CtxReq := { askedReq with op := 0, dest := .addr 64, answered := true, data := List.replicate 16 ⟨0x40000000, false⟩ }
     let s (op denied : Nat) := withStream (streamDescWords op 0) (fun x =>
       { x with state := 2, descs := [⟨0, 0, op, false, 1, 1, 0⟩], reqs := [{ q with op := op, denied := denied }] })
     [!(s 0 0).heldCluster 0,
      goesTo (exec (.streamResponse 0 1) (s 0 3)) (fun t => (t.ctx 0 1).haltCause == 3),
      goesTo (exec (.streamResponse 0 1) (s 1 0)) (fun t => (t.ctx 0 1).descs.map CtxDesc.done == [1]),
      goesTo (exec (.streamResponse 0 1) (s 0 0)) (fun t => (t.cluster 0).staged.length == 1),
      goesTo (exec (.streamTimerExpiry 0 1) (withStream (streamDescWords 0 2) (fun x => { x with trigFrom := 95 }))) (fun t =>
        (t.ctx 0 1).timerDone && t.partCycleOf 0 == 165),
      goesTo (exec (.streamDescriptorComplete 0 1) (withStream (streamDescWords 0 0) (fun x => { x with descs := [⟨0, 0, 0, false, 1, 1, 1⟩] })))
        (fun t => (t.ctx 0 1).descs.isEmpty && (t.ctx 0 1).bytes == 512),
      goesTo (exec (.streamDrainComplete 0 1) (base.modCtx 0 1 (fun x => { x with state := 4, reqs := [q], pendSync := 2 })))
        (fun t => t.ctx 0 1 == { Ctx.reset with state := 0, pendSync := 2 })]) = true := by
  decide +kernel

/-- A REDUCE of context 1 granted on the REDUCE page 3 of stack 0. -/
def reducing (expect count : Nat) : State :=
  (withReqs 3 [someReq .reduce .granted]).modUep 0 0 (fun x => { x with state := 1, acc := [(0, ⟨1, 1, 0, 0, expect, count⟩)] })

theorem test_reduce_contributions :
    checks [(someReq .reduce .granted).contributes 0 2, !((reducing 1 0).uep 0 0).clearBusy, (reducing 1 0).reduceSlot 0 0 3 == 0,
      goesTo (exec (.reduceContribution 0 2 2) (reducing 1 0)) (fun t => ((t.uep 0 0).accAt 0).count == 1
        && mapGet boolD (t.uep 0 0).touched 2 && t.getBlocks 0 3 16 1 == List.replicate 16 ⟨0x40000000, false⟩),
      goesTo (exec (.reduceContribution 0 2 0) (reducing 1 1)) (fun t => (t.uep 0 0).cause == 1 && (t.stack 0).excessSeen),
      goesTo (exec (.reduceContribution 0 2 3) (reducing 1 0)) (fun t => (t.uep 0 0).cause == 4 && t.smem.isEmpty)] = true := by
  decide +kernel

/-- A shard of 128 elements whose planes start at page 4. -/
def someShard : Shard :=
  { rule := 0, firstMom := false, cc0Fmt := 15, cc1Fmt := 15, ccSr := false, ccMean := false, momSr := false, exportEn := false,
    exportMom := false, nEl := 128, nc := 1, wPlane := ⟨4, 0⟩, mPlane := ⟨4, 0⟩, sPlane := ⟨4, 0⟩, cc0Plane := ⟨4, 0⟩,
    cc1Plane := ⟨4, 0⟩, gPlane := ⟨6, 0⟩, mark := 0, markEn := false, b1 := 0, b2 := 0, eps := 0, lambda := 0, gscale := 0x3F800000,
    lrMult := 0 }

/-- The block of partition 0 in stack 0, in service, in an update-engine state. -/
def updating (f : Uep → Uep) : State :=
  { base.modUep 0 0 f with store := { Store.reset with stackTab := [(0, { Stack.reset with trained := true })] } }

theorem test_norm_partials :
    checks (let s (h : List Shard) := updating (fun x => { x with state := 2, shards := h })
     let bad := (s [someShard]).putBlock 0 6 0 (List.replicate 16 ⟨0, true⟩)
     let one := (s [someShard]).putBlock 0 6 0 ((List.range 16).map (fun i => ⟨if i = 3 then 0x40000000 else 0, false⟩))
     [((s []).uep 0 0).complete, (s []).moving 0, ((s []).stacksOf 0).contains 0,
      goesTo (exec (.normPartial 0 0 []) (s [])) (fun t => (t.uep 0 0).state == 3 && (t.group 0).arrived == 1),
      goesTo (exec (.normPartial 0 0 []) bad) (fun t => (t.uep 0 0).cause == 2),
      goesTo (exec (.normPartial 0 0 []) one) (fun t => (t.uep 0 0).state == 3 && mapGet wordD (t.group 0).payloads 0 == 0x40800000)]) = true := by
  decide +kernel

/-- The gate at its boundaries (R249): a NaN, an overflow, a root above SKIP_NORM, and one above CLIP_NORM alone. -/
theorem test_step_gate :
    checks (let q : Param := { Param.reset with skipNorm := 0x40400000, clipNorm := 0x40000000 }
     [(gateOf q 0x7FC00000 0).1.skip, (gateOf q 0x7F7FFFFF 0).1.skip, (gateOf q 0x41800000 0).1.skip, !(gateOf q 0x41100000 0).1.skip,
      (gateOf q 0x41100000 0).1.clip == 0x3F2AAAAB, (gateOf q 0x40800000 0).1.clip == 0x3F800000]) = true := by
  decide +kernel

theorem test_commit_arrivals :
    checks (let g (skip : Bool) : Gate := ⟨0x3F800000, skip, 0x3F800000, 0⟩
     let half : Half := ⟨3, [], true, false⟩
     [goesTo (exec (.commitArrival 0 0 []) (updating (fun x => { x with state := 4, gate := some (g false), halves := [half] })))
        (fun t => (t.uep 0 0).exportWait && (t.uep 0 0).state == 4),
      goesTo (exec (.commitArrival 0 0 []) (updating (fun x => { x with state := 4, gate := some (g false) })))
        (fun t => (t.uep 0 0).state == 5 && (t.group 0).arrived == 1 && (t.uep 0 0).segSeq == 1),
      goesTo (exec (.commitArrival 0 0 []) (updating (fun x => { x with state := 3, gate := some (g true) })))
        (fun t => (t.uep 0 0).state == 5 && (t.uep 0 0).segSeq == 2),
      goesTo (exec (.exportWaitEnd 0 0) (updating (fun x => { x with state := 4, gate := some (g false), exportWait := true })))
        (fun t => !(t.uep 0 0).exportWait)]) = true := by
  decide +kernel

theorem test_commit_and_step_end :
    checks (let g (skip : Bool) : Gate := ⟨5, skip, 6, 7⟩
     [goesTo (exec (.commit 0) (updating (fun x => { x with state := 6, gate := some (g false) }))) (fun t =>
        (t.uep 0 0).committed == 1 && (t.uep 0 0).applied == 1 && (t.uep 0 0).copySel && (t.uep 0 0).clip == 6),
      goesTo (exec (.commit 0) (updating (fun x => { x with state := 6, gate := some (g true) }))) (fun t =>
        (t.uep 0 0).committed == 1 && (t.uep 0 0).skipped == 1 && !(t.uep 0 0).copySel && (t.uep 0 0).clip == 0),
      (updating (fun x => { x with state := 6 })).allRecorded 0,
      goesTo (exec (.commitRecordWritten 0) (updating (fun x => { x with state := 6, touched := [(5, true)] }))) (fun t =>
        (t.uep 0 0).state == 2 && (t.uep 0 0).touched.isEmpty && (t.uep 0 0).clearBusy),
      goesTo (exec (.touchedClearDone 0) (updating (fun x => { x with clearBusy := true }))) (fun t => !(t.uep 0 0).clearBusy),
      goesTo (exec (.idleIntervalEnd 0) ({ base with torusTime := { base.torusTime with locked := true } }.modIdle 0 (fun i => { i with running := true, interval := 1000000000 }))) (fun t =>
        (t.idle 0).snap == (t.idle 0).live && decide (1000000000 ≤ t.ttNs.toNat))]) = true := by
  decide +kernel

theorem test_doubtful_steps :
    checks (let s := updating (fun x => { x with state := 7, gate := some ⟨5, false, 6, 7⟩, poisonOverflow := true, poisonBlocks := [1] })
     [s.inDoubt 0, !base.inDoubt 0, goesTo (exec (.rollForward 0 .a) base) (· == base),
      goesTo (exec (.rollForward 0 .a) s) (fun t => (t.uep 0 0).committed == 1 && (t.uep 0 0).state == 0),
      goesTo (exec (.rollBack 0 .a) s) (fun t => (t.uep 0 0).committed == 0 && (t.uep 0 0).state == 0),
      goesTo (exec (.clearStartBlocked 0 .a) s) (fun t => (t.uep 0 0).poisonBlocks.isEmpty)]) = true := by
  decide +kernel

/-- Premises of BridgeSlots; a request whose stack lies at the neighbour edge takes one slot, and one at its own edge none (R194, R209). The
system page's first word of a fresh partition, read by management (R200). -/
theorem test_bridges :
    checks (let r := { someReq .read .queued with at_ := 1 }
     let m := { someReq .read .arrived with who := .management, addr := 0 }
     [(base.bridgeSlot 0 0).map (fun u => mapGet (natD 0) u.store.bridges 0) == some 1, base.cross 0 1 1 == some base, base.cross 0 3 1 != none,
      (base.cross 0 1 0).map (fun u => u.store.bridges == []) == some false,
      goesTo (exec (.storeRequestArrival 0 0) (withReqs 0 [r])) (fun t => t.store.reqs == [{ r with status := .arrived, age := 0, at_ := 0 }]
        && t.store.bridges != []),
      (withReqs 0 [m]).serves m, goesTo (exec (.storeRoundGrant 0 2) (withReqs 0 [m])) (fun t =>
        t.store.reqs.map (fun x => (x.status == .granted, x.data.length)) == [(true, 16)])]) = true := by
  decide +kernel

/-! The optical ports and the torus (chapter 10). -/

/-- Port 0 in a state, its flow 1 admitting requests to the store. -/
def withPort (f : Port → Port) : State := base.modPort 0 (fun x => f { x with state := 3, keyed := true, runMatch := true, flows := [(1, 3)] })
def up : State := withPort id
def clean : RxCheck := ⟨none, true⟩
def frame (ty len seq : Nat) (pl : Payload) : Frame := { mkFrame ty len 1 5 2 0 (3 * 2 ^ 21) pl with seq := seq }

theorem test_frame_screening :
    checks (let f := frame 1 64 9 .empty
     [wellFormed (.rdReq 0 f clean), goesTo (exec (.rdReq 0 f clean) base) (· == base),
      goesTo (exec (.rdReq 0 f clean) (withPort (fun x => { x with gapAt := some 0 }))) (· == withPort (fun x => { x with gapAt := some 0 })),
      goesTo (exec (.rdReq 0 f clean) up) (fun t => (t.port 0).gapAt == some 0 && t.out.length == 1 && (t.port 0).rxSeq == 0),
      goesTo (exec (.rdReq 0 f ⟨some 3, true⟩) up) (fun t => (t.port 0).cwUncorr == 1 && t.out.length == 1 && t.store.reqs.isEmpty),
      goesTo (exec (.wr 0 f ⟨none, false⟩) up) (fun t => (t.port 0).authFail == 1 && t.store.reqs.isEmpty)]) = true := by
  decide +kernel

theorem test_request_frames :
    checks (let ws : Payload := .words (List.replicate 16 ⟨7, false⟩)
     [up.requestStatus 0 (frame 3 64 0 ws) == 0, (up.requestStatus 0 (frame 5 64 0 ws)) == 1, !up.landingWaits 0,
      goesTo (exec (.rdReq 0 (frame 1 512 0 .empty) clean) up) (fun t =>
        t.store.reqs.map (fun r => (r.addr, r.len, r.who)) == [(3 * 2 ^ 21, 512, .peer 0 5 1)] && (t.port 0).rxSeq == 1),
      goesTo (exec (.wr 0 (frame 3 64 0 ws) clean) up) (fun t => t.store.reqs.map (fun r => r.data.length) == [16]),
      goesTo (exec (.red 0 (frame 4 64 0 ws) clean) up) (fun t => t.store.reqs.map StoreReq.op == [.reduce]),
      goesTo (exec (.sendFrame 0 (frame 5 64 0 ws) clean) up) (fun t => (t.port 0).sendQ.map (fun g => (g.ty, g.status)) == [(6, 1)] && (t.port 0).oweReq == 2)])
      = true := by
  decide +kernel

theorem test_response_frames :
    checks (let ws : Payload := .words (List.replicate 16 ⟨7, false⟩)
     let s := (withPort (fun x => { x with reqs := [⟨5, 1, 0⟩] })).modCtx 0 1 (fun x => { x with reqs := [{ askedReq with op := 0 }] })
     [attachCluster 0 == 65,
      goesTo (exec (.rdData 0 (frame 2 64 0 ws) clean) s) (fun t => (t.departQ 65 1).map (fun x => (x.cargo, x.words.length)) == [(.toCtx 1 0 true, 16)]
        && (t.port 0).oweRsp == 2),
      goesTo (exec (.rdData 0 (frame 2 64 0 ws) clean) (s.modPart 0 (fun q => { q with running := false }))) (fun t =>
        (t.ctx 0 1).reqs.map (fun r => (r.answered, r.data.length)) == [(true, 16)] && (t.port 0).oweRsp == 2),
      goesTo (exec (.resp 0 { frame 6 0 0 .empty with status := 1 } clean) s) (fun t => (t.ctx 0 1).reqs.map CtxReq.denied == [7]),
      goesTo (exec (.commitFrame 0 (frame 0x11 64 0 (.commit 8 7 0 0 0)) clean) up) (fun t => (t.port 0).peerCommitted == 8 && (t.port 0).peerCommitValid),
      goesTo (exec (.stage 0 (frame 0x10 64 0 (.stage [])) clean) (withPort (fun x => { x with runMatch := false }))) (fun t => (t.port 0).oweRsp == 2),
      up.portOwner 0 == some 0,
      goesTo (exec (.stage 0 (frame 0x10 64 0 (.stage [⟨true, 3, 0, 2, 0, 7⟩])) clean) up) (fun t => (t.coll 3).entries.length == 1)]) = true := by
  decide +kernel

theorem test_sending_and_replay :
    checks (let f := frame 3 64 0 .empty
     let s := withPort (fun x => { x with sendQ := [f], txSeq := 7 })
     let r := withPort (fun x => { x with replay := [({ f with seq := 4 }, 4)], ackAt := 3 })
     [(s.port 0).nextFrame == some (f, 0),
      goesTo (exec (.frameSend 0) s) (fun t => (t.port 0).txSeq == 8 && (t.port 0).creditReq == 12286 && (t.port 0).replay.map (fun q => q.1.seq) == [7]
        && t.out.length == 1),
      (withPort (fun x => { x with oweReq := 5, creditReq := 0, sendQ := [f] }) |> fun u => (u.port 0).readyFrame == none
        && goesTo (exec (.frameSend 0) u) (fun t => (t.port 0).oweReq == 0 && (t.port 0).sendQ == [f] && t.out.length == 1)),
      goesTo (exec (.frameSend 0) up) (· == up),
      goesTo (exec (.ack 0 { frame 0x20 0 0 .empty with ack := 5 } clean) r) (fun t => (t.port 0).replay.isEmpty),
      goesTo (exec (.nak 0 { frame 0x21 0 0 .empty with ack := 4 } clean) r) (fun t => (t.port 0).replay.map Prod.snd == [5] && t.out.length == 1),
      goesTo (exec (.replayTimeout 0) r) (fun t => (t.port 0).replay.map Prod.snd == [5] && 2423 ≤ t.localNs),
      goesTo (exec (.nakRepeat 0) (withPort (fun x => { x with gapAt := some 5 }))) (fun t => 1005 ≤ t.localNs && t.out.length == 1),
      goesTo (exec (.timeSend 0) up) (fun t => (t.port 0).timeSent == some 0 && t.out.length == 1)]) = true := by
  decide +kernel

/-- A HELLO that port 0 accepts in slot 0 of torus 9: its partner is X+. -/
def helloOf (valid : Bool) : Hello := ⟨5, valid, 2, 9, 1, 0, 0, 6, 77, [], []⟩
def shaking (f : Port → Port) : State :=
  ((base.setSetting 0x3800 1 9).modOwner 0 (fun o => { o with runId := 6 })).modPort 0 (fun x => f { x with state := 2 })

def larger (f : Port → Port) : State := { shaking f with trust := { (shaking f).trust with identity := 9 } }
def fin (opens : Bool) (cipher : Option (List Byte)) : Frame := mkFrame 0x30 0 0 0 0 0 0 (.finish opens cipher)

theorem test_sessions :
    checks (let hello (v : Bool) : Frame := mkFrame 0x30 0 0 0 0 0 0 (.hello (helloOf v))
     let kept (f : Port → Port) := base.modPort 0 (fun x => f { x with state := 4, keyed := true, localEpoch := 3, partnerEpoch := 2, rxSeq := 8 })
     [(shaking id).refuseCode 0 (helloOf true) == 0, (shaking id).refuseCode 0 (helloOf false) == 1,
      goesTo (exec (.sessionHello 0 (hello false)) (shaking id)) (fun t => (t.port 0).state == 6 && (t.port 0).refuse == 1),
      !(shaking id).encapsulates (helloOf true) && (larger id).encapsulates (helloOf true),
      goesTo (exec (.sessionHello 0 (hello true)) (shaking id)) (fun t => !(t.port 0).keyed && (t.port 0).partner == some (helloOf true) && t.out.isEmpty),
      goesTo (exec (.sessionHello 0 (hello true)) (larger id)) (fun t => (t.port 0).keyed && t.out.length == 1),
      goesTo (exec (.sessionHello 0 (hello true)) up) (fun t => (t.port 0).state == 6 && (t.port 0).newEpochSeen),
      goesTo (exec (.sessionFinish 0 (fin true none)) (larger (fun x => { x with partner := some (helloOf true) })))
        (fun t => (t.port 0).state == 3 && (t.port 0).runMatch && t.out.isEmpty),
      goesTo (exec (.sessionFinish 0 (fin true (some [7]))) (shaking (fun x => { x with partner := some (helloOf true) })))
        (fun t => (t.port 0).state == 3 && (t.port 0).runMatch && t.out.length == 1),
      goesTo (exec (.sessionFinish 0 (fin true none)) (shaking (fun x => { x with partner := some (helloOf true) })))
        (fun t => (t.port 0).state == 6 && (t.port 0).refuse == 1),
      goesTo (exec (.sessionFinish 0 (fin false none)) (shaking (fun x => { x with partner := some (helloOf true) })))
        (fun t => (t.port 0).state == 6 && (t.port 0).refuse == 1),
      goesTo (exec (.resume 0 (mkFrame 0x31 64 0 0 0 0 0 (.resume 2 3 0)) clean) (kept id)) (fun t => (t.port 0).state == 3 && (t.port 0).rxSeq == 8),
      goesTo (exec (.resume 0 (mkFrame 0x31 64 0 0 0 0 0 (.resume 2 4 0)) clean) (kept id)) (fun t => (t.port 0).state == 6)]) = true := by
  decide +kernel

def linkState (k : Nat) : State := base.modPort 255 (fun x => { x with state := k })

theorem test_port_links :
    checks (let st := linkState
     [goesTo (exec (.lossOfLight 0) up) (fun t => (t.port 0).state == 5 && (t.port 0).los),
      goesTo (exec (.losTimeout 255) (st 5)) (fun t => (t.port 255).state == 6 && 200000 ≤ t.localNs),
      goesTo (exec (.lightReturn 255) (base.modPort 255 (fun x => { x with state := 5, los := true }))) (fun t => (t.port 255).state == 4),
      goesTo (exec (.laneLossOfLight 255 true 8) (base.modPort 255 (fun x => { x with state := 3, txSpared := some 2 }))) (fun t => (t.port 255).state == 7),
      goesTo (exec (.laneLossOfLight 255 true 7) (st 3)) (fun t => (t.port 255).state == 4 && t.faults.recs.length == 1),
      goesTo (exec (.portTrainingDone 255 .failed) (st 1)) (fun t => (t.port 255).trainFails == 1),
      goesTo (exec (.portTrainingDone 255 .failed) (base.modPort 255 (fun x => { x with state := 1, trainFails := 2 }))) (fun t => (t.port 255).state == 7),
      (st 1).lanesOut 255 false [] == [] && (st 1).lanesOut 255 true [] == [],
      goesTo (exec (.portTrainingDone 255 (.trained 70000 [] [])) (st 1)) (fun t => (t.port 255).state == 2 && (t.port 255).fibreNs == 4464),
      goesTo (exec (.portRetrainTimeout 255) (st 4)) (fun t => (t.port 255).state == 7),
      goesTo (exec (.refusedRetry 255) (base.modPort 255 (fun x => { x with state := 6, refuse := 4 }))) (fun t => (t.port 255).state == 1),
      goesTo (exec (.portRetrainRequest 255 .a) (st 3)) (fun t => (t.port 255).state == 4 && (t.port 255).retrainSeen),
      goesTo (exec (.portFlagClear 0x5FF 0 .a) (base.modPort 255 (fun x => { x with newEpochSeen := true, authSeen := true, retrainSeen := true })))
        (fun t => !(t.port 255).newEpochSeen && (t.port 255).authSeen && !(t.port 255).retrainSeen)]) = true := by
  decide +kernel

/-- A binding whose box is ex modules along X, with ports. -/
def someBinding (ex : Nat) (ports : List Nat) : Binding :=
  { part := 0, boxX := ex, boxY := 1, boxZ := 1, originX := 0, originY := 0, originZ := 0, clusters := [], tables := [], syncs := [],
    groups := [], pages := [], stackTab := [], flows := [], hflows := [], partPrio := none, wakeTol := none, peers := [(2, 77)],
    ports := ports, retainedStack := 0, retainedPage := 0, retainedPages := 0 }

theorem test_collectives :
    checks (let s (ex : Nat) := (base.modGroup 255 (fun y => { y with members := 1, arrived := 1, torus := true, reduce := true, payloads := [(0, 0x40000000)] })).modBind 0 (fun b => { b with image := some (someBinding ex []) })
     let w := (s 2).modUep 0 0 (fun x => { x with param := { x.param with normScope := 7 } })
     let u := { w with store := { w.store with stackTab := [(0, { Stack.reset with trained := true })] } }
     [(s 1).groupOwner 255 == some 0, ((s 1).group 255).full, !(s 1).hasStage 0 255 0 && !(s 1).hasStage 0 255 1 && !(s 1).hasStage 0 255 2,
      goesTo (exec (.stageEntrySend 0 255) (s 1)) (fun t => (t.coll 255).release == some 0x40000000 && (t.group 255).sent),
      u.hasStage 0 255 0 && !u.hasStage 0 255 1 && !u.hasStage 0 255 2, u.lineCoords 0 0 == [0, 1], u.axisCoord 0 == 0,
      goesTo (exec (.stageEntrySend 0 255) u) (fun t => (t.coll 255).axis == some 0 && (t.coll 255).entries.length == 1 && (t.coll 255).release == none)])
      = true := by
  decide +kernel

theorem test_torus_time :
    checks (let tm (f : TimeSt → TimeSt) : State := { base with torusTime := f base.torusTime }
     [goesTo (exec .timeParentTimeout (tm (fun t => { t with parent := some 3, depth := 4, lastValid := 5 }))) (fun t =>
        t.torusTime.parent == none && t.torusTime.depth == 255 && 10000005 ≤ t.localNs),
      goesTo (exec .rootConflictEnd ((tm (fun t => { t with smallerAt := some 7, epoch := 0x00020003 })).setSetting 0x2600 3 1)) (fun t =>
        t.torusTime.root && t.torusTime.epoch == 0x00030000),
      goesTo (exec .noRootTimeout base) (fun t => t.torusTime.noRoot && t.ttNs == BitVec.ofNat 64 t.localNs),
      goesTo (exec (.timeFrame 0 (frame 0x22 64 0 (.time ⟨9, 0, 0, 0, 0, true, false, 4⟩)) clean 12) up) (fun t =>
        (t.port 0).timeIn.isSome && t.torusTime.parent == some 0 && t.torusTime.depth == 1),
      ((tm (fun t => { t with locked := true })).correct (-1000000000)).torusTime.rest == -16777216000000000,
      ((tm (fun t => { t with locked := true })).correct (-1000000000)).ttNs == 0]) = true := by
  decide +kernel

/-! The host port and the server ports (chapter 11). -/

/-- An entry of n bytes at a target. -/
def entry (target n : Nat) : SqEntry := ⟨false, true, false, 7, n, 64, BitVec.ofNat 64 target, 0, 9⟩

/-- Queue q enabled with one entry covered, in a lifecycle state. -/
def withQueue (q lc : Nat) (f : HostQ → HostQ) : State :=
  { base.modHostQ q (fun x => f { x with en := true, sqTail := 1 }) with trust := { base.trust with lifecycle := lc } }

theorem test_host_queue_registers :
    checks [goesTo (exec (.sqTailWrite 15 0x1F) (withQueue 15 2 id)) (fun t => (t.hostQ 15).sqTail == 15),
      goesTo (exec (.sqTailWrite 15 3) base) (fun t => (t.hostQ 15).sqTail == 0),
      goesTo (exec (.cqHeadWrite 15 0x12) (withQueue 15 2 id)) (fun t => (t.hostQ 15).cqHead == 2),
      goesTo (exec (.hqCfgWrite 15 0x3C4) base) (fun t => t.hostQ 15 == { HostQ.reset with en := true, irqEn := true, cqLog2 := 12 }),
      goesTo (exec (.hqCfgWrite 15 0x066) (withQueue 15 2 id)) (fun t => !(t.hostQ 15).en && (t.hostQ 15).sqLog2 == 4)] = true := by
  decide +kernel

theorem test_host_entries :
    checks (let s := withQueue 0 0 id
     let all (n : Nat) := [Instr.bindLoad 0 (entry 64 n) [] [] none, .sqWrite 0 (entry 64 n) [] [], .sqRead 0 (entry 64 n), .ingest 0 (entry 64 n) [] [],
       .psPush 0 (entry 64 n), .psPull 0 (entry 64 n)]
     [s.queueReady 0, !base.queueReady 0, (s.wakeOf 0).w == 0, (all 63).all (fun i => goesTo (exec i base) (· == base)),
      (all 63).all (fun i => goesTo (exec i s) (fun t => (t.hostQ 0).sqHead == 1 && (t.hostQ 0).job.map HostJob.status == some 3))]) = true := by
  decide +kernel

theorem test_host_transfers :
    checks (let s := { withQueue 0 0 id with store := { Store.reset with pages := [(3, { Page.reset with kind := 5 })] } }
     let a := 3 * 2 ^ 21 + 448
     let data : List Byte := List.replicate 64 7
     let flow : State := { (s.modCluster 0 (fun x => { x with circ := [(1, region 8 0 true)] })) with
       host := { s.host with flows := [(255, 3)], flowOwner := [(255, 0)] } }
     [s.testState, !entryMisaligned (entry a 640), saRun a 640, s.psStatus 0 (entry a 640) == 0,
      goesTo (exec (.sqWrite 0 (entry a 640) [] []) s) (fun t => t.store.reqs.map (fun r => (r.addr, r.len)) == [(a, 64), (a + 64, 512), (a + 576, 64)]),
      goesTo (exec (.sqRead 0 (entry a 640)) s) (fun t => t.store.reqs.map StoreReq.op == [.read, .read, .read]),
      goesTo (exec (.psPush 0 (entry a 64)) s) (fun t => t.store.reqs.map StoreReq.who == [.hostDma 17 0 0]),
      goesTo (exec (.psPull 0 (entry a 64)) s) (fun t => (t.hostQ 0).job.map HostJob.op == some 6),
      goesTo (exec (.psPull 0 (entry a 64)) { s with trust := { s.trust with lifecycle := 2 } }) (fun t => (t.hostQ 0).job.map HostJob.status == some 4),
      (hflowOf (flow.hflowWord 255)).en && flow.hflowCluster 255 == 0,
      (flow.fromHost 0 0 64).isSome,
      goesTo (exec (.ingest 0 (entry 255 64) data []) flow) (fun t => (t.elasticQ 0 0 0).map (fun x => (x.cargo, x.words.length)) == [(.toFlow 0 0 255 1, 16)]),
      s.loadable 0,
      goesTo (exec (.bindLoad 0 (entry 64 64) data [] none) (s.modBind 0 (fun b => { b with received := data }))) (fun t =>
        (t.bind 0).received.length == 128 && (t.bind 0).state == 1)]) = true := by
  decide +kernel

/-- An image that retains one page; the bytes that spell it. -/
def smallImage : Binding := { someBinding 1 [] with retainedPages := 1 }
def imageBytes : List Byte := List.replicate 64 7

theorem test_bind_load :
    checks (let s := withQueue 0 0 id
      let e : SqEntry := { entry 0 64 with last := true }
      [s.loadable 0 && !s.loadBusy 0 && s.bindRefuse 0 (some smallImage) 64 == 0 && s.bindRefuse 0 none 64 == 3,
      goesTo (exec (.bindLoad 0 e imageBytes [] (some smallImage)) s) (fun t =>
        (t.bind 0).state == 2 && (t.bind 0).refuse == 0 && (t.bind 0).image == some smallImage),
      goesTo (exec (.bindLoad 0 e imageBytes [] none) s) (fun t => (t.bind 0).state == 0 && (t.bind 0).refuse == 3
        && (t.hostQ 0).job.map HostJob.status == some 8)]) = true := by
  decide +kernel

theorem test_host_completions :
    checks (let s (cqTail : Nat) := withQueue 0 2 (fun x => { x with sqHead := 1, cqTail := cqTail, cqHead := 2, job := some { newJob 2 (entry 64 64) 0 with moved := 64 } })
     let r := { s 3 with store := { Store.reset with reqs := [{ someReq .write .queued with who := .hostDma 0 0 0 }] } }
     [(s 3).jobDone 0 { newJob 2 (entry 64 64) 0 with moved := 64 }, ((s 15).hostQ 0).unread == 13, ((s 1).hostQ 0).unread == 15,
      goesTo (exec (.entryComplete 0) (s 15)) (fun t => (t.hostQ 0).cqTail == 0 && !(t.hostQ 0).phase && t.out.contains (.completion 0 7 0 1 1 64 0)),
      goesTo (exec (.entryComplete 0) (s 3)) (fun t => (t.hostQ 0).cqTail == 4 && (t.hostQ 0).phase),
      goesTo (exec (.entryComplete 0) (s 1)) (fun t => !(t.hostQ 0).en && (t.hostQ 0).cause == 4),
      goesTo (exec (.entryComplete 0) r) (· == r),
      goesTo (exec .hostLinkDown (s 3)) (fun t => (t.hostQ 15).cause == 1 && (t.hostQ 0).job.isNone && !t.boot.hostUp),
      goesTo (exec (.hostLinkUp 6 16 true) base) (fun t => t.host.rate == 6 && t.boot.hostUp),
      goesTo (exec .perstDeassert base) (fun t => t.host.configBy == some 100000000)]) = true := by
  decide +kernel

/-- A datagram of peer 8 for partition 0, and a session with it. -/
def dgram (q : Nat) : Dgram := ⟨8, true, 0, 0, 9, 0, true, q, 1, 5, []⟩
def session (high : Nat) (seen : List Nat) : State := base.modSrv 0 8 (fun x => { x with up := true, keyGen := 1, rxHigh := some high, rxSeen := seen })

theorem test_datagram_window :
    checks (let s := session 2000 [2000, 1500]
     let b := (base.modBind 0 (fun b => { b with image := some (someBinding 1 []) })).modOwner 0 (fun o => { o with keyState := 2 })
     [goesTo (exec (.keepalive (dgram 976)) s) (· == s), goesTo (exec (.keepalive (dgram 1500)) s) (· == s),
      goesTo (exec (.keepalive { dgram 977 with tagOk := false }) s) (· == s),
      goesTo (exec (.keepalive (dgram 977)) s) (fun t => (t.srv 0 8).rxSeen.contains 977 && goesTo (exec (.keepalive (dgram 977)) t) (· == t)),
      goesTo (exec (.keepalive (dgram 5000)) s) (fun t => (t.srv 0 8).rxHigh == some 5000),
      goesTo (exec (.serverHandshake 0 2 77 true) b) (fun t => (t.srv 0 2).up && (t.srv 0 2).keyGen == 1),
      goesTo (exec (.serverHandshake 0 2 77 false) b) (· == b)]) = true := by
  decide +kernel

theorem test_export_protocol :
    checks (let seg : Segment := ⟨2, 1, 1, 0, 0, 0, 0, 0, 0, 5, []⟩
     let s := ((session 0 []).modExp 0 0 (fun x => { x with acked := 4, nextSeg := 6, rto := 8000000 })).modUep 0 0 (fun x =>
       { x with halves := [⟨1, [seg], true, false⟩] })
     [(s.srv 0 8).accepts (dgram 1),
      goesTo (exec (.expAck (dgram 1)) s) (fun t => (t.exp 0 0).acked == 5 && (t.exp 0 0).rto == 2000000 && (t.uep 0 0).halves.map Half.acked == [true]),
      goesTo (exec (.exportRetransmit 0 0) s) (fun t => (t.exp 0 0).nextSeg == 5 && (t.exp 0 0).rto == 16000000),
      goesTo (exec (.exportRetransmit 0 0) (s.modExp 0 0 (fun x => { x with rto := 200000000 }))) (fun t => (t.exp 0 0).rto == 256000000),
      goesTo (exec (.exportStallTimeout 0) s) (fun t => t.server.stalled == [0] && 30000000000 ≤ t.localNs)]) = true := by
  decide +kernel

theorem test_server_ports :
    checks (let job (op : Nat) : HostJob := newJob op (entry (3 * 2 ^ 21 + 2 * 2 ^ 48) 128) 0
     let s (op : Nat) := ((withQueue 0 2 (fun x => { x with job := some (job op) })).modSrv 0 2 (fun x => { x with up := true, keyGen := 1 })).modServer (fun v => { v with ports := [(0, ⟨true, 0, none⟩)] })
     let d : Dgram := { dgram 1 with peer := 2, ackId := 9, data := List.replicate 64 5 }
     [(s 5).transferQueue 0 5 9 2 == some 0, (s 6).transferQueue 0 6 9 2 == some 0,
      goesTo (exec (.psAck d) (s 5)) (fun t => (t.hostQ 0).job.map HostJob.acked == some 128),
      goesTo (exec (.psData { d with offset := 64 }) (s 6)) (fun t => (t.hostQ 0).job.map HostJob.acked == some 64 && t.store.reqs.length == 1),
      !(s 5).jobDone 0 (job 5), goesTo (exec (.psPeerTimeout 0) (s 5)) (fun t => (t.hostQ 0).job.map HostJob.status == some 10),
      goesTo (exec (.serverDatagramSend 1 255) (s 6)) (fun t => (t.srvPort 1).slot == 255 && t.out.isEmpty),
      goesTo (exec (.serverDatagramSend 0 0) (s 6)) (fun t => t.out.length == 1),
      goesTo (exec (.serverLinkDown 1) base) (fun t => !(t.srvPort 1).up), goesTo (exec (.serverLinkUp 1) base) (fun t => (t.srvPort 1).up),
      goesTo (exec (.icmpv6Message 0 .echoRequest) (s 5)) (fun t => t.out == [.icmp 0 1]),
      goesTo (exec (.icmpv6Message 1 (.packetTooBig 1280)) base) (fun t => (t.srvPort 1).mtu == some 1280)]) = true := by
  decide +kernel

/-! Faults, trust, power, clocks and bring-up (chapters 12 to 16). -/

def withRecs (rs : List RetRec) : State := { base with faults := { base.faults with recs := rs } }
def newRec (e : Nat) : RetRec := { recOf e with committed := false }
def inState (lc : Nat) (s : State) : State := { s with trust := { s.trust with lifecycle := lc } }

theorem test_retirement_records :
    checks (let e := laneElementOf 0 1 5
     let s := inState 0 { withRecs [recOf e, { recOf (e + 1) with inst := 1 }] with parts := [] }
     [(withRecs [newRec e]).elemOwned e,
      goesTo (exec .retirementRecordCommit (withRecs [newRec e])) (fun t => t.faults.recs == [recOf e]),
      goesTo (exec .retirementRecordCommit (withRecs [recOf e])) (· == withRecs [recOf e]),
      s.testState && s.allStopped && s.holdsLease .a, !s.holdsLease .b,
      goesTo (exec (.retirementClear e .a) s) (fun t => t.faults.recs.map RetRec.element == [e + 1]),
      goesTo (exec (.retirementClear e .a) (withRecs [recOf e])) (· == withRecs [recOf e])]) = true := by
  decide +kernel

theorem test_element_events :
    checks (let e := laneElementOf 0 1 5
     let r := base.elementEvent e .marking false (some 0) 0 0 0
     let old : State := { base with faults := { base.faults with elems := [(e, ⟨List.replicate 15 0, false⟩)] } }
     let v := old.elementEvent e .marking false (some 0) 0 0 0
     [r.2 == false, r.1.faults.recs.isEmpty, v.2, v.1.faults.recs.map RetRec.element == [e],
      (mapGet elemD v.1.faults.elems e).stamps.length == 15]) = true := by
  decide +kernel

/-- A module in a lifecycle state that owns nothing, its report with nonce 5 just issued; SVN of the image 3, DEBUG_COUNT n. -/
def reported (lc n : Nat) : State :=
  { base with pmap := Pmap.empty, parts := [], trust := { base.trust with
      lifecycle := lc, debugCount := n, imageSvn := 3, report := some (5, 0, false) } }
def cmd (arg : Nat) : LcCmd := ⟨true, 0, 5, arg, true, true⟩

theorem test_lifecycle_commands :
    checks [(reported 2 63).cmdFail (cmd 0) [2] true (if (reported 2 63).trust.debugCount < 64 then 0 else 6) == 0,
      (reported 2 0).cmdFail (cmd 0) [2] false 0 == 0, (reported 3 0).cmdFail (cmd 0) [2, 3] false 0 == 0,
      goesTo (exec (.enterDebug (cmd 0) .a) (reported 2 64)) (fun t => t.trust.cmdFail == 6 && t.trust.lifecycle == 2),
      goesTo (exec (.retire (cmd 0) .a) (reported 1 0)) (fun t => t.trust.cmdFail == 5),
      goesTo (exec (.setSvn (cmd 3) .a) (reported 2 0)) (fun t => t.trust.fwSvn == 3 && t.trust.report == some (5, 0, true)),
      goesTo (exec (.setSvn (cmd 4) .a) (reported 2 0)) (fun t => t.trust.cmdFail == 5),
      goesTo (exec (.setSvn { cmd 3 with nonce := 6 } .a) (reported 2 0)) (fun t => t.trust.cmdFail == 2),
      goesTo (exec (.setSvn { cmd 3 with identity := 1, nonce := 6 } .a) (reported 2 0)) (fun t => t.trust.cmdFail == 1),
      goesTo (exec (.enterDebug { cmd 0 with operatorSigOk := false, vendorSigOk := false } .a) (reported 2 0)) (fun t => t.trust.cmdFail == 3),
      goesTo (exec (.enterDebug { cmd 0 with vendorSigOk := false } .a) (reported 2 0)) (fun t => t.trust.cmdFail == 4)] = true := by
  decide +kernel

/-- Partition 7 has owner 9 and has issued a key under nonce 5. -/
def awaitingKey : State := (reported 2 0).modOwner 7 (fun o => { o with id := 9, epoch := 2, keyState := 1, ekNonce := 5 })
def delivery : KeyDel := ⟨true, false, 2, 5, 9, true, some 77⟩

theorem test_owners_and_keys :
    checks (let p1 := reported 1 0
     let busy := (reported 2 0).modOwner 7 (fun o => { o with busy := true, busyUntil := 20000 })
     [goesTo (exec (.provisioning 8) { reported 0 0 with trust := { (reported 0 0).trust with provisionedFuse := false } }) (fun t =>
        t.trust.lifecycle == 1 && t.trust.identity == 8 && t.trust.provisionedFuse),
      goesTo (exec (.operatorPkWrite (List.replicate 2592 1) .a) p1) (fun t => t.nv.writes.map NvWrite.ty == [1] && t.trust.lifecycle == 1),
      goesTo (exec (.operatorPkWrite (List.replicate 2591 1) .a) p1) (· == p1),
      (reported 2 0).computeState, goesTo (exec (.ownerIdWrite 7 9 .a) (reported 2 0)) (fun t => t.nv.writes.map NvWrite.inst == [0x817]),
      goesTo (exec (.ownerIdWrite 0 9 .a) base) (· == base),
      goesTo (exec (.ownerZeroingComplete 7) busy) (fun t => !(t.owner 7).busy && 20000 ≤ t.localNs),
      goesTo (exec (.attestationReport 6 0xFF) (reported 2 0)) (fun t => t.trust.report == some (6, 0, false) && t.out.length == 1),
      awaitingKey.keyFail 7 delivery == 0, goesTo (exec (.keyDelivery 7 delivery .a) awaitingKey) (fun t => (t.owner 7).keyState == 2),
      goesTo (exec (.keyDelivery 7 { delivery with epoch := 1 } .a) awaitingKey) (fun t => (t.owner 7).keyFail == 3),
      goesTo (exec (.keyDelivery 0 delivery .a) awaitingKey) (fun t => (t.owner 0).keyFail == 1)]) = true := by
  decide +kernel

theorem test_input_and_safe_state :
    checks [goesTo (exec .powerFail base) (fun t => !t.power.on && (t.part 0).stopRaised.isSome),
      goesTo (exec .overvoltage base) (fun t => t.power.heldOff),
      goesTo (exec .overvoltageRecovery { base with power := { base.power with heldOff := true } }) (fun t => !t.power.heldOff),
      goesTo (exec (.safeStateEntry 1) base) (fun t => t.boot.moduleState == 2 && t.boot.safeCause == 1 && !(t.part 0).running),
      goesTo (exec (.safeStateEntry 5) base) (fun t => t.boot.safeCause == 5),
      goesTo (exec (.thermalTrip .tmax95) { base with power := { base.power with hotTicks := 100 } }) (fun t => t.boot.safeCause == 3),
      goesTo (exec (.thermalTrip .tmax95) { base with power := { base.power with hotTicks := 99 } }) (fun t => t.boot.moduleState == 1),
      goesTo (exec .overdriveSave base) (fun t => t.nv.writes.map NvWrite.ty == [7])] = true := by
  decide +kernel

/-- Domain 9 at a set point in half millivolts. -/
def atPoint (v : Nat) : State := base.modDomain 9 (fun x => { x with setPoint := v })

theorem test_regulator_domains :
    checks (let g := base.marginTarget
     let steer (v code : Nat) := exec (.steeringPeriod [(9, [code, 127])]) (atPoint v)
     [9 < domainCount base.power.mode, 0 < g, g + 4 < 127,
      goesTo (steer 1400 (g - 1)) (fun t => (t.domain 9).setPoint == 1410), goesTo (steer 1695 (g - 1)) (fun t => (t.domain 9).setPoint == 1700),
      goesTo (steer 1400 (g + 4)) (fun t => (t.domain 9).setPoint == 1395), goesTo (steer 1203 (g + 4)) (fun t => (t.domain 9).setPoint == 1200),
      goesTo (steer 1400 g) (fun t => (t.domain 9).setPoint == 1400), goesTo (steer 1400 (g + 3)) (fun t => (t.domain 9).setPoint == 1400),
      (base.elementEvent (domainElement 9) .marking false (base.domainOwner 9) 0 0 0).2 == false,
      goesTo (exec (.outOfRegulation 9) (atPoint 1400)) (fun t => (t.domain 9).setPoint == 1440),
      goesTo (exec (.abnormalDrop 9) base) (fun t => (t.domain 9).off && (domainClusters base.power.mode 9).all (fun c => (t.cluster c).seq.state == .fault))]) = true := by
  decide +kernel

theorem test_power_ticks :
    checks (let low : State := { base with power := { base.power with marginLowered := true } }
     let full : State := { base with power := { base.power with marginLowered := true, sP := 16 } }
     let cap := base.powerCap
     [goesTo (exec (.powerTick 54000 (cap + 3000001) 95000) base) (fun t => t.power.marginLowered && t.power.sP == 0 && t.power.sT == 16 && t.fabric.stretchNext == 16),
      goesTo (exec (.powerTick 54000 (cap + 3000001) 94999) low) (fun t => t.power.sP == 1 && t.power.sT == 1),
      goesTo (exec (.powerTick 54000 (cap + 1) 88000) full) (fun t => t.power.powerTrip && t.power.sprintUsed == 1 && t.power.sT == 0),
      goesTo (exec (.powerTick 54000 cap 90000) full) (fun t => !t.power.sprinting && t.power.sT == 1),
      goesTo (exec (.powerGroupStage 7) { base with power := { base.power with on := true, stages := [(7, 3)], wakes := [(0, ⟨3, 0, some 9⟩)] } }) (fun t =>
        t.groupStage 7 == 4),
      goesTo (exec (.powerGroupStage 7) { base with power := { base.power with on := true } }) (fun t => t.groupStage 7 == 0),
      goesTo (exec (.powerGroupStage 0) { base with power := { base.power with on := true }, boot := { Boot.reset with step := 6 } }) (fun t => t.groupStage 0 == 1)]) = true := by
  decide +kernel

theorem test_fast_clamp_and_coolant :
    checks (let held := { base with power := { base.power with sP := 16, lowTicks := 9, clampUntil := 1000000 } }
     [goesTo (exec (.fastClamp 27001 27001 27001) base) (fun t => t.power.sP == 16 && t.fabric.stretchNext == 16),
      goesTo (exec (.fastClamp 27001 27000 27001) base) (· == base),
      goesTo (exec (.powerTick 54000 0 0) held) (fun t => t.power.sP == 16 && t.localNs < 1000000),
      goesTo (exec (.coolantSample 36000 35000 45000) base) (fun t => !t.power.coolantWarn),
      goesTo (exec (.coolantSample 36000 35000 45001) base) (fun t => t.power.coolantWarn),
      goesTo (exec (.coolantSample 35999 0 0) base) (fun t => t.power.coolantWarn), goesTo (exec (.coolantSample 36000 35001 0) base) (fun t => t.power.coolantWarn)]) = true := by
  decide +kernel

/-- Partition 7, which has stopped and been idle for an hour, with the tolerance it is given in us. -/
def dozing (tol : Nat) : State := { stopped with clock := { stopped.clock with time := 168 * 3600000000000 }, dict := [(0x210008, tol)] }
def asleep (w : Nat) (due : Option Nat) : State := stopped.modWake 7 (fun x => { x with w := w, due := due })

theorem test_wake_states :
    checks (let deep := { (asleep 3 (some 0)) with cmem := [(cellBase 0 0, 3)] }
     let sleepy (f : Nat → Nat) := { dozing 0 with dict := (List.range 8).map (fun p => (0x210001 + p, f p)) }
     let w4 := { base with boot := { base.boot with moduleState := 3 } }
     let w4Up : State := { w4 with power := { w4.power with w4Wake := some 0 }, ports := (List.range 256).map (fun n => (n, { Port.reset with state := if n = 255 then 7 else 3 })) }
     [(dozing 1000000).partIdle 7, (dozing 1000000).wakeTarget 7 == 3, (dozing 0).wakeTarget 7 == 0,
      goesTo (exec (.wakeEntry 7) (dozing 1000000)) (fun t => (t.wakeOf 7).w == 3),
      goesTo (exec (.wakeEvent 7 .start) (asleep 3 none)) (fun t => (t.wakeOf 7).due == some (wakeLatency 3)),
      goesTo (exec (.wakeComplete 7) (asleep 1 (some 500))) (fun t => (t.wakeOf 7).w == 0 && 500 ≤ t.localNs),
      deep.bandsOf 7 == [], goesTo (exec (.wakeComplete 7) deep) (fun t => (t.wakeOf 7).w == 0 && t.cmem == deep.cmem),
      (sleepy (fun _ => 800000)).w4Ready, goesTo (exec .w4Entry (sleepy (fun _ => 800000))) (fun t => t.boot.moduleState == 3),
      goesTo (exec (.wake true .a) w4) (fun t => t.power.w4Wake == some 0),
      goesTo (exec .w4WakeComplete w4Up) (fun t => t.boot.moduleState == 1 && !t.power.selfRefresh)]) = true := by
  decide +kernel

/-- The oscillator runs and the crystal has passed n comparisons of 50,000. -/
def comparing (n : Nat) : State := { base with clk := { base.clk with oscReady := true, refN := 50000, passes := n } }
def crystalUp : State := { stopped with clk := { stopped.clk with oscReady := true, xtalReady := true } }
def relocking (gates : Nat) : State := { base with clk := { base.clk with relockBusy := true, opPoint := 3, gates := gates } }

theorem test_clocks :
    checks (let onPll := { base with clk := { base.clk with fabOnSafe := false, fabLock := true } }
     [goesTo (exec (.crystalComparison 50025) (comparing 15)) (fun t => t.clk.xtalReady && t.clk.passes == 16),
      goesTo (exec (.crystalComparison 49975) (comparing 14)) (fun t => !t.clk.xtalReady && t.clk.passes == 15),
      inRange 48750 && inRange 51250 && !inRange 48749 && !inRange 51251,
      goesTo (exec .crystalLost crystalUp) (fun t => t.boot.safeCause == 2 && t.clk.xtalLost),
      goesTo (exec (.phaseFault 4095 3 3) base) (· == base), goesTo (exec (.phaseFault 4095 3 1) base) (· == base),
      goesTo (exec (.sourceSwitch (.server 1) .safe) base) (fun t => mapGet (natD 0) t.clk.selectors 116 == 1),
      goesTo (exec (.sourceSwitch (.opticalRx 255) .pll) base) (fun t => t.clk.switchRefused),
      goesTo (exec (.readyLost .fabric) onPll) (fun t => t.clk.relockBusy && t.clk.fabOnSafe && (t.part 0).stopRaised.isSome),
      crystalUp.quiet && crystalUp.setting 0x2400 1 == 0, goesTo (exec (.opPointWrite 3 .a) crystalUp) (fun t => t.nv.writes.map NvWrite.inst == [0x1400]),
      goesTo (exec (.verifyingGate 15992) (relocking 1)) (fun t => t.clk.fabLock && t.clk.opInForce == 3),
      goesTo (exec (.verifyingGate 16000) (relocking 0)) (fun t => t.clk.gates == 1), goesTo (exec (.verifyingGate 15991) (relocking 1)) (fun t => t.clk.gates == 0),
      goesTo (exec .relockTimeout (relocking 1)) (fun t => t.clk.fabLockFail && 1000000 ≤ t.localNs),
      base.monOk 0, goesTo (exec (.clkmonCtrlWrite 0x0400000C .a) base) (fun t => t.clk.clkmon == 0xC),
      goesTo (exec (.clkmonCtrlWrite 13 .a) base) (fun t => t.clk.switchRefused)]) = true := by
  decide +kernel

theorem test_root_time :
    checks (let root := { base with dict := [(0x260003, 1)] }
     let isRoot := { root with torusTime := { root.torusTime with root := true, ptpOk := true, discontinuity := true } }
     [root.timeRoot && !base.timeRoot, goesTo (exec (.ptpMessage (.announce 37)) root) (fun t => t.torusTime.root && t.torusTime.utcOffset == 37
        && t.torusTime.epoch == 0x10000 && t.torusTime.depth == 0),
      goesTo (exec (.ptpMessage (.sync 1000)) isRoot) (fun t => t.torusTime.err == 1000), goesTo (exec (.ptpMessage (.sync 1000)) base) (· == base),
      goesTo (exec .ptpLost isRoot) (fun t => t.torusTime.holdover),
      goesTo (exec (.timeDiscontinuityClear true .a) isRoot) (fun t => !t.torusTime.discontinuity),
      goesTo (exec (.timeDiscontinuityClear false .a) isRoot) (· == isRoot)]) = true := by
  decide +kernel

/-- Core A holds the lease; record 7 of TYPE 0x10 waits to be written for a core, or for none. -/
def cores (holder : Nat) (who : Option MCore) : State :=
  { base with boot := { base.boot with romDone := true }, lease := { base.lease with holder := holder }
              nv := { recs := [(0x100007, ⟨.valid 4 (.raw [1]), .erased⟩)], writes := [⟨0x10, 7, .raw [2], who, none⟩] } }

theorem test_lease_and_records :
    checks [goesTo (exec (.leaseAcquire .b true) (cores 0 none)) (fun t => t.lease.holder == 1 && t.lease.epoch == 2 && t.lease.expires == 250000000),
      goesTo (exec (.leaseAcquire .b false) { cores 1 none with lease := { (cores 1 none).lease with expires := 0 } }) (fun t => t.lease.holder == 2),
      goesTo (exec (.leaseAcquire .b false) (cores 1 none)) (· == cores 1 none),
      goesTo (exec (.leaseRenew .a) (cores 1 none)) (fun t => t.lease.expires == 250000000), goesTo (exec (.leaseRenew .b) (cores 1 none)) (· == cores 1 none),
      goesTo (exec (.leaseRelease .a) (cores 1 none)) (fun t => t.lease.holder == 0),
      goesTo (exec .leaseExpiry (cores 1 none)) (fun t => !t.holdsLease .a),
      goesTo (exec .leaseUncorrectable (cores 1 none)) (fun t => t.lease.standDown && t.boot.safeCause == 4),
      goesTo (exec (.storedRecordWrite 0xFFFF 0xFFFF [1] .a) (cores 1 none)) (fun t => t.nv.writes.length == 2),
      goesTo (exec (.recordCommit false) (cores 1 (some .b))) (fun t => t.lease.refused == 1 && (t.nvRec 0x10 7).best == .valid 4 (.raw [1]) && t.nv.writes == []),
      goesTo (exec (.recordCommit true) (cores 1 none)) (fun t => (t.nvRec 0x10 7).best == .valid 4 (.raw [1]) && t.nv.writes == []),
      goesTo (exec (.recordCommit false) (cores 1 none)) (fun t => (t.nvRec 0x10 7).best == .valid 5 (.raw [2]))] = true := by
  decide +kernel

theorem test_bring_up :
    checks (let b : BootIn := ⟨true, 3, 0, 1⟩
     let fresh : State := { State.reset with trust := { State.reset.trust with fwSvn := 3 } }
     let ready : State := { State.reset with
       boot := { Boot.reset with romDone := true, hostUp := true }
       clk := { Clk.reset with fabLock := true, fabOnSafe := false }
       power := { Power.reset with stages := (List.range 8).map (fun g => (g, 4)) } }
     [goesTo (exec (.coldPowerOn { b with imageSvn := 2 }) fresh) (fun t => t.boot.safeCause == 1 && t.lease.holder == 0),
      goesTo (exec (.coldPowerOn b) fresh) (fun t => t.boot.step == 4 && t.faults.boot == 1 && t.pmap == Pmap.single && (t.port 255).state == 0),
      goesTo (exec (.coldPowerOn b) { fresh with power := { fresh.power with heldOff := true } }) (· == { fresh with power := { fresh.power with heldOff := true } }),
      ready.mayBeReady, goesTo (exec (.moduleReady []) ready) (fun t => t.boot.moduleState == 1 && (t.stack 23).trained),
      !base.mayBeReady, goesTo (exec (.moduleReady []) base) (· == base),
      goesTo (exec (.hostReset .flr) (withQueue 15 2 id)) (fun t => !(t.hostQ 15).en && (t.hostQ 15).cause == 2),
      goesTo (exec (.storeRecalibration 23) base) (· == base)]) = true := by
  decide +kernel

/-- Partition 0 stopped with a binding in a state of BIND_STATE. -/
def bound (st : Nat) (asked : Bool) : State :=
  let s := (stopped.modBind 0 (fun b => { b with state := st, rebindAsked := asked, image := some (someBinding 1 []) })).modOwner 0 (fun o => { o with id := 1, keyState := 2 })
  { s with clk := { s.clk with fabOnSafe := false, fabLock := true } }

theorem test_binding_control :
    checks (let loaded := bound 2 false
     let timed := { base with dict := [(0x601005, 1)] }
     [loaded.startable 0, goesTo (exec (.start 0 .a) loaded) (fun t => (t.part 0).startRaised == some 0),
      !base.startable 0, goesTo (exec (.start 0 .a) base) (· == base),
      goesTo (exec (.stop 0 .a) base) (fun t => (t.part 0).stopRaised == some 0 && (t.part 0).stopCause == 1), goesTo (exec (.stop 0 .a) stopped) (· == stopped),
      (bound 4 false).rebindable 0, goesTo (exec (.rebind 0 .a) (bound 4 false)) (fun t => (t.bind 0).rebindAsked),
      !(bound 0 false).rebindable 0, goesTo (exec (.warmRebind 0) { bound 4 true with clk := { base.clk with relockBusy := true } }) (fun t => (t.bind 0).state == 6 && (t.bind 0).block == 6),
      (bound 4 true).blockCause 0 == 0, !((bound 4 true).rebindRepairs 0).faults.exhausted.contains 0,
      goesTo (exec (.warmRebindStart 0) (bound 5 true)) (fun t => (t.bind 0).state == 2 && !(t.bind 0).rebindAsked),
      goesTo (exec (.stepTimeout 0) timed) (fun t => (t.part 0).stopCause == 5 && 1000000 ≤ t.localNs)]) = true := by
  decide +kernel

/-! Maunvo, the chassis port, the dictionary, pins and test access (chapters 17 to 19). -/

/-- The cores run and session 3, of a role, is open. -/
def open3 (role : Nat) (f : Session → Session) : State :=
  { base with boot := { base.boot with romDone := true }, maunvo := { base.maunvo with sessions := [(3, f { Session.reset with role := role, rxHigh := 10, rxSeen := [10, 5] })] } }
def head (q : Nat) : MHead := ⟨3, q, 40, true⟩
def accepted (s : State) (h : MHead) : Bool := s.portTakes && (match s.openSession h.session with | some x => x.accepts h | none => false)
def sess (t : State) : Session := (t.openSession 3).getD Session.reset

theorem test_session_messages :
    checks (let s := open3 2 id
     [accepted s (head 11), accepted s (head 1), !accepted s (head 10), !accepted s (head 0), !accepted s { head 11 with tagOk := false },
      !accepted base (head 11), !(sess s).accepts (head 5), ({ sess s with rxHigh := 100 } : Session).accepts (head 37), !({ sess s with rxHigh := 100 } : Session).accepts (head 36),
      goesTo (exec (.ping (head 10)) s) (· == s), goesTo (exec (.ping (head 11)) s) (fun t => t.out == [.message 3 0x31 40 []] && (sess t).rxHigh == 11),
      goesTo (exec (.probe 7) base) (· == base), goesTo (exec (.probe 7) s) (fun t => t.out.length == 1),
      goesTo (exec (.close (head 11)) s) (fun t => t.openSession 3 == none), goesTo (exec (.subscribe (head 11) 5) s) (fun t => (sess t).mask == 5)]) = true := by
  decide +kernel

/-- A handshake of client 2 with SESSION_ID 6 in PROVISIONED; n sessions are open. -/
def greeting (n : Nat) : State :=
  { inState 1 (open3 1 id) with maunvo := { base.maunvo with
      sessions := (List.range n).map (fun i => (i + 10, { Session.reset with role := 1 })), handshakes := [(2, ⟨9, 1, [0], 1, 0, 6⟩)] } }

theorem test_handshakes :
    checks [(greeting 7).maunvo.sessions.length < 8, mapFind (greeting 7).maunvo.handshakes 1 == none, (greeting 7).roleOf 9 == some 1,
      goesTo (exec (.cHello 1 7 8 9 1) (greeting 7)) (fun t => mapFind t.maunvo.handshakes 1 == some ⟨9, 1, [7], 8, 0, 0⟩),
      goesTo (exec (.cHello 1 0 1 9 1) (greeting 8)) (fun t => t.maunvo.refused == 1), goesTo (exec (.cHello 1 8 8 9 1) (greeting 7)) (· == greeting 7),
      goesTo (exec (.cHello 1 0 9 9 1) (greeting 7)) (· == greeting 7),
      goesTo (exec (.cFinish 2 6 9 true) (greeting 7)) (fun t => (t.openSession 6).map Session.role == some 1),
      goesTo (exec (.cFinish 2 6 9 false) (greeting 7)) (fun t => t.openSession 6 == none && t.maunvo.handshakes == []),
      goesTo (exec (.handshakeTimeout 2) (greeting 7)) (fun t => t.maunvo.handshakes == [] && 2000000000 ≤ t.localNs),
      goesTo (exec (.idleTimeout 16) (greeting 7)) (fun t => t.openSession 16 == none && 60000000000 ≤ t.localNs)] = true := by
  decide +kernel

theorem test_request_replies :
    checks (let kept : MResp := ⟨40, 0x2000, 4, 0, 4, 0, [1]⟩
     let rd := Instr.maunvoRead (head 11) 0x2000 4 0 []
     let answers (s : State) (st : Nat) := goesTo (exec rd s) (fun t => t.out == [.response 3 ⟨40, 0x2000, 4, st, 0, 0, []⟩])
     let waits (l : List Nat) := open3 2 (fun x => { x with waiting := l.map (fun r => ⟨r, 0, 0, 0⟩) })
     [goesTo (exec rd (open3 2 (fun x => { x with kept := [kept] }))) (fun t => t.out == [.response 3 kept]),
      answers (waits [40]) stPending, answers (open3 2 (fun x => { x with kept := [{ kept with reqId := 41 }] })) stStale,
      answers (waits (List.range 8)) stBusy, answers (open3 1 id) stRole]) = true := by
  decide +kernel

theorem test_maunvo_reads :
    checks (let s := open3 2 id
     let buf : Transfer := ⟨false, 0x6000, 5, 3000, List.replicate 3000 1, 9, 1400, 0⟩
     let r (index sub : Nat) := (noted s (head 11) (sess s)).readEntry 3 index sub []
     [roleReaches 2 2 0x2000 4 false, (r 0x2000 4).1 == stOk, (r 0x2000 4).2.1 == leBytes 4 24000, (r 0x2000 0xFF).1 == stNoEntry,
      (r 0x5001 1).1 == stOk || (r 0x1000 5).1 == stOk,
      goesTo (exec (.maunvoRead (head 11) 0x6000 5 1400 []) (open3 2 (fun x => { x with buffers := [buf] }))) (fun t =>
        t.out == [.response 3 ⟨40, 0x6000, 5, stOk, 3000, 1400, List.replicate 1400 1⟩]),
      goesTo (exec (.maunvoRead (head 11) 0x6000 5 1400 []) s) (fun t => t.out == [.response 3 ⟨40, 0x6000, 5, stSegment, 0, 1400, []⟩])]) = true := by
  decide +kernel

theorem test_maunvo_writes :
    checks (let s := open3 2 id
     let prov := inState 1 (open3 1 id)
     let part : Transfer := ⟨true, 0x1800, 6, 2592, List.replicate 1400 1, 9, 1400, 0⟩
     let w4 := { s with boot := { s.boot with moduleState := 3 } }
     let wr (h : MHead) (index sub : Nat) (bs : List Byte) := Instr.maunvoWrite h index sub 0 bs.length bs
     [goesTo (exec (wr (head 11) 0x2000 0xFF [1]) s) (fun t => t.out == [.response 3 ⟨40, 0x2000, 0xFF, stNoEntry, 0, 0, []⟩]),
      goesTo (exec (wr (head 11) 0x2000 4 (leBytes 4 20000)) s) (fun t => t.nv.writes.length == 1 && (sess t).waiting.length == 1 && t.out == []),
      wakesW4 0x6010 && wakesW4 0x33FF && !wakesW4 0x2000,
      goesTo (exec (wr (head 11) 0x6010 1 [1]) w4) (fun t => t.maunvo.deferred == [⟨3, 40, 0x6010, 1, [1]⟩] && t.power.w4Wake == some 0),
      !oneMessage 0x1800 6 && oneMessage 0x2000 4,
      goesTo (exec (.maunvoWrite (head 11) 0x1800 6 0 2592 (List.replicate 1400 1)) prov) (fun t => (sess t).buffers == [{ part with reqId := 40 }]),
      goesTo (exec (.maunvoWrite (head 11) 0x1800 6 1400 2592 (List.replicate 1192 1)) (inState 1 (open3 1 (fun x => { x with buffers := [part] })))) (fun t =>
        (sess t).buffers == [] && t.nv.writes.map NvWrite.ty == [1]),
      goesTo (exec (.maunvoWrite (head 11) 0x1800 6 0 16385 [1]) prov) (fun t => (sess t).kept.map MResp.status == [stSegment]),
      goesTo (exec (.maunvoWrite (head 11) 0x1800 6 1 1 [1]) prov) (fun t => (sess t).kept.map MResp.status == [stSegment]),
      goesTo (exec (.abort (head 11) 9) (open3 2 (fun x => { x with buffers := [part] }))) (fun t =>
        (sess t).buffers == [] && t.out == [.response 3 ⟨9, 0, 0, stAborted, 0, 0, []⟩])]) = true := by
  decide +kernel

theorem test_session_timers :
    checks (let ev (n : Nat) : MEvent := ⟨n, 5, 0, 0, 0, 0x2000, 2, [1]⟩
     let buf (w : Bool) (sent : Nat) : Transfer := ⟨w, 0x6000, 5, 3000, List.replicate 30 1, 9, sent, 0⟩
     [goesTo (exec (.eventAck (head 11) 4) (open3 2 (fun x => { x with events := [ev 4, ev 5] }))) (fun t => (sess t).events == [ev 5] && t.out == []),
      goesTo (exec (.eventAck (head 11) 4) (open3 2 (fun x => { x with events := [ev 4, ev 5], eventSeq := 5, lost := 2 }))) (fun t =>
        (sess t).lost == 0 && (sess t).eventSeq == 6 && (sess t).events.length == 2),
      goesTo (exec (.eventResend 3) (open3 2 (fun x => { x with events := [ev 4] }))) (fun t => t.out == [.event 3 (ev 4)] && 1000000000 ≤ t.localNs),
      goesTo (exec (.pendingRepeat 3 8) (open3 2 (fun x => { x with waiting := [⟨8, 1, 2, 0⟩] }))) (fun t => t.out == [.response 3 ⟨8, 1, 2, stPending, 0, 0, []⟩]),
      goesTo (exec (.segmentGapTimeout 3 0x6000 5) (open3 2 (fun x => { x with buffers := [buf false 30] }))) (fun t => t.out == [] && (sess t).buffers == []),
      goesTo (exec (.segmentGapTimeout 3 0x6000 5) (open3 2 (fun x => { x with buffers := [buf false 29] }))) (fun t =>
        t.out == [.response 3 ⟨9, 0x6000, 5, stTimeout, 3000, 0, []⟩] && 5000000000 ≤ t.localNs),
      goesTo (exec (.segmentGapTimeout 3 0x6000 5) (open3 2 (fun x => { x with buffers := [buf true 30] }))) (fun t => t.out.length == 1)]) = true := by
  decide +kernel

theorem test_chassis_port :
    checks (let s := open3 2 id
     let latched : State := { s with maunvo := { s.maunvo with latch := some (0x6000, 2, List.replicate 300 7) } }
     [goesTo (exec (.i3cRead 0x2000 4 false) s) (fun t => t.out == [.i3c stLength []]), goesTo (exec (.i3cRead 0x2000 4 true) s) (fun t => t.out == [.i3c stOk (leBytes 4 24000)]),
      goesTo (exec (.i3cRead 0x6000 4 true) s) (fun t => t.out == [.i3c stRole []]), (s.readEntry 0 0x2000 0xFF []).1 == stNoEntry,
      goesTo (exec (.i3cReadSegment 0x6000 2 255 true) latched) (fun t => t.out == [.i3c stOk (List.replicate 45 7)]),
      goesTo (exec (.i3cReadSegment 0x6000 2 0 true) s) (fun t => t.out == [.i3c stState []]),
      goesTo (exec (.i3cWrite 0x2000 5 [1] true) s) (fun t => t.out == [.i3c stRole []]), goesTo (exec (.i3cWrite 0x2000 4 [1] true) s) (fun t => t.out == [.i3c stLength []]),
      i3cWrites 0x1100 7, goesTo (exec (.i3cDynamicAddress 127) s) (fun t => t.maunvo.dynAddr == some 127)]) = true := by
  decide +kernel

theorem test_chassis_port_domains :
    checks [goesTo (exec (.i3cRead 0x2001 1 true) (open3 2 id)) (fun t => t.maunvo.latch.isSome),
      (((findEntry 0x2001 1).map Entry.ty) == some .domain)] = true := by
  decide +kernel

theorem test_stored_entries :
    checks (let w (v : Nat) (k : MCore) := Instr.rwsWrite 0x2000 4 (leBytes 4 v) k
     let raw (index sub : Nat) := (findEntry index sub).map (fun e => e.acc == .rws && !rawEntry index sub e)
     [raw 0x2000 4 == some true, raw 0x3800 6 == some true, raw 0x3C02 4 == some true, raw 0x3C17 9 == some true,
      goesTo (exec (w 20000 .a) base) (fun t => t.nv.writes.map NvWrite.v == [.change [(0x200004, 20000)]]), goesTo (exec (w 24000 .a) base) (· == base),
      goesTo (exec (w 20000 .b) base) (fun t => t.lease.refused == 1), goesTo (exec (.rwsWrite 0x2000 4 [1] .a) base) (· == base)]) = true := by
  decide +kernel

/-- An image that gives partition 0 every band and nothing else: version 1, then zeros (Table 18.6a). -/
def mapImage (n : Nat) : List Byte := 1 :: List.replicate n 0

def zeroMap : Pmap := ⟨List.replicate 8 0, List.replicate 8 0, List.replicate 8 0, List.replicate 8 0, List.replicate 8 0,
  List.replicate 8 0, List.replicate 8 0, List.replicate 56 0, List.replicate 192 (0, 0)⟩

theorem leNat_zeros (n : Nat) : leNat (List.replicate n (0 : Byte)) = 0 := by
  induction n with
  | zero => rfl
  | succ n ih => rw [List.replicate_succ, leNat, ih]; rfl

theorem zeros_of_image (m o n : Nat) : ((mapImage m).drop (o + 1)).take n = List.replicate (min n (m - o)) (0 : Byte) := by
  rw [mapImage, List.drop_succ_cons, List.drop_replicate, List.take_replicate]

theorem field_zero (m o n : Nat) (h : 0 < o) : leNat (((mapImage m).drop o).take n) = 0 := by
  obtain ⟨k, rfl⟩ : ∃ k, o = k + 1 := ⟨o - 1, by omega⟩
  rw [zeros_of_image, leNat_zeros]

theorem test_zero_map : Pmap.ofBytes (mapImage 1695) = some zeroMap := by
  have h0 : leNat (((mapImage 1695).drop 0).take 4) = 1 := by decide
  have hl : (mapImage 1695).length = 1696 := by rw [mapImage, List.length_cons, List.length_replicate]
  have hm (a b k : Nat) (h : 0 < a) :
      (List.range k).map (fun i => leNat (((mapImage 1695).drop (a + b * i)).take b)) = List.replicate k 0 := by
    rw [List.map_congr_left (g := fun _ => 0) (fun i _ => field_zero _ _ _ (by omega)), List.map_const', List.length_range]
  have hp : (List.range 192).map (fun i => (leNat (((mapImage 1695).drop (0xA0 + 8 * i)).take 4),
      leNat (((mapImage 1695).drop (0xA4 + 8 * i)).take 4))) = List.replicate 192 (0, 0) := by
    rw [List.map_congr_left (g := fun _ => (0, 0))
      (fun i _ => by rw [field_zero _ _ _ (by omega), field_zero _ _ _ (by omega)]), List.map_const', List.length_range]
  unfold Pmap.ofBytes
  dsimp only
  rw [zeros_of_image 1695 0x5F 56, hp, hm 4 1 8 (by omega), hm 0x0C 2 8 (by omega), hm 0x1C 2 8 (by omega), hm 0x2C 2 8 (by omega),
    hm 0x3C 1 8 (by omega), hm 0x44 1 8 (by omega), hm 0x4C 2 8 (by omega)]
  exact if_neg (by rw [hl, h0, field_zero 1695 0x5C 4 (by omega), field_zero 1695 0x98 8 (by omega)]; decide)

theorem test_partition_map :
    checks (let s := { base with pmapCtl := { base.pmapCtl with applying := true, until_ := 500 } }
     [goesTo (exec (.pmapWrite [1] .a) base) (· == base), base.pmapRefuse zeroMap == 0 && zeroMap != base.pmap,
      base.pmapRefuse { Pmap.single with ctxQuota := 64 :: List.replicate 7 0 } == 5,
      goesTo (exec .pmapApplyComplete s) (fun t => !t.pmapCtl.applying && 500 ≤ t.localNs)]) = true := by
  decide +kernel

theorem test_counter_reads :
    checks (let s := { open3 2 id with counters := [(counterKey 0x5011 1 0, ⟨9, true, false⟩)] }
     [isCounter 0x5011 1, flagEntry 0x5411 1, goesTo (exec (.counterRead 3 0x5011 1) s) (fun t => t.out == [.bytes (leBytes 8 9)] && t.latch 3 0x5011 1 == some 5),
      goesTo (exec (.counterRead 0 0x5011 1) s) (fun t => t.latch 0 0x5011 1 == some 5),
      goesTo (exec (.flagEntryRead 3 0x5411 1) (s.setLatch 3 0x5011 1 (some 3))) (fun t => t.out == [.value 3] && t.latch 3 0x5011 1 == none),
      goesTo (exec (.flagEntryRead 3 0x5411 1) s) (fun t => t.out == [.value 1]), goesTo (exec .snapshotRead base) (fun t => t.out.length == 1)]) = true := by
  decide +kernel

theorem test_debug_access :
    checks (let s := inState 3 base
     [s.testState && !base.testState, s.dbgOk, goesTo (exec .dbgRead s) (fun t => t.out.length == 1), goesTo (exec .dbgRead base) (· == base),
      s.holdsLease .a && decide (0 < s.dbgLen), goesTo (exec (.dbgWrite [1] .a) base) (· == base),
      s.tmuxOk 0x1003 && !s.tmuxOk 0x1004, goesTo (exec (.tmuxSelWrite 7 0x1003 .a) s) (fun t => t.setting 0x7001 8 == 0x1003 && t.setting 0x7001 1 == 0),
      goesTo (exec (.tmuxSelWrite 7 0x1003 .a) base) (· == base)]) = true := by
  decide +kernel

def pinsOf (lc instr : Nat) (g : Nat) (x : PinGroup) : State := { inState lc base with pins := { Pins.reset with groups := [(g, x)], instr := instr } }

theorem test_pin_functions :
    checks (let on := ({ PinGroup.reset with fn := 1 } : PinGroup)
     [base.pinStatus 4 1 == stLifecycle, base.pinStatus 5 15 == stRange, base.pinStatus 1 0 == stOk,
      goesTo (exec (.pinFunctionWrite 4 1 .a) base) (· == base), goesTo (exec (.pinFunctionWrite 1 1 .a) (pinsOf 2 0xFF 1 on)) (fun t => t.pinGroup 1 == on),
      goesTo (exec (.pinFunctionWrite 1 0 .a) (pinsOf 3 3 1 on)) (fun t => t.pinGroup 1 == PinGroup.reset),
      goesTo (exec (.pinFunctionWrite 1 0 .a) (pinsOf 2 0xFF 1 on)) (fun t => (t.pinGroup 1).fn == 1 && (t.pinGroup 1).upto == some ⟨0, 0, none⟩),
      goesTo (exec (.pinSwitchComplete 1) (pinsOf 2 0xFF 1 { on with upto := some ⟨0, 0, none⟩ })) (fun t => (t.pinGroup 1).fn == 0 && 1000 ≤ t.localNs),
      goesTo (exec (.pinSwitchTimeout 5) (pinsOf 2 0xFF 5 { on with upto := some ⟨0, 0, none⟩ })) (fun t => (t.pinGroup 5).fn == 1 && 100000000 ≤ t.localNs),
      goesTo (exec (.uartInput 65) (pinsOf 3 0xFF 1 on)) (fun t => t.pins.uartIn == [65]), goesTo (exec (.uartInput 65) (pinsOf 2 0xFF 1 on)) (· == pinsOf 2 0xFF 1 on)]) = true := by
  decide +kernel

theorem test_test_access :
    checks (let s (lc instr : Nat) := pinsOf lc instr 1 PinGroup.reset
     let boundNo : State := (s 3 0xFF).modBind 7 (fun b => { b with state := 3 })
     let scanning := { s 3 0x11 with pins := { (s 3 0x11).pins with scanned := 5 }, qmem := [(cellBase 0 0, 1)], smem := [(0, 1), (24704 * 2 ^ 22, 1)] }
     [goesTo (exec .tapReset (s 2 0)) (fun t => t.pins.instr == 2), goesTo (exec .idcode (s 2 0)) (fun t => t.out == [.value 0x15734C59]),
      goesTo (exec (.samplePreload 5) (s 2 0)) (fun t => t.pins.instr == 0xFF && t.pins.gated), goesTo (exec (.samplePreload 5) (s 3 0)) (fun t => t.pins.instr == 1 && t.pins.boundary == 5),
      goesTo (exec (.extest 5) (s 0 0xFF)) (fun t => t.pins.instr == 0 && t.host.rate == 0), goesTo (exec .highz (s 3 0)) (fun t => t.pins.instr == 4),
      goesTo (exec (.dieLink (BitVec.allOnes 96)) (s 3 0)) (fun t => t.pins.instr == 0x10 && t.pins.dieLink.toNat == 2 ^ 90 - 1),
      goesTo (exec .intScan (s 3 0)) (fun t => t.pins.instr == 0x11), goesTo (exec .intScan boundNo) (fun t => t.pins.gated),
      goesTo (exec .intScanEnd scanning) (fun t => t.pins.instr == 0xFF && t.qmem == [] && t.smem == [(24704 * 2 ^ 22, 1)]),
      goesTo (exec .intScanEnd (s 3 0)) (· == s 3 0), goesTo (exec (.bypass 0xFF) (s 2 0)) (fun t => t.pins.instr == 0xFF && !t.pins.gated),
      !tapListed 0x77, goesTo (exec (.bypass 0x77) (s 3 0)) (fun t => t.pins.instr == 0xFF && !t.pins.gated)]) = true := by
  decide +kernel

/-! The step, reset, and the manual's worked examples. -/

theorem test_step_runs_the_front :
    checks [goesTo (step { base with pending := [.overvoltage, .powerFail] }) (fun t => t.pending == [.powerFail] && t.power.heldOff),
      goesTo (step base) (fun t => t.clock.fab == 1 && t.pending == []),
      base.withFetchWord 32 0x13 == base, decodeTableWord 8 0 == none] = true := by
  decide +kernel

/-- ResetIsSound and ResetState at some elements; LinkClass is not needed. -/
theorem test_reset :
    checks [State.reset.pending == [], State.reset.cmem.wf && State.reset.qmem.wf && State.reset.smem.wf, (State.reset.cluster 4095).seq.state == .idle,
      State.reset.rowGuard 63 == ⟨22, 44, false, false⟩, (State.reset.sync 16383).expect == 1, State.reset.setting 0x4402 1 == 10000] = true := by
  decide +kernel

/-- The premise of QueuesRunOut, and a term that each kind of check refuses. -/
theorem test_well_formed :
    checks [[Instr.add 4095 .clean, .start 7 .a, .spineReleaseDelivered 255].all wellFormed] = true := by
  decide +kernel

theorem test_ill_formed_elements :
    checks ([Instr.add 4096 .clean, .start 8 .a, .storeRecalibration 24, .storeRoundGrant 0 64, .storeRoundGrant 24 0, .commitArrival 0 8 [],
      .lossOfLight 256, .streamLoad 0 4, .linkLost 4096 0, .linkLost 0 4, .cqHeadWrite 16 0, .engineLastResult 0 9, .circRegisterWrite 0 8 .cfg 0 .binding,
      .resRegisterWrite 0 4 .base 0 .binding, .syncArrival 16384 0 0, .spineReleaseDelivered 256, .laneMapUpdate 4224 0 0 0, .laneMapUpdate 0 0 16 0,
      .laneMapUpdate 0 0 0 2560, .remapSwitch 64 0 1 false false, .remapSwitch 0 66 1 false false, .fabricControlWrite (2 ^ 36) 0 .binding].all
        (fun i => !wellFormed i) :: []) = true := by
  decide +kernel

theorem test_ill_formed_fields :
    checks ([Instr.loRegisterRead (.committed 24 0) false, .rcCounterRead (.linkEvents 4224 0) false, .registerWrite (.clusterWord 4096 0) 0 0 .binding,
      .rdReq 0 (frame 0x02 64 0 .empty) clean, .rdReq 0 { frame 0x01 64 0 .empty with tag := 1024 } clean, .sqRead 0 { entry 64 64 with cid := 65536 },
      .keepalive { dgram 1 with peer := 9 }, .icmpv6Message 2 .echoRequest, .attestationReport 0 256, .powerGroupStage 8, .outOfRegulation 4096,
      .sourceSwitch (.store 24) .safe, .opPointWrite 256 .a, .safeStateEntry 0, .safeStateEntry 6, .ping { head 1 with session := 2 ^ 32 },
      .i3cRead 65536 1 true, .i3cDynamicAddress 128, .rwsWrite 65536 1 [] .a, .counterRead 0 1 256, .torusIdentityWrite 256 [] .a,
      .serverAddressWrite 65536 5 [] .a, .tmuxSelWrite 8 0 .a, .pinFunctionWrite 0 0 .a, .hostLinkUp 7 16 true].all (fun i => !wellFormed i) :: []) = true := by
  decide +kernel

/-- Example 1 of chapter 2: FP32 to BF16; example 5: FP8 E4M3 limits (500.0, 448.0, 0.0155, -0.01). -/
theorem test_scalar_conversions :
    checks ([(0x3F808000, 0x3F80), (0x3F818000, 0x3F82), (0x3F808001, 0x3F81)].map
        (fun x => fmtBF16.round .rne (fmtFP32.decode x.1) == (x.2, flNX))
      ++ [(0x43FA0000, 0x7E, flOF ||| flNX), (0x43E00000, 0x7E, 0#4), (0x3C7DF3B6, 0x08, flNX), (0xBC23D70A, 0x80, flUF ||| flNX)].map
        (fun x => fmtE4M3.round .rne (fmtFP32.decode x.1) == (x.2.1, x.2.2))) = true := by
  decide +kernel

/-- Example 2: 6.0, -1.3, 0.2, 2.5 and zeros as a UF4 block; example 3: 1.1875 with the draws 0x3A00 and 0x7000. -/
theorem test_uf4_block :
    checks (let xs := [0x40C00000, 0xBFA66666, 0x3E4CCCCD, 0x40200000].map fmtFP32.decode ++ List.replicate 28 (Machine.Num.zero false)
     let r := quantBlock blkUF4 false false 0 xs
     [r.1 == 0x80, r.2.1 == [6, 0xA, 0, 4] ++ List.replicate 28 0, r.2.2.1 == flUF ||| flNX,
      blkUF4.round (.sr 0x3A00) false (.val false 19 (-4)) 127 == (4, flNX), blkUF4.round (.sr 0x7000) false (.val false 19 (-4)) 127 == (3, flNX)]) = true := by
  decide +kernel

/-- Example 4: T2 by UF4 into an accumulator of 2^24; example 6: an overflowing product, a NaN and two ordinary products. -/
theorem test_dot_products :
    checks (let w := [1, 1, 0, 3].map (fun c => blkT2.decode c 0x7E)
     let a := [6, 0xA, 0, 4].map (fun c => blkUF4.decode c 0x80)
     let bf (x : Nat × Nat) := (fmtBF16.decode x.1, fmtBF16.decode x.2)
     [dot [w.zip a] 0x4B800000 == (0x4B800000#32, flNX), dot [w.zip a] 0 == (0x3F800000#32, 0#4),
      dot [[(0x7F00, 0x4100), (0x7FC1, 0x3F80), (0x4040, 0x4000), (0xBF80, 0x4080), (0, 0)].map bf] 0 == (0x7FC00000#32, flNV ||| flOF ||| flNX)]) = true := by
  decide +kernel

/-- The worked example of chapter 4: check field 0x43 of 0x0000_0001; one flip corrected, two poisoned. -/
theorem test_bank_code :
    checks [code39.check 1 == 0x43, code39.decode poison39 0x101 0x43 == ⟨1, 13, 1, .corrected⟩,
      code39.decode poison39 0x301 0x43 == ⟨0, 3, 0, .uncorrectable⟩, (code39.decode poison39 0 poisonCheck39).outcome == .poison] = true := by
  decide +kernel

/-- The example of chapter 5: N = 18 and chunk 49 of the index buffer. -/
theorem test_index_buffer :
    checks [(indexBuffer (List.range 8 ++ (List.range 10).map (· + 40)) false).map (fun w => w.w.toNat)
      == [0x12, 0, 0x80000001, 0x80000002, 3, 0x80000004, 5, 6, 0x80000007, 0x28, 0x80000029, 0x8000002A, 0x2B, 0x8000002C, 0x2D, 0x2E,
        0x8000002F, 0x30, 0x80000031]] = true := by
  decide +kernel

/-- The examples of chapter 6: shares of 128, 64, 32 and 32; physical slot 30 of a row retired. -/
theorem test_slots_and_guards :
    checks [(List.range 16).map (slotOwner [128, 64, 32, 32, 0, 0, 0, 0])
        == [0, 1, 0, 2, 0, 1, 0, 3, 0, 1, 0, 2, 0, 1, 0, 3].map some,
      retireGuard RowGuard.reset 30 == some ⟨30, 44, true, false⟩] = true := by
  decide +kernel

/-- Check values: CRC-32C and CRC-8 of the nine digits (the polynomials of R264 and R482). -/
theorem test_check_sums :
    checks [crc32c (ascii "123456789") == 0xE3069283, crc8 0 (ascii "123456789") == 0xF4] = true := by
  decide +kernel

/-- The example of chapter 8: words 0, 5 and 64 of a group change. -/
theorem test_export_group :
    checks (let xs : List Word := [0x00FFFFF0, 0, 0, 0, 0, 1] ++ List.replicate 58 0 ++ [1] ++ List.replicate 63 0
     [(groupPayload xs).length == 28, (groupPayload xs).take 20 == leBytes 4 0x21 ++ leBytes 4 0 ++ leBytes 4 1 ++ leBytes 4 0 ++ leBytes 4 0x00FFFFF0]) = true := by
  decide +kernel

end Sys2Proof.Tests
end

section
/-! The lease through the accesses of the engines: performing what a cluster has issued (R111) leaves the management lease and the
clock alone, so a write that had the lease before still has it after (R446). -/

namespace Sys2Proof.Machine

open Sys2Proof

/-! Records, events and faults. -/

@[simp] theorem State.count_lease (s : State) (k n : Nat) : (s.count k n).lease = s.lease := rfl

@[simp] theorem State.raiseEvent_lease (s : State) (cls index sub : Nat) (detail : List Nat) :
    (s.raiseEvent cls index sub detail).lease = s.lease := by
  unfold State.raiseEvent; dsimp only; split <;> rfl

@[simp] theorem State.say_lease (s : State) (kind value : Nat) : (s.say kind value).lease = s.lease := by
  unfold State.say; split <;> rfl

@[simp] theorem State.log_lease (s : State) (cls count part cause action element : Nat) (detail : Word) :
    (s.log cls count part cause action element detail).lease = s.lease := by
  simp [State.log]

@[simp] theorem State.markElement_lease (s : State) (element : Nat) (part : Option Nat) (cause : Nat) (detail : Word) :
    (s.markElement element part cause detail).lease = s.lease :=
  State.log_lease s ..

@[simp] theorem State.elementEvent_lease (s : State) (element : Nat) (kind : EventKind) (uncorr : Bool) (part : Option Nat)
    (cause action : Nat) (detail : Word) :
    (s.elementEvent element kind uncorr part cause action detail).1.lease = s.lease := by
  unfold State.elementEvent; dsimp only
  repeat' split
  all_goals simp

@[simp] theorem State.raiseStop_lease (s : State) (p why : Nat) : (s.raiseStop p why).lease = s.lease := by
  unfold State.raiseStop; split <;> rfl

@[simp] theorem State.clusterFault_lease (s : State) (c cause desc : Nat) : (s.clusterFault c cause desc).lease = s.lease := by
  unfold State.clusterFault; dsimp only
  split
  · rfl
  · split <;> simp

/-- An operation as of another cycle leaves the lease alone when it does so in every state. -/
theorem State.asOf_lease (s : State) (fab : Nat) {f : State → State} (hf : ∀ u, (f u).lease = u.lease) :
    (s.asOf fab f).lease = s.lease := hf _

@[simp] theorem State.asOf_clock (s : State) (fab : Nat) (f : State → State) : (s.asOf fab f).clock = s.clock := rfl

@[simp] theorem State.clusterFaultIn_lease (s : State) (c cause desc delay : Nat) :
    (s.clusterFaultIn c cause desc delay).lease = s.lease :=
  s.asOf_lease _ fun u => u.clusterFault_lease c cause desc

/-! Memory and regions of a cluster. -/

@[simp] theorem State.noteRead_lease (s : State) (c w : Nat) : (s.noteRead c w).lease = s.lease := by
  unfold State.noteRead; dsimp only
  repeat' split
  all_goals simp

@[simp] theorem State.readWords_lease (s : State) (c : Nat) (ws : List Nat) : (s.readWords c ws).2.lease = s.lease :=
  List.foldlRecOn (motive := fun t : State => t.lease = s.lease) ws _ rfl fun _ ht _ _ => (State.noteRead_lease _ c _).trans ht

@[simp] theorem State.putRaw_lease (s : State) (c w data check : Nat) : (s.putRaw c w data check).lease = s.lease := rfl

@[simp] theorem State.writeWord_lease (s : State) (c w : Nat) (v : PWord) : (s.writeWord c w v).lease = s.lease := by
  unfold State.writeWord; dsimp only; split <;> rfl

@[simp] theorem State.writeCycle_lease (s : State) (c : Nat) (ws : List (Nat × PWord)) : (s.writeCycle c ws).lease = s.lease :=
  List.foldlRecOn (motive := fun t : State => t.lease = s.lease) _ _ rfl fun t ht x _ => by
    split
    · exact (t.writeWord_lease c x.1 x.2).trans ht
    · exact ht

@[simp] theorem State.modCirc_lease (s : State) (c r : Nat) (f : Circ → Circ) : (s.modCirc c r f).lease = s.lease := rfl
@[simp] theorem State.headPast_lease (s : State) (c r n : Nat) : (s.headPast c r n).lease = s.lease := rfl
@[simp] theorem State.testWrite_lease (s : State) (c r n : Nat) : (s.testWrite c r n).lease = s.lease := rfl
@[simp] theorem State.testRead_lease (s : State) (c r n : Nat) : (s.testRead c r n).lease = s.lease := rfl

@[simp] theorem State.circRead_lease (s : State) (c r n : Nat) (sel : List Nat) : (s.circRead c r n sel).2.lease = s.lease :=
  s.readWords_lease c _

@[simp] theorem State.circFault_lease (s : State) (c r cause desc : Nat) : (s.circFault c r cause desc).lease = s.lease :=
  State.clusterFaultIn_lease ..

/-! The accesses of one cycle. -/

@[simp] theorem State.takeBanks_lease (s : State) (c : Nat) (ws : List Nat) : (s.takeBanks c ws).lease = s.lease := rfl
@[simp] theorem State.takeFree_lease (s : State) (n : Nat) : (s.takeFree n).lease = s.lease := rfl
@[simp] theorem State.modOpAt_lease (s : State) (c i : Nat) (f : EngOp → EngOp) : (s.modOpAt c i f).lease = s.lease := rfl

@[simp] theorem State.xbarEvent_lease (s : State) (c cause action : Nat) : (s.xbarEvent c cause action).lease = s.lease :=
  State.elementEvent_lease ..

@[simp] theorem State.bankConflict_lease (s : State) (c desc delay : Nat) : (s.bankConflict c desc delay).lease = s.lease :=
  State.clusterFaultIn_lease ..

@[simp] theorem State.befallRead_lease (s : State) (c : Nat) (o : EngOp) (slot off delay : Nat) (vs : List PWord) :
    (s.befallRead c o slot off delay vs).2.lease = s.lease := by
  unfold State.befallRead; dsimp only
  repeat' split
  all_goals simp

@[simp] theorem State.befallWrite_lease (s : State) (c : Nat) (o : EngOp) (b : WriteBeat) (delay : Nat) :
    (s.befallWrite c o b delay).lease = s.lease := by
  unfold State.befallWrite
  repeat' split
  all_goals simp

@[simp] theorem State.doRead_lease (s : State) (c i : Nat) (o : EngOp) (b : ReadBeat) (ok : Nat → Bool) :
    (s.doRead c i o b ok).lease = s.lease := by
  unfold State.doRead; dsimp only
  rw [State.modOpAt_lease, State.befallRead_lease]
  repeat' split
  all_goals simp

@[simp] theorem State.form_lease (s : State) (c i : Nat) (o : EngOp) : (s.form c i o).lease = s.lease := by
  unfold State.form; dsimp only
  repeat' split
  all_goals simp

@[simp] theorem State.engineError_lease (s : State) (c : Nat) (o : EngOp) : (s.engineError c o).lease = s.lease := by
  simp [State.engineError]

@[simp] theorem State.doWrite_lease (s : State) (c : Nat) (o : EngOp) (b : WriteBeat) (ok : Nat → Bool) (acc : List (Nat × PWord)) :
    (s.doWrite c o b ok acc).1.lease = s.lease := by
  unfold State.doWrite; dsimp only
  repeat' split
  all_goals simp

theorem foldOps_lease {f : State → Nat → EngOp → State} (hf : ∀ u i o, (f u i o).lease = u.lease) (ops : List EngOp) (i : Nat)
    (s : State) : (foldOps ops i f s).lease = s.lease := by
  induction ops generalizing i s with
  | nil => rfl
  | cons o r ih => exact (ih _ _).trans (hf s i o)

@[simp] theorem State.doCycle_lease (s : State) (c t : Nat) : (s.doCycle c t).lease = s.lease := by
  unfold State.doCycle
  lift_lets
  extract_lets ops fab okR s1 s2 ops2 okW s3 go w s4
  have reads : s1.lease = s.lease := foldOps_lease (fun u i o =>
    List.foldlRecOn (motive := fun v : State => v.lease = u.lease) _ _ rfl fun v hv b _ => (v.doRead_lease ..).trans hv) _ _ _
  have formed : s2.lease = s1.lease := foldOps_lease (fun u i o => u.form_lease c i o) _ _ _
  have checked : s3.lease = s2.lease := foldOps_lease (fun u i o => by split <;> simp) _ _ _
  have writes : w.1.lease = s3.lease :=
    List.foldlRecOn (motive := fun a : State × List (Nat × PWord) => a.1.lease = s3.lease) ops2 _ rfl fun a ha o _ =>
      List.foldlRecOn (motive := fun x : State × List (Nat × PWord) => x.1.lease = s3.lease) (o.writes.filter (go o)) _ ha
        fun x hx b _ => (x.1.doWrite_lease c o b okW x.2).trans hx
  have performed : s4.lease = w.1.lease := State.modCluster_lease ..
  rw [State.writeCycle_lease, State.takeBanks_lease, performed, writes, checked, formed, reads]

/-! All the accesses issued so far. -/

theorem State.settleFuel_lease_clock (fuel : Nat) (s : State) (c lim : Nat) :
    (s.settleFuel fuel c lim).lease = s.lease ∧ (s.settleFuel fuel c lim).clock = s.clock := by
  induction fuel generalizing s with
  | zero => exact ⟨rfl, rfl⟩
  | succ k ih =>
    unfold State.settleFuel
    split
    · exact ⟨rfl, rfl⟩
    · split
      · rw [(ih _).1, (ih _).2, State.asOf_clock, State.asOf_lease _ _ fun u => u.doCycle_lease c _]
        exact ⟨rfl, rfl⟩
      · exact ⟨rfl, rfl⟩

theorem State.settle_lease_clock (s : State) (c : Nat) : (s.settle c).lease = s.lease ∧ (s.settle c).clock = s.clock := by
  unfold State.settle State.settleBefore
  split
  · exact State.settleFuel_lease_clock ..
  · exact ⟨rfl, rfl⟩

/-- Holding the lease is a matter of the lease and the clock alone. -/
theorem State.holdsLease_congr {s t : State} (hl : t.lease = s.lease) (hc : t.clock = s.clock) (k : MCore) :
    t.holdsLease k = s.holdsLease k := by
  rw [State.holdsLease, State.holdsLease, State.localNs, State.localNs, hl, hc]

@[simp] theorem State.settle_holdsLease (s : State) (c : Nat) (k : MCore) : (s.settle c).holdsLease k = s.holdsLease k :=
  State.holdsLease_congr (s.settle_lease_clock c).1 (s.settle_lease_clock c).2 k

end Sys2Proof.Machine
end

section
/-! Guarded register writes: what the element guards and the lease guard answer, and what each register write does (chapters 0, 3, 4
and R446). -/

namespace Sys2Proof.Machine

open Sys2Proof Sys2Proof.Claims

/-! Element guards: the command goes on when its element exists. -/

@[simp] theorem onCluster_of_ok {c : Nat} (h : clusterOk c = true) (t : State) : onCluster c t = .next t :=
  if_pos (of_decide_eq_true h)
@[simp] theorem onPartition_of_ok {p : Nat} (h : partOk p = true) (t : State) : onPartition p t = .next t :=
  if_pos (of_decide_eq_true h)
@[simp] theorem onPort_of_ok {n : Nat} (h : portOk n = true) (t : State) : onPort n t = .next t :=
  if_pos (of_decide_eq_true h)
@[simp] theorem onStack_of_ok {k : Nat} (h : stackOk k = true) (t : State) : onStack k t = .next t :=
  if_pos (of_decide_eq_true h)
@[simp] theorem onQueue_of_ok {q : Nat} (h : queueOk q = true) (t : State) : onQueue q t = .next t :=
  if_pos (of_decide_eq_true h)

/-! The lease guard (R446). -/

theorem State.guarded_of_holds {s : State} {k : MCore} (h : s.holdsLease k = true) (t : State) : s.guarded k t = t :=
  if_pos h

theorem State.guarded_of_not_holds {s : State} {k : MCore} (h : s.holdsLease k = false) (t : State) :
    s.guarded k t = { s with lease := { s.lease with refused := s.lease.refused + 1 } } :=
  if_neg (Bool.eq_false_iff.1 h)

/-- The writer of a core's command passes the guard of that core. -/
@[simp] theorem State.guardedBy_core (s : State) (k : MCore) (t : State) :
    s.guardedBy (if k = .a then .coreA else .coreB) t = s.guarded k t := by
  cases k <;> rfl

theorem State.guardedBy_of_mayWrite {s : State} {w : Writer} (h : MayWrite s w) (t : State) : s.guardedBy w t = t := by
  obtain rfl | ⟨rfl, hl⟩ | ⟨rfl, hl⟩ := h
  · rfl
  · exact State.guarded_of_holds hl t
  · exact State.guarded_of_holds hl t

/-! The commands that write the control pages of a cluster, with their element guards passed. -/

theorem exec_coreMapWrite {c k : Nat} (hc : clusterOk c = true) (hk : k < 4) (v : Word) (w : Writer) (s : State) :
    exec (.coreMapWrite c k v w) s
      = .next (s.guardedBy w (s.modCluster c (fun x => { x with seq := { x.seq with mapRefused := true } }))) :=
  (if_pos hk).trans (onCluster_of_ok hc _)

theorem exec_circRegisterWrite {c r : Nat} (hc : clusterOk c = true) (hr : r < 8) (x : CircReg) (v : Word) (w : Writer) (s : State) :
    exec (.circRegisterWrite c r x v w) s = .next (s.guardedBy w (circWriteEffect c r x v w (s.settle c))) :=
  (if_pos hr).trans (onCluster_of_ok hc _)

theorem exec_resRegisterWrite {c n : Nat} (hc : clusterOk c = true) (hn : n < 4) (x : ResReg) (v : Word) (w : Writer) (s : State) :
    exec (.resRegisterWrite c n x v w) s = .next (s.guardedBy w (resWriteEffect c n x v w s)) :=
  (if_pos hn).trans (onCluster_of_ok hc _)

theorem exec_flipRegisterWrite {c : Nat} (hc : clusterOk c = true) (x : FlipReg) (v : Word) (w : Writer) (s : State) :
    exec (.flipRegisterWrite c x v w) s = .next (s.guardedBy w (flipWriteEffect c x v w s)) :=
  onCluster_of_ok hc _

/-! REGISTER_WRITE. Where hardware sets flags in the cycle of the write (R13), it sets them whether or not the write passes, so the
lease is looked at in the state that has them set. -/

/-- The flag words of a cluster's pages are written inside the cluster. -/
theorem State.writeCluster_flagWord {off : Nat} (h : off ∈ [0, 0x1001, 0x1010, 0x1011, 0x1012, 0x1013, 0x1014, 0x1020]) (s : State)
    (c : Nat) (v hw : Word) (who : Writer) : ∃ f, s.writeCluster c off v hw who = s.modCluster c f := by
  simp only [List.mem_cons, List.not_mem_nil, or_false] at h
  obtain rfl | rfl | rfl | rfl | rfl | rfl | rfl | rfl := h <;> exact ⟨_, rfl⟩

/-- The flag words of a stack's control space are written inside the stack. -/
theorem State.writeStore_flagWord {off : Nat} (h : off ∈ [0x7000, 0x8000, 0x8001]) (s : State) (k : Nat) (v hw : Word)
    (who : Writer) : ∃ f, s.writeStore k off v hw who = s.modStack k f := by
  simp only [List.mem_cons, List.not_mem_nil, or_false] at h
  obtain rfl | rfl | rfl := h <;> exact ⟨_, rfl⟩

theorem State.settle_flagWord_holdsLease {off : Nat} (h : off ∈ [0, 0x1001, 0x1010, 0x1011, 0x1012, 0x1013, 0x1014, 0x1020])
    (s : State) (c : Nat) (v hw : Word) (who : Writer) (k : MCore) :
    ((s.settle c).writeCluster c off v hw who).holdsLease k = s.holdsLease k := by
  obtain ⟨f, hf⟩ := (s.settle c).writeCluster_flagWord h c v hw who
  rw [hf, State.holdsLease_congr (s := s.settle c) (State.modCluster_lease ..) (State.modCluster_clock ..), State.settle_holdsLease]

theorem State.writeStore_flagWord_holdsLease {off : Nat} (h : off ∈ [0x7000, 0x8000, 0x8001]) (s : State) (j : Nat) (v hw : Word)
    (who : Writer) (k : MCore) : (s.writeStore j off v hw who).holdsLease k = s.holdsLease k := by
  obtain ⟨f, hf⟩ := s.writeStore_flagWord h j v hw who
  rw [hf, State.holdsLease_congr (s := s) (State.modStack_lease ..) (State.modStack_clock ..)]

/-- The flags hardware sets leave the lease with its holder. -/
theorem hwSets_holdsLease (r : GenReg) (hw : Word) (s : State) (k : MCore) : (hwSets r hw s).holdsLease k = s.holdsLease k := by
  unfold hwSets
  split
  case isFalse => rfl
  case isTrue h =>
    cases r with
    | mxFlags c | vxFlags c | qzFlags c | rdFlags c | sxFlags c | seqStatus c | resStatus c | memStatus c =>
      exact State.settle_flagWord_holdsLease (by decide) s c 0 hw .binding k
    | clusterWord c off => exact State.settle_flagWord_holdsLease (List.contains_iff_mem.1 h) s c 0 hw .binding k
    | stackStatus j | ueFlags j | ueStatus j => exact State.writeStore_flagWord_holdsLease (by decide) s j 0 hw .binding k
    | storeWord j off => exact State.writeStore_flagWord_holdsLease (List.contains_iff_mem.1 h) s j 0 hw .binding k
    | portReg | hqSqBaseLo | hqSqBaseHi | hqCqBaseLo | hqCqBaseHi => cases h
    | hqStatus q => rfl

theorem mayWrite_hwSets {s : State} {w : Writer} (h : MayWrite s w) (r : GenReg) (hw : Word) : MayWrite (hwSets r hw s) w := by
  simpa only [MayWrite, hwSets_holdsLease] using h

/-- A write of a register of REGISTER_WRITE by a writer that may write has its whole effect, whether the register is under the lease
or the host's. -/
theorem exec_registerWrite {r : GenReg} {s : State} {w : Writer} (hr : GenReg.wf r = true) (hw : MayWrite s w) (v hwSet : Word) :
    exec (.registerWrite r v hwSet w) s = .next (registerWriteEffect r v hwSet w s) := by
  have passes : (if GenReg.managed r then (hwSets r hwSet s).guardedBy w (registerWriteEffect r v hwSet w s)
      else registerWriteEffect r v hwSet w s) = registerWriteEffect r v hwSet w s := by
    rw [State.guardedBy_of_mayWrite (mayWrite_hwSets hw r hwSet), ite_self]
  show execRegisterWrite r v hwSet w s = _
  unfold execRegisterWrite
  dsimp only
  rw [passes]
  cases r with
  | mxFlags | vxFlags | qzFlags | rdFlags | sxFlags | seqStatus | resStatus | memStatus | clusterWord => exact onCluster_of_ok hr _
  | stackStatus | ueFlags | ueStatus | storeWord => exact onStack_of_ok hr _
  | portReg => exact onPort_of_ok hr _
  | hqSqBaseLo | hqSqBaseHi | hqCqBaseLo | hqCqBaseHi | hqStatus => exact onQueue_of_ok hr _

/-! A write that is refused for want of the lease (R446). -/

theorem onCluster_guardedBy_core {c : Nat} (hc : clusterOk c = true) (s : State) (k : MCore) (t : State) :
    onCluster c (s.guardedBy (if k = .a then .coreA else .coreB) t) = .next (s.guarded k t) := by
  rw [onCluster_of_ok hc, State.guardedBy_core]

/-- Every command by which a core writes control state is its effect under the lease guard of that core. -/
theorem exec_coreWrite (s : State) (k : MCore) :
    ∀ f ∈ coreWrites k, ∀ i, f i → wellFormed i = true → ∃ t, exec i s = .next (s.guarded k t) := by
  simp only [coreWrites, List.forall_mem_cons]
  refine ⟨?localStop, ?unload, ?coreMap, ?circ, ?res, ?flip, ?fabricControl, ?partPrio, ?rollForward, ?rollBack, ?clearStartBlocked,
    ?portRetrain, ?retirementClear, ?enterDebug, ?release, ?retire, ?setSvn, ?operatorPk, ?ownerId, ?keyDelivery, ?wake, ?opPoint,
    ?clkmon, ?timeDiscontinuity, ?start, ?stop, ?rebind, ?storedRecord, ?counter, List.forall_mem_nil _⟩
  case localStop | unload =>
    rintro _ ⟨c, rfl⟩ hwf
    exact ⟨_, onCluster_guardedBy_core hwf s k _⟩
  case coreMap =>
    rintro _ ⟨c, r, v, rfl⟩ hwf
    obtain ⟨hr, hc⟩ := Bool.and_eq_true_iff.1 hwf
    exact ⟨_, (exec_coreMapWrite hc (of_decide_eq_true hr) ..).trans (congrArg _ (s.guardedBy_core k _))⟩
  case circ =>
    rintro _ ⟨c, r, x, v, rfl⟩ hwf
    obtain ⟨hc, hr⟩ := Bool.and_eq_true_iff.1 hwf
    exact ⟨_, (exec_circRegisterWrite hc (of_decide_eq_true hr) ..).trans (congrArg _ (s.guardedBy_core k _))⟩
  case res =>
    rintro _ ⟨c, n, x, v, rfl⟩ hwf
    obtain ⟨hc, hn⟩ := Bool.and_eq_true_iff.1 hwf
    exact ⟨_, (exec_resRegisterWrite hc (of_decide_eq_true hn) ..).trans (congrArg _ (s.guardedBy_core k _))⟩
  case flip =>
    rintro _ ⟨c, x, v, rfl⟩ hwf
    exact ⟨_, onCluster_guardedBy_core hwf s k _⟩
  case fabricControl =>
    rintro _ ⟨a, v, rfl⟩ -
    exact ⟨_, congrArg _ (s.guardedBy_core k _)⟩
  case partPrio =>
    rintro _ ⟨p, v, rfl⟩ hwf
    exact ⟨_, (onPartition_of_ok hwf _).trans (congrArg _ (s.guardedBy_core k _))⟩
  case rollForward | rollBack | clearStartBlocked | start | stop | rebind =>
    rintro _ ⟨p, rfl⟩ hwf
    exact ⟨_, onPartition_of_ok hwf _⟩
  case ownerId | keyDelivery =>
    rintro _ ⟨p, x, rfl⟩ hwf
    exact ⟨_, onPartition_of_ok hwf _⟩
  case portRetrain =>
    rintro _ ⟨n, rfl⟩ hwf
    exact ⟨_, onPort_of_ok hwf _⟩
  case retirementClear | enterDebug | release | retire | setSvn | operatorPk | wake | opPoint | clkmon | timeDiscontinuity =>
    rintro _ ⟨x, rfl⟩ -
    exact ⟨_, rfl⟩
  case storedRecord =>
    rintro _ ⟨ty, n, b, rfl⟩ hwf
    obtain ⟨hty, hn⟩ := Bool.and_eq_true_iff.1 hwf
    exact ⟨_, (if_pos (of_decide_eq_true hty)).trans (if_pos (of_decide_eq_true hn))⟩
  case counter =>
    rintro _ ⟨x, y, v, b, hc, hx, rfl⟩ -
    exact ⟨_, congrArg _ (if_pos ⟨hc, hx⟩)⟩

/-- R446: a core's write without the lease. -/
theorem leaseRefusesWrites : LeaseRefusesWrites := by
  rintro s k i hk hwf ⟨f, hf, hi⟩
  obtain ⟨t, ht⟩ := exec_coreWrite s k f hf i hi hwf
  rw [ht, State.guarded_of_not_holds hk]

/-! What the writes of the cluster's pages do (R117, R120, R121, R134). -/

section
variable {s : State} {c : Nat} {who : Writer} {v : Word}

theorem circWriteEffect_refused (h : s.circWritable c who = false) (r : Nat) (x : CircReg) (v : Word) :
    circWriteEffect c r x v who s = s.cfgRefused c := by
  simp [circWriteEffect, h]

theorem circWriteEffect_cfg (h : s.circWritable c who = true) {r : Nat}
    (hq : (((s.cluster c).region r).withCfg v).en = false ∨ (((s.cluster c).region r).withCfg v).legal = true) :
    circWriteEffect c r .cfg v who s = s.modCirc c r (fun x => x.withCfg v) := by
  obtain hq | hq := hq <;> simp [circWriteEffect, h, hq]

theorem circWriteEffect_cfg_illegal (h : s.circWritable c who = true) {r : Nat}
    (hen : (((s.cluster c).region r).withCfg v).en = true) (hl : (((s.cluster c).region r).withCfg v).legal = false) :
    circWriteEffect c r .cfg v who s = s.cfgRefused c := by
  simp [circWriteEffect, h, hen, hl]

theorem circWriteEffect_head (h : s.circWritable c who = true) (r : Nat) (v : Word) :
    circWriteEffect c r .head v who s = s.modCirc c r (fun x => { x with head := v.setWidth 24 }) := by
  simp [circWriteEffect, h]

theorem circWriteEffect_tail (h : s.circWritable c who = true) (r : Nat) (v : Word) :
    circWriteEffect c r .tail v who s = s.modCirc c r (fun x => { x with tail := v.setWidth 24 }) := by
  simp [circWriteEffect, h]

theorem resWriteEffect_refused (h : who ≠ .binding ∨ resBound (fld v 23 0) = false) (s : State) (c n : Nat) (x : ResReg) :
    resWriteEffect c n x v who s = s.cfgRefused c := by
  obtain h | h := h <;> simp [resWriteEffect, h]

/-- A resident range with one of its registers written (R121, Table 4.7). -/
def Res.written (q : Res) (x : ResReg) (v : Word) : Res :=
  match x with
  | .base => { q with base := fld v 23 0, en := v.getLsbD 31 }
  | .limit => { q with limit := fld v 23 0 }

theorem resWriteEffect_binding (h : resBound (fld v 23 0) = true) (s : State) (c n : Nat) (x : ResReg) :
    resWriteEffect c n x v .binding s = s.modCluster c (fun y => { y with resid := mapMod resD y.resid n (fun q => q.written x v) }) := by
  cases x <;> simp [resWriteEffect, h, Res.written]

theorem flipWriteEffect_refused (hw : who ≠ .binding) (ht : s.testState = false) (c : Nat) (x : FlipReg) (v : Word) :
    flipWriteEffect c x v who s = s.cfgRefused c := by
  simp [flipWriteEffect, hw, ht]

theorem flipWriteEffect_data (h : who = .binding ∨ s.testState = true) (c : Nat) (v : Word) :
    flipWriteEffect c .data v who s = s.modCluster c (fun x => { x with flip := { x.flip with data := v } }) := by
  obtain h | h := h <;> simp [flipWriteEffect, h]

theorem flipWriteEffect_ctrl (h : who = .binding ∨ s.testState = true) (c : Nat) (v : Word) :
    flipWriteEffect c .ctrl v who s = s.modCluster c (fun x => { x with flip := { x.flip with
      check := v.setWidth 7, arm := v.getLsbD 7, word := fld v 9 8, bank := fld v 19 10, bankEn := v.getLsbD 20
      armedAt := s.clock.fab } }) := by
  obtain h | h := h <;> simp [flipWriteEffect, h]

end

theorem kept_modCluster (s : State) (c : Nat) (f : Cluster → Cluster) : Kept s (s.modCluster c f) := ⟨rfl, rfl, rfl, rfl, rfl⟩

/-- Binding load writes a resident range: that range, and nothing else of the ranges or the memories. -/
theorem exec_resRegisterWrite_binding {c n : Nat} (hc : clusterOk c = true) (hn : n < 4) (x : ResReg) {v : Word}
    (hv : resBound (fld v 23 0) = true) (s : State) :
    ∃ t, exec (.resRegisterWrite c n x v .binding) s = .next t ∧ (t.cluster c).range n = ((s.cluster c).range n).written x v
      ∧ (∀ m, m ≠ n → (t.cluster c).range m = (s.cluster c).range m) ∧ Kept s t := by
  refine ⟨_, (exec_resRegisterWrite hc hn x v .binding s).trans (congrArg _ (resWriteEffect_binding hv s c n x)), ?_, ?_,
    kept_modCluster s c _⟩
  · rw [State.modCluster_self]
    exact mapGet_mod_self resD (s.cluster c).resid n (·.written x v)
  · intro m hm
    rw [State.modCluster_self]
    exact mapGet_mod_ne resD (s.cluster c).resid (·.written x v) hm

/-- R70, R117, R120, R121, R134: the writes of a cluster's pages. -/
theorem clusterRegisterWrites : ClusterRegisterWrites := by
  intro s c v who hc hw u
  have hok : clusterOk c = true := decide_eq_true hc
  have circ : ∀ r x, r < 8 → exec (.circRegisterWrite c r x v who) s = .next (circWriteEffect c r x v who u) := fun r x hr => by
    rw [exec_circRegisterWrite hok hr, State.guardedBy_of_mayWrite hw]
  have flip : ∀ x, exec (.flipRegisterWrite c x v who) s = .next (flipWriteEffect c x v who s) := fun x => by
    rw [exec_flipRegisterWrite hok, State.guardedBy_of_mayWrite hw]
  refine ⟨?coreMap, ?cfg, ?cfgIllegal, ?pointers, ?circRefused, ?resRefused, ?resBase, ?resLimit, ?flipRefused, ?flipWritten⟩
  case coreMap =>
    intro k hk
    rw [exec_coreMapWrite hok hk, State.guardedBy_of_mayWrite hw]
  case cfg =>
    intro r hr hwr hq
    rw [circ r _ hr, circWriteEffect_cfg hwr hq]
  case cfgIllegal =>
    intro r hr hwr hen hl
    rw [circ r _ hr, circWriteEffect_cfg_illegal hwr hen hl]
  case pointers =>
    intro r hr hwr
    rw [circ r _ hr, circ r _ hr, circWriteEffect_head hwr, circWriteEffect_tail hwr]
    exact ⟨rfl, rfl⟩
  case circRefused =>
    intro r x hr hwr
    rw [circ r x hr, circWriteEffect_refused hwr]
  case resRefused =>
    intro n x hn h
    rw [exec_resRegisterWrite hok hn, State.guardedBy_of_mayWrite hw, resWriteEffect_refused h]
  case resBase =>
    rintro n hn rfl hv
    exact exec_resRegisterWrite_binding hok hn .base hv s
  case resLimit =>
    rintro n hn rfl hv
    exact exec_resRegisterWrite_binding hok hn .limit hv s
  case flipRefused =>
    intro hb ht x
    rw [flip, flipWriteEffect_refused hb ht]
  case flipWritten =>
    intro h
    rw [flip, flip, flipWriteEffect_data h, flipWriteEffect_ctrl h]
    refine ⟨rfl, _, rfl, ?_⟩
    simp [State.modCluster_self, kept_modCluster, fld, bitsN]

/-! Flag registers and words that take no write (R11, R13, R59). -/

theorem State.writeCluster_readOnly {off : Nat} (h : off ∈ [1, 2, 3, 0x1002, 0x1003, 0x1004, 0x1008, 0x1009, 0x1021]) (s : State)
    (c : Nat) (v hw : Word) (who : Writer) : s.writeCluster c off v hw who = s := by
  simp only [List.mem_cons, List.not_mem_nil, or_false] at h
  obtain rfl | rfl | rfl | rfl | rfl | rfl | rfl | rfl | rfl := h <;> rfl

/-- Port control space takes no write of a core (R327). -/
theorem State.writePort_core {who : Writer} (h : who ≠ .binding) (s : State) (n off : Nat) (v : Word) :
    s.writePort n off v who = s := by
  cases who with
  | binding => exact absurd rfl h
  | coreA | coreB => rfl

theorem w1c_eq_true_iff (old : Bool) (v hw : Word) (bit : Nat) :
    w1c old v hw bit = true ↔ (old = true ∧ v.getLsbD bit = false) ∨ hw.getLsbD bit = true := by
  simp [w1c]

theorem w1c4_getLsbD (old : BitVec 4) (v hw : Word) {j : Nat} (hj : j < 4) :
    (w1c4 old v hw).getLsbD j = ((old.getLsbD j && !v.getLsbD j) || hw.getLsbD j) := by
  simp [w1c4, hj]

/-- R11, R13, R59: the flag registers, each by its word. -/
theorem flagRegisterWrites : FlagRegisterWrites := by
  intro s c k n q v hw who hc hk hn hq hmay u
  have write : ∀ r, GenReg.wf r = true → exec (.registerWrite r v hw who) s = .next (registerWriteEffect r v hw who s) :=
    fun r hr => exec_registerWrite hr hmay v hw
  have hc' : clusterOk c = true := decide_eq_true hc
  have hk' : stackOk k = true := decide_eq_true hk
  refine ⟨write (.mxFlags c) hc', write (.vxFlags c) hc', write (.qzFlags c) hc', write (.rdFlags c) hc', write (.sxFlags c) hc',
    write (.ueFlags k) hk', write (.seqStatus c) hc', write (.resStatus c) hc', write (.memStatus c) hc', write (.stackStatus k) hk',
    write (.ueStatus k) hk', write (.hqStatus q) (decide_eq_true hq), ?readOnly, ?port, ?bit, ?bits⟩
  case readOnly =>
    intro off hoff _
    exact (write (.clusterWord c off) hc').trans (congrArg _ (u.writeCluster_readOnly hoff c v hw who))
  case port =>
    intro off _ hb
    exact (write (.portReg n off) (decide_eq_true hn)).trans (congrArg _ (s.writePort_core hb n off v))
  case bit =>
    rintro old _ bit rfl
    exact w1c_eq_true_iff old v hw bit
  case bits =>
    rintro _ old rfl j hj
    exact w1c4_getLsbD old v hw hj

/-- Settles O8: a write of a core without the lease is refused; any other has the effect of its register. -/
theorem clusterRegisters : Obligations.ClusterRegisters :=
  ⟨leaseRefusesWrites, clusterRegisterWrites, flagRegisterWrites⟩

end Sys2Proof.Machine
end

section
/-! Torus collectives (R24, R318, R320): one equation for each way a stage can go, what the stages leave alone, and with them what
STAGE_ENTRY_SEND and the end of a stage do. -/

namespace Sys2Proof.Machine

open Sys2Proof Sys2Proof.Claims

theorem SameMem.kept {s t : State} (h : SameMem s t) : Kept s t := ⟨h.cmem, h.qmem, h.smem, h.pmap, h.pending⟩

section
variable (s : State) (p g : Nat)

/-! The first of the stages (Z before Y before X). -/

theorem mem_axesAfter {a b : Nat} : b ∈ axesAfter a ↔ b < a := by
  simp [axesAfter]

@[simp] theorem State.hasStage_modColl (k : Nat) (f : Coll → Coll) (a : Nat) :
    (s.modColl k f).hasStage p g a = s.hasStage p g a := rfl

/-- Whether a group has a stage turns on its REDUCE alone, of all that stands in the group. -/
theorem State.hasStage_modGroup {f : Group → Group} (hf : (f (s.group g)).reduce = (s.group g).reduce) (a : Nat) :
    (s.modGroup g f).hasStage p g a = s.hasStage p g a := by
  unfold State.hasStage
  rw [State.modGroup_self, hf]
  rfl

variable {s p g}

theorem State.nextStage_of_no_stage {axes : List Nat} (h : ∀ a ∈ axes, s.hasStage p g a = false) (v : Word) :
    s.nextStage p g axes v = s.endColl g v := by
  have noStage : s.stageFrom p g axes = none := List.find?_eq_none.2 fun a ha => by simp [h a ha]
  rw [State.nextStage, noStage]

/-- The stages of a collective begin at the highest axis that has one. -/
theorem State.nextStage_of_first {a : Nat} (ha : a < 3) (h : s.hasStage p g a = true)
    (hz : ∀ b, a < b → b < 3 → s.hasStage p g b = false) (v : Word) :
    s.nextStage p g [2, 1, 0] v = s.enterStage p g a v := by
  have first : s.stageFrom p g [2, 1, 0] = some a := by
    unfold State.stageFrom
    obtain rfl | rfl | rfl : a = 2 ∨ a = 1 ∨ a = 0 := by omega
    · simp only [List.find?, h]
    · simp only [List.find?, h, hz 2 (by decide) (by decide)]
    · simp only [List.find?, h, hz 2 (by decide) (by decide), hz 1 (by decide) (by decide)]
  rw [State.nextStage, first]

/-! Entering a stage. -/

variable (s p g)

theorem State.sendStage_frame (d : Nat) (es : List StageEntry) : ∃ ps, s.sendStage p d es = { s with ports := ps } := by
  unfold State.sendStage
  split
  · exact ⟨_, rfl⟩
  · split
    · exact ⟨_, rfl⟩
    · exact ⟨_, rfl⟩

/-- Sending entries only where they travel on. -/
theorem State.sendStage_if_frame (c : Bool) (d : Nat) (es : List StageEntry) :
    ∃ ps, (if c then s.sendStage p d es else s) = { s with ports := ps } := by
  cases c with
  | true => exact s.sendStage_frame p d es
  | false => exact ⟨_, rfl⟩

/-- The module's own entry in the stage of an axis (Table 10.3): the value, or an arrival where the group does not reduce. -/
def State.ownEntry (a : Nat) (v : Word) : StageEntry :=
  ⟨(s.group g).reduce, g, a, s.axisCoord a, (s.coll g).phase, if (s.group g).reduce then v else 0⟩

/-- The collective with the stage of an axis in progress and the module's own entry held. -/
def Coll.entered (x : Coll) (a : Nat) (v : Word) (e : StageEntry) : Coll :=
  { x with axis := some a, value := v, entries := x.entries ++ [e] }

/-- Entering a stage holds the module's own entry; the sends both ways touch the ports alone (R318). -/
theorem State.enterStage_frame (a : Nat) (v : Word) :
    ∃ ps, s.enterStage p g a v = { s.modColl g (fun x => x.entered a v (s.ownEntry g a v)) with ports := ps } := by
  unfold State.enterStage
  extract_lets x me e s1 s2
  obtain ⟨ps, up⟩ : ∃ ps, s2 = { s1 with ports := ps } := s1.sendStage_if_frame p (s1.travelsOn p (2 * a) me) (2 * a) [e]
  obtain ⟨qs, down⟩ := s2.sendStage_if_frame p (s2.travelsOn p (2 * a + 1) me) (2 * a + 1) [e]
  refine ⟨qs, down.trans ?_⟩
  rw [up]
  rfl

theorem State.enterStage_coll (a : Nat) (v : Word) :
    (s.enterStage p g a v).coll g = (s.coll g).entered a v (s.ownEntry g a v) := by
  obtain ⟨ps, h⟩ := s.enterStage_frame p g a v
  rw [h]
  exact s.modColl_self g (fun x => x.entered a v (s.ownEntry g a v))

@[simp] theorem State.enterStage_group (a : Nat) (v : Word) (k : Nat) : (s.enterStage p g a v).group k = s.group k := by
  obtain ⟨ps, h⟩ := s.enterStage_frame p g a v
  rw [h]
  rfl

@[simp] theorem State.enterStage_lineCoords (a : Nat) (v : Word) (q b : Nat) :
    (s.enterStage p g a v).lineCoords q b = s.lineCoords q b := by
  obtain ⟨ps, h⟩ := s.enterStage_frame p g a v
  rw [h]
  rfl

/-! Ending a collective. -/

theorem State.endColl_coll (v : Word) :
    (s.endColl g v).coll g = { s.coll g with axis := none, value := v, release := some v } := s.modColl_self g _

@[simp] theorem State.endColl_group (v : Word) (k : Nat) : (s.endColl g v).group k = s.group k := rfl

/-! Closing a stage. -/

variable {s p g}

theorem State.closeStage_of_no_axis (h : (s.coll g).axis = none) : s.closeStage p g = s := by
  simp [State.closeStage, h]

/-- A stage stays open while one module of its line has sent no entry. -/
theorem State.closeStage_of_missing {a k : Nat} (h : (s.coll g).axis = some a) (hk : k ∈ s.lineCoords p a)
    (hn : (s.coll g).held a k = none) : s.closeStage p g = s := by
  have open_ : ((s.lineCoords p a).map ((s.coll g).held a)).any Option.isNone = true :=
    List.any_eq_true.2 ⟨none, List.mem_map.2 ⟨k, hk, hn⟩, rfl⟩
  simp only [State.closeStage, h]
  rw [if_pos open_]

/-- The collective once the stage of an axis is summed: the flags of the sum raised, the stage's entries gone. -/
def Coll.summed (x : Coll) (a : Nat) (fl : FlagBits) : Coll :=
  { x with flags := x.flags ||| fl, entries := x.entries.filter (fun e => !(e.axis == a && e.phase == x.phase)) }

/-- A stage whose line is complete sums its entries from +0 in the order of the line and goes on to the next axis. -/
theorem State.closeStage_of_complete {a : Nat} {es : List StageEntry} (h : (s.coll g).axis = some a)
    (hes : (s.lineCoords p a).map ((s.coll g).held a) = es.map some) :
    s.closeStage p g =
      (s.modColl g (·.summed a (if (s.group g).reduce then (sumFrom0 (es.map (fun e => fw e.value))).2 else 0))).nextStage p g
        (axesAfter a) (if (s.group g).reduce then (sumFrom0 (es.map (fun e => fw e.value))).1 else 0) := by
  have values : (es.map some).filterMap (fun e => e.map (fun y => fw y.value)) = es.map (fun e => fw e.value) := by
    rw [List.filterMap_map]
    exact congrFun List.filterMap_eq_map es
  simp only [State.closeStage, h, hes, values]
  rw [if_neg (by simp)]
  rfl

theorem State.closeStages_of_closeStage (h : s.closeStage p g = s) : s.closeStages p g = s := by
  rw [State.closeStages, h, h, h]

/-- An entry of a coordinate that no entry held has is not held, whatever phase it belongs to. -/
theorem Coll.held_eq_none {x : Coll} {a k : Nat} (h : ∀ e ∈ x.entries, ¬(e.axis = a ∧ e.coord = k)) : x.held a k = none :=
  List.find?_eq_none.2 fun e he hek => by
    simp only [Bool.and_eq_true, beq_iff_eq] at hek
    exact h e he hek.1

/-! STAGE_ENTRY_SEND. -/

variable (s p g)

/-- The sum a complete group of this module contributes, or an arrival (R320). -/
def Group.contribution (x : Group) : Word := if x.reduce then x.sum.1 else 0

/-- Group g of partition p owes its collective an entry: it is a torus group, complete and not yet SENT, and its partition runs
(R24, R318). -/
structure State.CollDue (s : State) (p g : Nat) : Prop where
  owner : s.groupOwner g = some p
  full : (s.group g).full = true
  torus : (s.group g).torus = true
  unsent : (s.group g).sent = false
  running : (s.part p).running = true

/-- The collective of group g begun: SENT, with nothing of an earlier collective but entries that came ahead. -/
def State.collBegun : State :=
  (s.modGroup g (fun y => { y with sent := true })).modColl g
    (fun y => { y with phase := (s.group g).phase, flags := 0, release := none })

@[simp] theorem State.collBegun_group : (s.collBegun g).group g = { s.group g with sent := true } :=
  s.modGroup_self g (fun y => { y with sent := true })

theorem State.collBegun_coll :
    (s.collBegun g).coll g = { s.coll g with phase := (s.group g).phase, flags := 0, release := none } :=
  State.modColl_self _ g _

@[simp] theorem State.collBegun_hasStage (a : Nat) : (s.collBegun g).hasStage p g a = s.hasStage p g a :=
  s.hasStage_modGroup p g (f := fun y => { y with sent := true }) rfl a

variable {s p g}

theorem exec_stageEntrySend (hp : p < 8) (hg : g < 256) : exec (.stageEntrySend p g) s = .next (stageEntryEffect p g s) := by
  show execStageEntrySend p g s = _
  rw [execStageEntrySend, if_pos hp, onGroup, onNumber, if_pos hg]

theorem stageEntryEffect_of_not_due (h : (s.part p).running = false ∨ (s.group g).full = false ∨ (s.group g).sent = true) :
    stageEntryEffect p g s = s := by
  refine if_pos ?_
  obtain h | h | h := h <;> simp [h]

theorem stageEntryEffect_of_due (h : s.CollDue p g) :
    stageEntryEffect p g s = ((s.collBegun g).nextStage p g [2, 1, 0] (s.group g).contribution).closeStages p g :=
  if_neg (by simp [h.owner, h.full, h.torus, h.unsent, h.running])

/-- R318: without a stage the collective ends at once with the group's own sum. -/
theorem stageEntryEffect_of_no_stage (due : s.CollDue p g) (h : ∀ a, a < 3 → s.hasStage p g a = false) :
    stageEntryEffect p g s = (s.collBegun g).endColl g (s.group g).contribution := by
  have noStage : ∀ a ∈ [2, 1, 0], (s.collBegun g).hasStage p g a = false := fun a ha => by
    rw [State.collBegun_hasStage]
    exact h a (mem_axesAfter (a := 3).1 ha)
  rw [stageEntryEffect_of_due due, State.nextStage_of_no_stage noStage]
  exact State.closeStages_of_closeStage (State.closeStage_of_no_axis (by rw [State.endColl_coll]))

/-- R318: with a stage whose line misses the entry of another module, the first stage is entered and stays open. -/
theorem stageEntryEffect_of_first_stage (due : s.CollDue p g) {a k : Nat} (ha : a < 3) (h : s.hasStage p g a = true)
    (hz : ∀ b, a < b → b < 3 → s.hasStage p g b = false) (hk : k ∈ s.lineCoords p a)
    (hne : k ≠ s.axisCoord a) (hn : ∀ e ∈ (s.coll g).entries, ¬(e.axis = a ∧ e.coord = k)) :
    stageEntryEffect p g s = (s.collBegun g).enterStage p g a (s.group g).contribution := by
  rw [stageEntryEffect_of_due due, State.nextStage_of_first ha (by rwa [State.collBegun_hasStage])
    (fun b hab hb => by rw [State.collBegun_hasStage]; exact hz b hab hb)]
  refine State.closeStages_of_closeStage (State.closeStage_of_missing (a := a) (k := k) ?_ ?_ (Coll.held_eq_none ?_))
  · rw [State.enterStage_coll]
    rfl
  · rw [State.enterStage_lineCoords]
    exact hk
  · rw [State.enterStage_coll, State.collBegun_coll]
    intro e he
    obtain he | he := List.mem_append.1 he
    · exact hn e he
    · rw [List.mem_singleton.1 he]
      exact fun own => hne own.2.symm

end

/-- R24, R318, R320: the entry of a complete torus group, and the end of a stage. -/
theorem collectives : Collectives := by
  intro s p g hp hg
  rw [exec_stageEntrySend hp hg]
  have kept : Kept s (stageEntryEffect p g s) := (stageEntryEffect_same p g (SameMem.refl s)).kept
  refine ⟨?due, ?notDue, ?complete, ?missing⟩
  case due =>
    intro ho hf ht hs hr
    have due : s.CollDue p g := ⟨ho, hf, ht, hs, hr⟩
    constructor
    · intro h
      refine ⟨_, rfl, ?_, ?_, kept⟩ <;> rw [stageEntryEffect_of_no_stage due h]
      · rw [State.endColl_group, State.collBegun_group]
      · rw [State.endColl_coll]
        rfl
    · rintro a ha h hz ⟨k, hk, hne, hn⟩
      have entered := stageEntryEffect_of_first_stage due ha h hz hk hne hn
      have hc := State.enterStage_coll (s.collBegun g) p g a (s.group g).contribution
      refine ⟨_, rfl, ?sent, ?axis, ?entry, ?release, kept⟩ <;> rw [entered]
      case sent => rw [State.enterStage_group, State.collBegun_group]
      case axis => rw [hc]; rfl
      case entry =>
        rw [hc]
        refine ⟨_, List.mem_append_right _ (List.mem_singleton_self _), rfl, rfl, rfl, ?_⟩
        simp only [State.ownEntry, State.collBegun_group, Group.contribution]
        cases (s.group g).reduce with
        | true => rfl
        | false => rfl
      case release => rw [hc, State.collBegun_coll]; rfl
  case notDue =>
    intro h
    rw [stageEntryEffect_of_not_due h]
  case complete =>
    intro a es hx hes hlast
    rw [State.closeStage_of_complete hx hes, State.nextStage_of_no_stage (fun b hb => ?_), State.endColl_coll]
    · exact ⟨rfl, rfl⟩
    · rw [State.hasStage_modColl]
      exact hlast b (mem_axesAfter.1 hb)
  case missing =>
    intro a k hx hk hn
    exact State.closeStage_of_missing hx hk hn

end Sys2Proof.Machine
end

section
/-! Torus time (R322 to R325, R437, R439): bringing LOCAL_NS to a time, what the operations of torus time leave alone, and with them the
timeouts, a TIME frame and a small correction. -/

namespace Sys2Proof.Machine

open Sys2Proof Sys2Proof.Claims

section
variable (s : State)

/-! Time that passes: LOCAL_NS reaches the time asked for, and torus time moves in TT, the error left and A alone. -/

theorem State.fabPeriod_pos : 0 < s.fabPeriod := by
  unfold State.fabPeriod
  split
  · decide
  · match s.clk.opInForce with
    | 0 | 1 | 2 | 3 | _ + 4 => simp

theorem State.le_advanceIn_time (n : Nat) : s.clock.time + n * s.fabPeriod ≤ (s.advanceIn n).clock.time :=
  Nat.add_le_add_left (Nat.mul_le_mul_right _ (Nat.le_add_right _ _)) _

theorem State.le_advance_time (n : Nat) : s.clock.time + n * s.fabPeriod ≤ (s.advance n).clock.time := by
  unfold State.advance
  split
  case isTrue h => simp [h]
  case isFalse =>
    dsimp only
    split
    case isTrue => exact s.le_advanceIn_time n
    case isFalse h =>
      have hn : 256 - s.clock.fab % 256 ≤ n := by
        simp only [Bool.or_eq_true, decide_eq_true_eq, not_or] at h
        exact Nat.le_of_not_lt h.2
      calc s.clock.time + n * s.fabPeriod
          = s.clock.time + (256 - s.clock.fab % 256) * s.fabPeriod + (n - (256 - s.clock.fab % 256)) * s.fabPeriod := by
            rw [Nat.add_assoc, ← Nat.add_mul, Nat.add_sub_cancel' hn]
        _ ≤ (s.advanceIn (256 - s.clock.fab % 256)).clock.time + (n - (256 - s.clock.fab % 256)) * s.fabPeriod :=
            Nat.add_le_add_right (s.le_advanceIn_time _) _
        _ ≤ _ := State.le_advanceIn_time
            { s.advanceIn (256 - s.clock.fab % 256) with
              fabric := { s.fabric with stretch := s.fabric.stretchNext } } _

/-- Whole fabric cycles bring LOCAL_NS at least to the time asked for. -/
theorem State.le_atNs_localNs (ns : Nat) : ns ≤ (s.atNs ns).localNs := by
  refine (Nat.le_div_iff_mul_le (by decide)).2 ?_
  unfold State.atNs
  dsimp only
  split
  case isTrue h => exact h
  case isFalse =>
    have cycles : ns * 168 - s.clock.time
        ≤ (ns * 168 - s.clock.time + s.fabPeriod - 1) / s.fabPeriod * s.fabPeriod := by
      have hp := s.fabPeriod_pos
      have := Nat.lt_div_mul_add (a := ns * 168 - s.clock.time + s.fabPeriod - 1) hp
      omega
    have := s.le_advance_time ((ns * 168 - s.clock.time + s.fabPeriod - 1) / s.fabPeriod)
    omega

/-- Torus time t, moved on: TT, the error left to slew and A may differ, and nothing else. -/
def TimeSt.MovesTo (t u : TimeSt) : Prop := u = { t with tt := u.tt, rest := u.rest, ahead := u.ahead }

theorem TimeSt.MovesTo.refl (t : TimeSt) : t.MovesTo t := rfl

theorem TimeSt.MovesTo.trans {t u v : TimeSt} (h : t.MovesTo u) (k : u.MovesTo v) : t.MovesTo v := by
  unfold TimeSt.MovesTo at *
  rw [k, h]

theorem TimeSt.MovesTo.root {t u : TimeSt} (h : t.MovesTo u) : u.root = t.root := by
  rw [TimeSt.MovesTo] at h
  rw [h]

theorem TimeSt.MovesTo.epoch {t u : TimeSt} (h : t.MovesTo u) : u.epoch = t.epoch := by
  rw [TimeSt.MovesTo] at h
  rw [h]

theorem TimeSt.movesTo_advance (t : TimeSt) (k : Nat) : t.MovesTo (t.advance k) := by
  unfold TimeSt.advance
  split
  · exact TimeSt.MovesTo.refl t
  · rfl

theorem State.advance_torusTime (n : Nat) : s.torusTime.MovesTo (s.advance n).torusTime := by
  unfold State.advance
  split
  · exact TimeSt.MovesTo.refl _
  · dsimp only
    split
    · exact TimeSt.movesTo_advance _ _
    · exact (TimeSt.movesTo_advance _ _).trans (TimeSt.movesTo_advance _ _)

theorem State.atNs_torusTime (ns : Nat) : s.torusTime.MovesTo (s.atNs ns).torusTime := by
  unfold State.atNs
  dsimp only
  split
  · exact TimeSt.MovesTo.refl _
  · exact s.advance_torusTime _

/-! What the operations of torus time leave alone. -/

@[simp] theorem State.modTime_torusTime (f : TimeSt → TimeSt) : (s.modTime f).torusTime = f s.torusTime := rfl

/-- Raising an event touches the sessions, what is put out, and the counter of events lost. -/
theorem State.raiseEvent_frame (cls index sub : Nat) (detail : List Nat) :
    ∃ m o c, s.raiseEvent cls index sub detail = { s with maunvo := m, out := o, counters := c } := by
  unfold State.raiseEvent
  dsimp only
  split <;> exact ⟨_, _, _, rfl⟩

theorem State.setHoldover_frame (v : Bool) :
    ∃ m o c, s.setHoldover v = { s.modTime (fun t => { t with holdover := v }) with maunvo := m, out := o, counters := c } := by
  unfold State.setHoldover
  dsimp only
  split
  · exact ⟨_, _, _, rfl⟩
  · exact State.raiseEvent_frame _ ..

@[simp] theorem State.setHoldover_torusTime (v : Bool) : (s.setHoldover v).torusTime = { s.torusTime with holdover := v } := by
  obtain ⟨m, o, c, h⟩ := s.setHoldover_frame v
  rw [h]
  rfl

@[simp] theorem State.setHoldover_ports (v : Bool) : (s.setHoldover v).ports = s.ports := by
  obtain ⟨m, o, c, h⟩ := s.setHoldover_frame v
  rw [h]
  rfl

@[simp] theorem State.setHoldover_clock (v : Bool) : (s.setHoldover v).clock = s.clock := by
  obtain ⟨m, o, c, h⟩ := s.setHoldover_frame v
  rw [h]
  rfl

@[simp] theorem State.selectParent_ports : s.selectParent.ports = s.ports := by
  unfold State.selectParent
  repeat' split
  all_goals simp

@[simp] theorem State.selectParent_clock : s.selectParent.clock = s.clock := by
  unfold State.selectParent
  repeat' split
  all_goals simp

/-- R322: a module that is not root and finds no parent has DEPTH 255. -/
theorem State.selectParent_depth (hr : s.torusTime.root = false) (hn : s.selectParent.torusTime.parent = none) :
    s.selectParent.torusTime.depth = 255 := by
  revert hn
  unfold State.selectParent
  rw [if_neg (by simp [hr])]
  split
  case h_1 => exact fun hn => nomatch hn
  case h_2 => exact fun _ => by rw [State.setHoldover_torusTime]; rfl

@[simp] theorem State.seeTag_ports (tag : BitVec 128) (depth : Nat) : (s.seeTag tag depth).ports = s.ports := by
  unfold State.seeTag
  split <;> rfl

@[simp] theorem State.discontinuity_ports (refNs : Nat) : (s.discontinuity refNs).ports = s.ports := by
  unfold State.discontinuity State.timeEvent
  lift_lets
  extract_lets t e r hs s1 len s2
  obtain ⟨m, o, c, h⟩ := s1.raiseEvent_frame 7 0x2600 7 [s1.torusTime.status, errWord s1.torusTime.err]
  exact (congrArg State.ports h : s2.ports = _)

@[simp] theorem State.correct_ports (off : Int) : (s.correct off).ports = s.ports := by
  unfold State.correct
  lift_lets
  extract_lets t refNs a e s1 d rem s2
  have h1 : s1.ports = s.ports := s.setHoldover_ports false
  have h2 : s2.ports = s.ports := h1
  split
  · exact s.setHoldover_ports false
  · split
    · exact h1
    · split
      · exact (State.discontinuity_ports _ refNs).trans h1
      · split
        · exact (State.discontinuity_ports _ refNs).trans h2
        · exact h2

/-- What a TIME frame changes of the ports: what it said, kept at its own port. -/
theorem State.takeTime_ports (n t4 : Nat) (q : TimePl) :
    (s.takeTime n t4 q).ports = (s.modPort n (fun x =>
      { x with timeIn := some ⟨q.tTx, t4, q.depth, q.rootTag, q.epoch, q.holdover, s.localNs⟩ })).ports := by
  unfold State.takeTime
  dsimp only
  split <;> simp

@[simp] theorem State.becomeRoot_clock : s.becomeRoot.clock = s.clock := rfl

/-! The timeouts. -/

theorem State.le_atNs_localNs_of_clock {t : State} {ns : Nat} (h : t.clock = (s.atNs ns).clock) : ns ≤ t.localNs := by
  rw [State.localNs, h]
  exact s.le_atNs_localNs ns

variable {s}

/-- The parent is lost: in holdover, with a parent chosen anew (R322, R324). -/
def State.parentLost (s : State) : State := ((s.modTime (fun t => { t with parent := none })).setHoldover true).selectParent

@[simp] theorem State.parentLost_clock (s : State) : s.parentLost.clock = s.clock :=
  (State.selectParent_clock _).trans (State.setHoldover_clock _ true)

theorem State.parentLost_depth (hr : s.torusTime.root = false) (hn : s.parentLost.torusTime.parent = none) :
    s.parentLost.torusTime.depth = 255 :=
  State.selectParent_depth _ (by rw [State.setHoldover_torusTime]; exact hr) hn

theorem exec_timeParentTimeout {m : Nat} (hm : s.torusTime.parent = some m) :
    exec .timeParentTimeout s = .next (s.atNs (s.torusTime.lastValid + 10000000)).parentLost := by
  show execTimeParentTimeout s = _
  rw [execTimeParentTimeout, hm]
  rfl

/-- R322, R324: without a frame of its parent for 10 ms a module that is not root has chosen another or has DEPTH 255. -/
theorem exec_timeParentTimeout_of_not_root {m : Nat} (hm : s.torusTime.parent = some m) (hr : s.torusTime.root = false) :
    ∃ t, exec .timeParentTimeout s = .next t ∧ s.torusTime.lastValid + 10000000 ≤ t.localNs
      ∧ (t.torusTime.parent = none → t.torusTime.depth = 255) ∧ Kept s t := by
  refine ⟨_, exec_timeParentTimeout hm, ?_, State.parentLost_depth ((s.atNs_torusTime _).root.trans hr), ?_⟩
  · exact s.le_atNs_localNs_of_clock (State.parentLost_clock _)
  · exact (State.selectParent_same (State.setHoldover_same true (State.modTime_same _
      (State.atNs_same _ (SameMem.refl s))))).kept

/-- R325: 10 ms after the last smaller ROOT_TAG the module is root again, with a ROOT_EPOCH of its own. -/
theorem exec_rootConflictEnd_of_conflict {at_ : Nat} (hs : s.torusTime.smallerAt = some at_) (hr : s.timeRoot = true) :
    ∃ t, exec .rootConflictEnd s = .next t ∧ t.torusTime.root = true ∧ t.torusTime.depth = 0 ∧ t.torusTime.smallerAt = none
      ∧ at_ + 10000000 ≤ t.localNs ∧ t.torusTime.epoch = epochOf (s.torusTime.epoch.toNat / 65536 + 1) 0 ∧ Kept s t := by
  refine ⟨(s.atNs (at_ + 10000000)).becomeRoot, ?_, rfl, rfl, rfl, ?_, ?_, ?_⟩
  · show execRootConflictEnd s = _
    simp only [execRootConflictEnd, hs, hr, if_true]
  · exact s.le_atNs_localNs_of_clock (State.becomeRoot_clock _)
  · rw [State.becomeRoot, State.modTime_torusTime, (s.atNs_torusTime _).epoch]
  · exact (State.becomeRoot_same (State.atNs_same _ (SameMem.refl s))).kept

/-- The module runs on its own time: TT is LOCAL_NS, in holdover, with no root (R325). -/
def State.onOwnTime (s : State) : State :=
  (s.modTime (fun t => { t with noRoot := true, tt := s.localNs * ttUnit })).setHoldover true

@[simp] theorem State.onOwnTime_torusTime (s : State) :
    s.onOwnTime.torusTime = { s.torusTime with noRoot := true, holdover := true, tt := s.localNs * ttUnit } :=
  State.setHoldover_torusTime _ true

@[simp] theorem State.onOwnTime_clock (s : State) : s.onOwnTime.clock = s.clock := State.setHoldover_clock _ true

theorem State.onOwnTime_ttNs (s : State) : s.onOwnTime.ttNs = BitVec.ofNat 64 s.onOwnTime.localNs := by
  rw [State.localNs, State.onOwnTime_clock, State.ttNs, State.onOwnTime_torusTime]
  exact congrArg (BitVec.ofNat 64) (Nat.mul_div_cancel s.localNs (Nat.two_pow_pos 24))

theorem exec_noRootTimeout (hl : s.torusTime.locked = false) (hn : s.torusTime.noRoot = false) (hr : s.torusTime.root = false)
    (hb : s.boot.moduleState = 1) : exec .noRootTimeout s = .next (s.atNs (s.boot.readyAt + 10000000000)).onOwnTime := by
  show execNoRootTimeout s = _
  rw [execNoRootTimeout, if_neg (by simp [hl, hn, hr, hb])]
  rfl

/-- R325: without a correction 10 s after READY the module runs on its own time. -/
theorem exec_noRootTimeout_of_unlocked (hl : s.torusTime.locked = false) (hn : s.torusTime.noRoot = false)
    (hr : s.torusTime.root = false) (hb : s.boot.moduleState = 1) :
    ∃ t, exec .noRootTimeout s = .next t ∧ t.torusTime.noRoot = true ∧ t.torusTime.holdover = true
      ∧ s.boot.readyAt + 10000000000 ≤ t.localNs ∧ t.ttNs = BitVec.ofNat 64 t.localNs ∧ Kept s t := by
  refine ⟨_, exec_noRootTimeout hl hn hr hb, ?_, ?_, ?_, State.onOwnTime_ttNs _, ?_⟩
  · rw [State.onOwnTime_torusTime]
  · rw [State.onOwnTime_torusTime]
  · exact s.le_atNs_localNs_of_clock (State.onOwnTime_clock _)
  · exact (State.setHoldover_same true (State.modTime_same _ (State.atNs_same _ (SameMem.refl s)))).kept

/-! TIME frames and corrections. -/

theorem exec_timeFrame {n : Nat} {f : Frame} {rx : RxCheck} {q : TimePl} (hn : n < 256) (hst : (s.port n).state = 3)
    (hb : rx.badLane = none) (ht : rx.tagOk = true) (hf : f.payload = .time q) (t4 : Nat) :
    exec (.timeFrame n f rx t4) s = .next ((s.takeHeader n f).takeTime n t4 q) := by
  have screened : s.screen n f rx false = (true, s.takeHeader n f) := by simp [State.screen, hb, ht]
  show execTimeFrame n f rx t4 s = _
  rw [execTimeFrame, onFrame, if_neg (fun hne => hne hst), screened, onPort, onNumber, if_pos hn]
  simp only [hf, if_true]

/-- What the TIME frame of a port says is kept there, whatever parent is then chosen and whatever correction follows (R322, R323). -/
theorem State.takeTime_timeIn (s : State) (n t4 : Nat) (q : TimePl) :
    ((s.takeTime n t4 q).port n).timeIn = some ⟨q.tTx, t4, q.depth, q.rootTag, q.epoch, q.holdover, s.localNs⟩ := by
  rw [State.port, State.takeTime_ports]
  exact congrArg Port.timeIn (s.modPort_self n _)

/-- R437: an error of at most 1 s of a module that has a reference and owes no fall of A is slewed. -/
theorem State.correct_of_small {off : Int} (hl : s.torusTime.locked = true) (ha : s.torusTime.ahead = 0)
    (ho : off.natAbs ≤ 1000000000) :
    s.correct off = ((s.setHoldover false).modTime (fun x => { x with locked := true, noRoot := false, err := off })).modTime
      (fun x => x.slew off) := by
  simp [State.correct, hl, ha, ho]

end

/-- R322, R324, R325, R437, R439: the timeouts of torus time, a TIME frame, and a small correction. -/
theorem torusTime : TorusTime := by
  intro s
  refine ⟨fun m => exec_timeParentTimeout_of_not_root, fun at_ => exec_rootConflictEnd_of_conflict,
    exec_noRootTimeout_of_unlocked, ?frame, ?slew⟩
  case frame =>
    intro n f rx at_ q hn hst hb ht hf
    exact ⟨exec_timeFrame hn hst hb ht hf at_, (s.takeHeader n f).takeTime_timeIn n at_ q⟩
  case slew =>
    intro off hl ha ho
    dsimp only
    rw [State.correct_of_small hl ha ho]
    simp [State.ttNs, TimeSt.slew, ttUnit]

/-- Settles O28: the stages of a torus collective open, stay open and close as R318 and R320 say, and torus time keeps its timeouts. -/
theorem torusCollectivesAndTime : Obligations.TorusCollectivesAndTime := ⟨collectives, torusTime⟩

end Sys2Proof.Machine
end
